-- ==== Sys2Proof/Config.lean ====
section
/-! DEFINITION. The figures the manual fixes for this part. No value of the manual is left to an
implementation, so nothing here is a free value. -/

namespace Sys2Proof.Config

/-- Samples in a block, a frame and a frame period (00_scope.md sections 4.2 and 4.3). -/
abbrev frameLength : Nat := 160

/-- Core clocks in a sample time (00_scope.md section 4.2). -/
abbrev clocksPerSampleTime : Nat := 4096

/-- Highway frame syncs of the start-up wait (R50). -/
abbrev startUpSyncs : Nat := 512

/-- Sample times in a second: the unit of the half-wait limits (R25). -/
abbrev samplesPerSecond : Nat := 8000

/-- Sample times in 100 ms: the unit of the watchdog limits (R187). -/
abbrev samplesPerWatchdogUnit : Nat := 800

/-- Sample times until a restart request lapses (R196). -/
abbrev restartLapse : Nat := 16000

/-- Sample times after its start at which a continuity check times out (R171). -/
abbrev checkTimeout : Nat := 4000

/-- Records the Transmit Queue holds (R76). -/
abbrev transmitQueueLength : Nat := 32

/-- Frames a Receive Queue holds (R82). -/
abbrev receiveQueueLength : Nat := 6

/-- Vendor code, DEVICE item 0 (R188). -/
abbrev vendorCode : Nat := 0x0A3C

/-- Part code, DEVICE item 1 (R188). -/
abbrev partCode : Nat := 0x4128

/-- Revision, DEVICE item 2 (R188). -/
abbrev revision : Nat := 1

end Sys2Proof.Config
end

