-- ==== Sys2Proof/Word.lean ====
section
/-! DEFINITION. The plain value types of the part: octets, channel and timeslot numbers, linear samples. -/

namespace Sys2Proof

/-- One octet of a highway, a record, an order or a reply. -/
abbrev Octet := BitVec 8

/-- A channel number, 0..127 (R1). -/
abbrev Chan := Fin 128

/-- A timeslot number, 0..127 (R48). -/
abbrev Slot := Fin 128

/-- A block or frame of linear samples, oldest first. A whole block holds 160 samples, each in
−8192..8191 (00_scope.md section 4.3); the arithmetic on them is exact integer arithmetic. -/
abbrev Block := List Int

end Sys2Proof
end

