-- ==== Sys2Proof/Syntax.lean ====
section
/-! DEFINITION. The commands of the part: one constructor of `Instr` per row of spec/opcode_table.json. -/

namespace Sys2Proof

/-- The two control lines (00_scope.md section 1.1). -/
inductive Line where
  | F
  | R
  deriving DecidableEq, Repr

/-- The three speech modes (00_scope.md section 4.4). -/
inductive Mode where
  | m16
  | m24
  | m32
  deriving DecidableEq, Repr

/-- The two kinds of codec job (R124). -/
inductive JobKind where
  | decode
  | encode
  deriving DecidableEq, Repr

/-- The eight items of the staging rows, in the order of their codes (R138). -/
inductive Item where
  | timeslot
  | gainToFixed
  | gainToRadio
  | quietThreshold
  | mode
  | modeSet
  | align
  | dtx
  deriving DecidableEq, Repr

/-- The four item spaces, in the order of their numbers (R184). -/
inductive Space where
  | profile
  | pattern
  | line
  | device
  deriving DecidableEq, Repr

/-- What every order carries beside its verb and argument (R178): the line it is issued on, the node
field, bit 7 of octet 1, and the channel field. -/
structure Order where
  line    : Line
  node    : BitVec 3
  bit7    : Bool
  channel : Chan
  deriving DecidableEq, Repr

/-- The commands of the part. Each comment gives the row's mnemonic and rule. -/
inductive Instr where
  /-- POWER_ON (R11). -/
  | powerOn
  /-- RESET_LOW (R199). -/
  | resetLow
  /-- RESET_RISE (R50). -/
  | resetRise
  /-- READY (R50): the 512th frame sync, with the levels of the node straps of both lines. -/
  | ready (strapF strapR : BitVec 3)
  /-- FRAME_SYNC (R49), with the octet received on each timeslot in the sample time it ends. -/
  | frameSync (incoming : Vector Octet 128)
  /-- CONTINUITY_TIMEOUT (R171). -/
  | continuityTimeout (c : Chan)
  /-- DOWNLINK_BOUNDARY (R57). -/
  | downlinkBoundary (c : Chan)
  /-- PLAYOUT_INSTANT (R88). -/
  | playoutInstant (c : Chan)
  /-- WINDOW_START_DEADLINE (R94). -/
  | windowStartDeadline (c : Chan)
  /-- JOB_START_DEADLINE (R131): the job is named by its channel and kind, of which the pool holds at
  most one (R125). -/
  | jobStartDeadline (c : Chan) (kind : JobKind)
  /-- JOB_COMPLETION (R129). -/
  | jobCompletion (engine : Fin 4)
  /-- RECORD_ARRIVAL (R67), with the whole octets received from the record's first bit to its end. -/
  | recordArrival (octets : List Octet)
  /-- RECORD_TRANSMITTED (R78). -/
  | recordTransmitted
  /-- HALF_WAIT_EXPIRY (R26). -/
  | halfWaitExpiry (c : Chan)
  /-- WATCHDOG_EXPIRY (R193). -/
  | watchdogExpiry (line : Line)
  /-- RESTART_LAPSE (R197). -/
  | restartLapse (line : Line)
  /-- EARLY_SELECT_RISE (R177). -/
  | earlySelectRise (line : Line)
  /-- ORDER_CRC_MISMATCH (R177). -/
  | orderCrcMismatch (line : Line)
  /-- EXTRA_CLOCK (R177). -/
  | extraClock (line : Line)
  /-- NOP, verb 00H (R182). -/
  | nop (o : Order)
  /-- BIND, verb 01H (R13). -/
  | bind (o : Order) (timeslot : Slot) (profile : Fin 8) (tag : BitVec 14)
  /-- ATTACH, verb 02H (R16). -/
  | attach (o : Order) (modeSet : BitVec 3) (requested : BitVec 2) (tag : BitVec 14)
  /-- RELEASE, verb 03H (R20). -/
  | release (o : Order)
  /-- HANDOVER, verb 04H (R105). -/
  | handover (o : Order)
  /-- CHECK, verb 05H (R168). -/
  | check (o : Order)
  /-- SPLICE, verb 06H (R152). -/
  | splice (o : Order) (partner : Chan)
  /-- UNSPLICE, verb 07H (R163). -/
  | unsplice (o : Order)
  /-- STAGE, verb 08H (R139). -/
  | stage (o : Order) (item : Item) (value : BitVec 16)
  /-- COMMIT, verb 09H (R141). -/
  | commit (o : Order)
  /-- CANCEL, verb 0AH (R142). -/
  | cancel (o : Order)
  /-- READ_CHANNEL, verb 0BH (R183). -/
  | readChannel (o : Order) (aspect : Fin 16)
  /-- NEXT_EVENT, verb 0CH (R191). -/
  | nextEvent (o : Order)
  /-- CLEAR_EVENTS, verb 0DH (R192). -/
  | clearEvents (o : Order) (kinds : BitVec 9)
  /-- CLEAR_LINE_EVENTS, verb 0EH (R192). -/
  | clearLineEvents (o : Order) (kinds : BitVec 5)
  /-- SELECT_ITEM, verb 0FH (R184). -/
  | selectItem (o : Order) (space : Space) (index : Fin 128)
  /-- READ_ITEM, verb 10H (R184). -/
  | readItem (o : Order)
  /-- WRITE_ITEM, verb 11H (R184). -/
  | writeItem (o : Order) (value : BitVec 16)
  /-- ENGINE_SERVICE with OUT, verb 12H (R134). -/
  | engineServiceOut (o : Order) (engine : Fin 4)
  /-- ENGINE_SERVICE with IN, verb 12H (R135). -/
  | engineServiceIn (o : Order) (engine : Fin 4)
  /-- RESTART, verb 13H (R196). -/
  | restart (o : Order)
  /-- RESTART_EXECUTION (R198): the end of the exchange that restarts the part. -/
  | restartExecution
  /-- RECORD_START (R64). -/
  | recordStart
  /-- An order whose verb code is above 13H (R181). -/
  | unknownVerb (o : Order) (code : BitVec 5)
  deriving DecidableEq, Repr

end Sys2Proof
end

