-- ==== Sys2Proof/Machine/Arithmetic.lean ====
section
/-! DEFINITION. The speech arithmetic of 02_speech_arithmetic.md, to the exact integer: companding, gain, the
step function, the adaptive differential code, activity and quiet level, comfort noise, concealment, job length.
On integers `/` with a positive divisor rounds toward minus infinity, as the manual's floor does. -/

namespace Sys2Proof

/-- Mode codes (00_scope.md section 4.4). -/
def Mode.code : Mode → Nat
  | .m16 => 1
  | .m24 => 2
  | .m32 => 3

/-- The mode of a code; code 0 names no mode. -/
def Mode.ofCode : Nat → Option Mode
  | 1 => some .m16
  | 2 => some .m24
  | 3 => some .m32
  | _ => none

/-- Bits per sample n: the mode code plus 1 (02_speech_arithmetic.md section 2.4). -/
def Mode.bits (m : Mode) : Nat := m.code + 1

/-- Payload octets of a frame in this mode (R37). -/
def Mode.payloadOctets (m : Mode) : Nat := 20 * m.bits

/-- Membership in a mode set: bit 0 stands for mode 16, bit 1 for mode 24, bit 2 for mode 32. -/
def Mode.inSet (m : Mode) (set : BitVec 3) : Bool := set.getLsbD (m.code - 1)

/-- The active mode: the highest mode of the set not above the requested mode and not above the cap.
Mode 16 always qualifies, since every mode set held contains it (R5). -/
def Mode.derive (set : BitVec 3) (requested cap : Mode) : Mode :=
  let ok (m : Mode) := m.inSet set && decide (m.code ≤ requested.code) && decide (m.code ≤ cap.code)
  if ok .m32 then .m32 else if ok .m24 then .m24 else .m16

namespace Speech

/-- Clamp to a closed range. -/
def clamp (lo hi x : Int) : Int := max lo (min hi x)

/-- Saturation to the linear range −8192..8191. -/
def saturate (x : Int) : Int := clamp (-8192) 8191 x

/-! ### Companding -/

/-- The magnitude (2m + 33) × 2^e − 33 of a PCM octet (R27). -/
def expandedMagnitude (o : Octet) : Nat :=
  (2 * (o.toNat % 16) + 33) * 2 ^ (o.toNat / 16 % 8) - 33

/-- Expansion of an incoming octet: sign in bit 7, segment in bits 6–4, level in bits 3–0 (R27). -/
def expand (o : Octet) : Int :=
  if o.getLsbD 7 then -(expandedMagnitude o : Int) else (expandedMagnitude o : Int)

/-- The largest segment e in 0..7 for which the biased magnitude is at least 32 × 2^e (R28 step 3). -/
def segment (biased : Nat) : Nat :=
  ((List.range 8).filter fun e => decide (32 * 2 ^ e ≤ biased)).getLastD 0

/-- Compression of an outgoing sample (R28). -/
def compress (x : Int) : Octet :=
  let biased := min x.natAbs 8158 + 33
  let e := segment biased
  let m := biased / 2 ^ (e + 1) - 16
  BitVec.ofNat 8 ((if x < 0 then 128 else 0) + 16 * e + m)

/-! ### Gain -/

/-- A gain code applied to a sample: floor((x × G + 128) / 256), saturated (R29). -/
def gain (g : Nat) (x : Int) : Int := saturate ((x * (g : Int) + 128) / 256)

/-- A gain applied to every sample of a frame or block (R30). -/
def gainBlock (g : Nat) (b : Block) : Block := b.map (gain g)

/-! ### The step function and the adaptive differential code -/

/-- step(i) = (8 + (i mod 8)) × 2^(i div 8) (R31). -/
def stepSize (i : Nat) : Nat := (8 + i % 8) * 2 ^ (i / 8)

/-- The movement of the step index for quantised size k (R33). -/
def adapt : Mode → Nat → Int
  | .m16, k => if k = 0 then -1 else 2
  | .m24, k => if k ≤ 1 then -1 else if k = 2 then 2 else 4
  | .m32, k => if k ≤ 3 then -1 else 2 * ((k : Int) - 3)

/-- The coder's state: the predictor and the step index (02_speech_arithmetic.md section 2.4). -/
structure Coder where
  predictor : Int
  stepIndex : Nat
  deriving DecidableEq, Repr

/-- The limit 2^(n−1) − 1 on the quantised size (R32 step 3). -/
def sizeLimit (m : Mode) : Nat := 2 ^ (m.bits - 1) - 1

/-- The reconstructed difference: the magnitude floor((2k + 1) × s / 2), then the sign (R32 step 4, R34). -/
def difference (negative : Bool) (k s : Nat) : Int :=
  if negative then -(((2 * k + 1) * s / 2 : Nat) : Int) else (((2 * k + 1) * s / 2 : Nat) : Int)

/-- The update that encoder and decoder share: new predictor and new step index from the code (R32 steps 4 to 6,
R35 steps 3 to 5). -/
def update (m : Mode) (st : Coder) (negative : Bool) (k : Nat) : Coder :=
  { predictor := saturate (st.predictor + difference negative k (stepSize st.stepIndex))
    stepIndex := (clamp 0 63 ((st.stepIndex : Int) + adapt m k)).toNat }

/-- The quantised size of a difference: floor(|d| / s) in full, then limited (R32 step 3). -/
def quantise (m : Mode) (d : Int) (s : Nat) : Nat := min (d.natAbs / s) (sizeLimit m)

/-- The code of one sample, sign bit first, then k most significant bit first (R32 step 7, R34). -/
def codeBits (m : Mode) (negative : Bool) (k : Nat) : List Bool :=
  negative :: (List.range (m.bits - 1)).reverse.map k.testBit

/-- One sample coded: its code bits and the new state (R32). -/
def encodeSample (m : Mode) (st : Coder) (x : Int) : List Bool × Coder :=
  let d := x - st.predictor
  let negative := decide (d < 0)
  let k := quantise m d (stepSize st.stepIndex)
  (codeBits m negative k, update m st negative k)

/-- The codes of a run of samples, one after another, and the end state (R36, R37). -/
def encodeSamples (m : Mode) : Coder → List Int → List Bool × Coder
  | st, [] => ([], st)
  | st, x :: xs =>
    let (bits, st') := encodeSample m st x
    let (more, last) := encodeSamples m st' xs
    (bits ++ more, last)

/-- The number whose bits are listed most significant first. -/
def bitsValue (bits : List Bool) : Nat := bits.foldl (fun v b => 2 * v + b.toNat) 0

/-- One sample rebuilt from its code: the decoded sample is the new predictor (R35). -/
def decodeSample (m : Mode) (st : Coder) : List Bool → Coder
  | [] => st
  | sign :: k => update m st sign (bitsValue k)

/-- `count` samples rebuilt from a stream of codes (R38). -/
def decodeSamples (m : Mode) : Nat → Coder → List Bool → Block
  | 0, _, _ => []
  | count + 1, st, bits =>
    let st' := decodeSample m st (bits.take m.bits)
    st'.predictor :: decodeSamples m count st' (bits.drop m.bits)

/-- The bits of an octet, bit 7 first. -/
def octetBits (o : Octet) : List Bool := (List.range 8).map o.getMsbD

/-- The bits of a run of octets, each bit 7 first (R37, R64). -/
def octetsBits (os : List Octet) : List Bool := os.flatMap octetBits

/-- A bit stream laid into octets from bit 7 onward (R37). Every payload fills its octets exactly. -/
def packOctets : List Bool → List Octet
  | b7 :: b6 :: b5 :: b4 :: b3 :: b2 :: b1 :: b0 :: rest =>
    BitVec.ofNat 8 (bitsValue [b7, b6, b5, b4, b3, b2, b1, b0]) :: packOctets rest
  | _ => []

/-- An ENCODE job: the payload and the end state (R36, R37). -/
def encodeFrame (m : Mode) (start : Coder) (samples : Block) : List Octet × Coder :=
  let (bits, last) := encodeSamples m start samples
  (packOctets bits, last)

/-- A DECODE job: the block of 160 decoded samples (R38). -/
def decodeFrame (m : Mode) (start : Coder) (payload : List Octet) : Block :=
  decodeSamples m Config.frameLength start (octetsBits payload)

/-! ### Activity, quiet level, comfort noise, concealment -/

/-- The activity of a frame: floor(S / 160), S the sum of the magnitudes (R40). -/
def activity (frame : Block) : Nat := (frame.map Int.natAbs).sum / Config.frameLength

/-- The quiet level: the largest index whose step size is not above A, 0 where there is none (R41). -/
def quietLevel (a : Nat) : Nat :=
  ((List.range 64).filter fun i => decide (stepSize i ≤ a)).getLastD 0

/-- One advance of the comfort-noise register (R42). -/
def noiseAdvance (r : BitVec 16) : BitVec 16 :=
  if r.getLsbD 0 then (r >>> 1) ^^^ 0xB400#16 else r >>> 1

/-- The comfort sample formed from the register after its advance (R43). -/
def comfortSample (level : Nat) (r : BitVec 16) : Int :=
  ((((r.toNat % 512 : Nat) : Int) - 256) * (stepSize level : Int) + 128) / 256

/-- `count` comfort samples at one level, each from the next advance, and the register after the last (R43). -/
def comfortSamples (level : Nat) : Nat → BitVec 16 → Block × BitVec 16
  | 0, r => ([], r)
  | count + 1, r =>
    let r' := noiseAdvance r
    let (more, last) := comfortSamples level count r'
    (comfortSample level r' :: more, last)

/-- A comfort block: 160 samples (R43). -/
def comfortBlock (level : Nat) (r : BitVec 16) : Block × BitVec 16 :=
  comfortSamples level Config.frameLength r

/-- A silence block: 160 zero samples (R45). -/
def silence : Block := List.replicate Config.frameLength 0

/-- The concealment block for the c-th consecutive loss (R44). -/
def concealment (c lossToMute : Nat) (lastGood : Block) : Block :=
  if c ≤ lossToMute then gainBlock (192 >>> (c - 1)) lastGood else silence

/-- Core clocks a job occupies its engine (R46). -/
def jobClocks (m : Mode) : Nat := 320 + 1280 * (m.bits + 2)

end Speech

end Sys2Proof
end

