-- ==== Sys2Proof/Machine/Checks.lean ====
section
/-! DEFINITION. The two check codes: CRC-8 of orders, replies and profiles (R179) and CRC-16 of records (R66). -/

namespace Sys2Proof.Checks

/-- One data bit into the CRC-8 register (R179 steps 1 to 3). -/
def crc8Bit (r : BitVec 8) (bit : Bool) : BitVec 8 :=
  if r.getMsbD 0 != bit then (r <<< 1) ^^^ 0x07#8 else r <<< 1

/-- CRC-8: polynomial 07H, start 5AH, octets in order, most significant bit first, no inversion (R179). -/
def crc8 (octets : List Octet) : Octet := (Speech.octetsBits octets).foldl crc8Bit 0x5A#8

/-- One data bit into the CRC-16 register (R66 steps 1 to 3). -/
def crc16Bit (r : BitVec 16) (bit : Bool) : BitVec 16 :=
  if r.getMsbD 0 != bit then (r <<< 1) ^^^ 0x1021#16 else r <<< 1

/-- CRC-16: polynomial 1021H, start FFFFH, no inversion (R66). -/
def crc16 (octets : List Octet) : BitVec 16 := (Speech.octetsBits octets).foldl crc16Bit 0xFFFF#16

/-- The check octets of a record, high octet first (R66). -/
def crc16Octets (octets : List Octet) : List Octet :=
  [(crc16 octets).extractLsb' 8 8, (crc16 octets).extractLsb' 0 8]

end Sys2Proof.Checks
end

