-- ==== Sys2Proof/WellFormed.lean ====
section
/-! DEFINITION. Which terms of `Instr` stand for a command the part can be given. Every other operand
range is carried by its type. -/

namespace Sys2Proof

/-- A record is received to at most 88 octets (R67); a verb is unknown when its code is above 13H (R181). -/
def Instr.wellFormed : Instr → Bool
  | .recordArrival octets => decide (octets.length ≤ 88)
  | .unknownVerb _ code => decide (0x13 < code.toNat)
  | .powerOn | .resetLow | .resetRise | .ready _ _ | .frameSync _ | .continuityTimeout _
  | .downlinkBoundary _ | .playoutInstant _ | .windowStartDeadline _ | .jobStartDeadline _ _
  | .jobCompletion _ | .recordTransmitted | .halfWaitExpiry _ | .watchdogExpiry _ | .restartLapse _
  | .earlySelectRise _ | .orderCrcMismatch _ | .extraClock _ | .nop _ | .bind _ _ _ _
  | .attach _ _ _ _ | .release _ | .handover _ | .check _ | .splice _ _ | .unsplice _
  | .stage _ _ _ | .commit _ | .cancel _ | .readChannel _ _ | .nextEvent _ | .clearEvents _ _
  | .clearLineEvents _ _ | .selectItem _ _ _ | .readItem _ | .writeItem _ _
  | .engineServiceOut _ _ | .engineServiceIn _ _ | .restart _ | .restartExecution
  | .recordStart => true

end Sys2Proof
end

