-- ==== Sys2Proof/Decode.lean ====
section
/-! DEFINITION. Reading a command from bits. The opcode table gives no row any bits, so `decodeTableWord` reads none.
The orders of the control lines have a wire form of their own (R178, R179, R182): `decodeOrder` reads the six octets of
an order into its command, and `encodeOrder` writes them. -/

namespace Sys2Proof

/-- The verb codes (R182). -/
def Instr.verb : Instr → Option Nat
  | .nop _ => some 0x00
  | .bind _ _ _ _ => some 0x01
  | .attach _ _ _ _ => some 0x02
  | .release _ => some 0x03
  | .handover _ => some 0x04
  | .check _ => some 0x05
  | .splice _ _ => some 0x06
  | .unsplice _ => some 0x07
  | .stage _ _ _ => some 0x08
  | .commit _ => some 0x09
  | .cancel _ => some 0x0A
  | .readChannel _ _ => some 0x0B
  | .nextEvent _ => some 0x0C
  | .clearEvents _ _ => some 0x0D
  | .clearLineEvents _ _ => some 0x0E
  | .selectItem _ _ _ => some 0x0F
  | .readItem _ => some 0x10
  | .writeItem _ _ => some 0x11
  | .engineServiceOut _ _ => some 0x12
  | .engineServiceIn _ _ => some 0x12
  | .restart _ => some 0x13
  | .unknownVerb _ code => some code.toNat
  | _ => none

/-- The head of an order command; the other commands are no orders. -/
def Instr.order? : Instr → Option Order
  | .nop o | .bind o _ _ _ | .attach o _ _ _ | .release o | .handover o | .check o | .splice o _
  | .unsplice o | .stage o _ _ | .commit o | .cancel o | .readChannel o _ | .nextEvent o
  | .clearEvents o _ | .clearLineEvents o _ | .selectItem o _ _ | .readItem o | .writeItem o _
  | .engineServiceOut o _ | .engineServiceIn o _ | .restart o | .unknownVerb o _ => some o
  | _ => none

/-- The item codes of STAGE (R138). -/
def Item.code : Item → Nat
  | .timeslot => 0
  | .gainToFixed => 1
  | .gainToRadio => 2
  | .quietThreshold => 3
  | .mode => 4
  | .modeSet => 5
  | .align => 6
  | .dtx => 7

/-- The item of a 3-bit code (R138). -/
def Item.ofCode (n : Nat) : Item :=
  match n with
  | 0 => .timeslot
  | 1 => .gainToFixed
  | 2 => .gainToRadio
  | 3 => .quietThreshold
  | 4 => .mode
  | 5 => .modeSet
  | 6 => .align
  | _ => .dtx

/-- The space numbers (R184). -/
def Space.code : Space → Nat
  | .profile => 0
  | .pattern => 1
  | .line => 2
  | .device => 3

/-- The space of a 2-bit number (R184). -/
def Space.ofCode (n : Nat) : Space :=
  match n with
  | 0 => .profile
  | 1 => .pattern
  | 2 => .line
  | _ => .device

namespace Wire

/-- `width` bits of a word from bit `low` up, as a number. -/
def field (word low width : Nat) : Nat := word / 2 ^ low % 2 ^ width

/-- The command of a verb code, an order head and a 24-bit argument; bits not named for a verb are ignored (R182). -/
def command (o : Order) (verb arg : Nat) : Instr :=
  match verb with
  | 0x00 => .nop o
  | 0x01 => .bind o (Fin.ofNat 128 (field arg 17 7)) (Fin.ofNat 8 (field arg 14 3)) (BitVec.ofNat 14 arg)
  | 0x02 => .attach o (BitVec.ofNat 3 (field arg 21 3)) (BitVec.ofNat 2 (field arg 19 2)) (BitVec.ofNat 14 arg)
  | 0x03 => .release o
  | 0x04 => .handover o
  | 0x05 => .check o
  | 0x06 => .splice o (Fin.ofNat 128 arg)
  | 0x07 => .unsplice o
  | 0x08 => .stage o (Item.ofCode (field arg 16 3)) (BitVec.ofNat 16 arg)
  | 0x09 => .commit o
  | 0x0A => .cancel o
  | 0x0B => .readChannel o (Fin.ofNat 16 arg)
  | 0x0C => .nextEvent o
  | 0x0D => .clearEvents o (BitVec.ofNat 9 arg)
  | 0x0E => .clearLineEvents o (BitVec.ofNat 5 arg)
  | 0x0F => .selectItem o (Space.ofCode (field arg 8 2)) (Fin.ofNat 128 arg)
  | 0x10 => .readItem o
  | 0x11 => .writeItem o (BitVec.ofNat 16 arg)
  | 0x12 =>
    if field arg 2 1 = 1 then .engineServiceIn o (Fin.ofNat 4 arg) else .engineServiceOut o (Fin.ofNat 4 arg)
  | 0x13 => .restart o
  | code => .unknownVerb o (BitVec.ofNat 5 code)

/-- The 24-bit argument of an order command, named fields in their places and every other bit 0 (R182). -/
def argument : Instr → Nat
  | .bind _ timeslot profile tag => timeslot.val * 2 ^ 17 + profile.val * 2 ^ 14 + tag.toNat
  | .attach _ modeSet requested tag => modeSet.toNat * 2 ^ 21 + requested.toNat * 2 ^ 19 + tag.toNat
  | .splice _ partner => partner.val
  | .stage _ item value => item.code * 2 ^ 16 + value.toNat
  | .readChannel _ aspect => aspect.val
  | .clearEvents _ kinds => kinds.toNat
  | .clearLineEvents _ kinds => kinds.toNat
  | .selectItem _ space index => space.code * 2 ^ 8 + index.val
  | .writeItem _ value => value.toNat
  | .engineServiceOut _ engine => engine.val
  | .engineServiceIn _ engine => 4 + engine.val
  | _ => 0

end Wire

/-- The command that the six octets of an order spell on a line: octet 0 node and verb, octet 1 bit 7 and channel,
octets 2–4 the argument, octet 5 the CRC-8 of octets 0–4 (R178, R179). A wrong check is the command
ORDER_CRC_MISMATCH. Any other number of octets is no whole order. -/
def decodeOrder (line : Line) : List Octet → Option Instr
  | [o0, o1, o2, o3, o4, o5] =>
    if Checks.crc8 [o0, o1, o2, o3, o4] = o5 then
      let o : Order :=
        { line, node := BitVec.ofNat 3 (o0.toNat / 32), bit7 := o1.getLsbD 7, channel := Fin.ofNat 128 o1.toNat }
      some (Wire.command o (o0.toNat % 32) (o2.toNat * 65536 + o3.toNat * 256 + o4.toNat))
    else some (.orderCrcMismatch line)
  | _ => none

/-- The six octets of an order command, its check last (R178, R179). -/
def encodeOrder (i : Instr) : Option (List Octet) :=
  match i.order?, i.verb with
  | some o, some verb =>
    let arg := Wire.argument i
    let body : List Octet :=
      [BitVec.ofNat 8 (o.node.toNat * 32 + verb), BitVec.ofNat 8 (o.bit7.toNat * 128 + o.channel.val),
       BitVec.ofNat 8 (arg / 65536), BitVec.ofNat 8 (arg / 256), BitVec.ofNat 8 arg]
    some (body ++ [Checks.crc8 body])
  | _, _ => none

/-- The command that a word spells by the table's bits: the table gives no row any bits. -/
def decodeTableWord (nbits w : Nat) : Option Instr :=
  match nbits, w with
  | _, _ => none

end Sys2Proof
end

