-- ==== Sys2Proof/Machine/State.lean ====
section
/-! DEFINITION. The state of the part, as plain data, and its value right after power-on. -/

namespace Sys2Proof.Machine

/-- The part raises no fault: no rule names an event that stops it, so no constructor exists. -/
inductive Fault where
  deriving DecidableEq, Repr

/-- Why a command would have no meaning. -/
inductive Refusal where
  /-- Raised by `exec` alone, for a command that has no meaning yet. Safe: nothing can be proved of a step that is
  refused. No arm of `exec` raises it. -/
  | notModelled (mnemonic : String)
  deriving DecidableEq, Repr

/-! ### Channel contexts (01_channel_contexts.md) -/

/-- The lifecycle states (R1). -/
inductive Lifecycle where
  | free
  | halfF
  | halfR
  | active
  deriving DecidableEq, Repr

/-- The activity states (R6). -/
inductive Activity where
  | talk
  | quiet
  deriving DecidableEq, Repr

/-- The results of a continuity record (R174). -/
inductive CheckResult where
  | none
  | running
  | passed
  | noReturn
  | aborted
  deriving DecidableEq, Repr

/-- The continuity record of a context (R2). -/
structure Continuity where
  result : CheckResult
  delay  : Nat
  deriving DecidableEq, Repr

/-- The channel event kinds, in the order of their bits (R189). -/
inductive Kind where
  | peerAttached
  | peerReleased
  | halfExpired
  | activityChanged
  | streamWarning
  | commitApplied
  | commitLost
  | continuityDone
  | spliceEnded
  deriving DecidableEq, Repr

/-- The causes of STREAM_WARNING, in the order of their bits (R189). -/
inductive Cause where
  | muted
  | decodeMiss
  | encodeMiss
  | overflow
  | resync
  deriving DecidableEq, Repr

/-- The line event kinds, in the order of their bits (R189). -/
inductive LineKind where
  | watchdogExpired
  | partnerSilent
  | restartRequested
  | restartExpired
  | queueOverflow
  deriving DecidableEq, Repr

/-- The event record of a channel for one line: bit k of `kinds` is kind k, bit k of `causes` cause k (R10, R189). -/
structure EventRecord where
  kinds  : BitVec 9
  causes : BitVec 5
  deriving DecidableEq, Repr

/-- The eleven counters of a context, in the order of their aspects 1..11 (R8). -/
inductive Counter where
  | framesAccepted
  | framesLate
  | framesDuplicate
  | framesBad
  | overflowDrops
  | blocksConcealed
  | resyncs
  | decodeMisses
  | encodeMisses
  | framesSent
  | transmitDrops
  deriving DecidableEq, Repr

/-- The fixed half (R3). `timeslot` is the binding; `feed` is the timeslot whose octet of the current sample time is the
channel's, which follows a move of a half state with the next sample time only (R54, R55). -/
structure FixedHalf where
  timeslot       : Slot
  feed           : Slot
  profile        : Fin 8
  cap            : Mode
  primingDepth   : Nat
  hangover       : Nat
  quietInterval  : Nat
  lossToMute     : Nat
  gainToFixed    : Nat
  gainToRadio    : Nat
  quietThreshold : Nat
  deriving DecidableEq, Repr

/-- The radio half, with the derived active mode (R4, R5). -/
structure RadioHalf where
  modeSet   : BitVec 3
  requested : Mode
  dtx       : Bool
  offset    : Int
  active    : Mode
  deriving DecidableEq, Repr

/-- A SPEECH record as the Radio Frame Port hands it over (R72, R82). -/
structure SpeechFrame where
  sequence  : BitVec 8
  mode      : Mode
  predictor : Int
  stepIndex : Nat
  payload   : List Octet
  deriving DecidableEq, Repr

/-- A frame of a Receive Queue (R82). -/
inductive Frame where
  | speech (f : SpeechFrame)
  | quiet (sequence : BitVec 8) (level : Octet)
  deriving DecidableEq, Repr

/-- Which source offers an ENCODE job (R124). -/
inductive EncodeSource where
  | boundary
  | translation
  deriving DecidableEq, Repr

/-- What an ENCODE is fixed to at its boundary or instant; its start state is read when it is offered (R116, R117,
R157, R160). -/
structure EncodeWork where
  source   : EncodeSource
  mode     : Mode
  samples  : Block
  sequence : BitVec 8
  deriving DecidableEq, Repr

/-- What a job is to compute (R124). -/
inductive Work where
  | encode (e : EncodeWork) (start : Speech.Coder)
  | decode (f : SpeechFrame)
  deriving DecidableEq, Repr

/-- A job of the Codec Engine Pool; the start deadline is a point in time, the start of one sample time (R124). -/
structure Job where
  channel  : Chan
  deadline : Nat
  work     : Work
  discard  : Bool
  deriving DecidableEq, Repr

/-- A formed record, as its octets with the CRC-16 last (R65). -/
abbrev Record := List Octet

/-- An item held for a channel behind an earlier ENCODE of it (R117, R160). -/
inductive Held where
  | record (r : Record)
  | job (e : EncodeWork) (deadline : Nat)
  deriving DecidableEq, Repr

/-- The states of a decode window with what each holds (R91, R92, R154). A DECODING window's job is held while an
abandoned DECODE of the channel runs (R96). -/
inductive WindowState where
  | waiting
  | decoding (f : SpeechFrame) (held : Bool)
  | ready (f : SpeechFrame) (block : Block)
  | quietNoted (level : Octet)
  | closed
  | direct (f : SpeechFrame)
  deriving DecidableEq, Repr

/-- The decode window of the coming instant, with its start deadline (R91). -/
structure Window where
  deadline : Nat
  state    : WindowState
  deriving DecidableEq, Repr

/-- The stream state with what exists in it only: the reference sequence and the instants count in PRIMING, the
expected sequence and the decode window in PLAYING and COMFORT (R81). -/
inductive Uplink where
  | priming (reference : Option (BitVec 8)) (count : Nat)
  | running (comfort : Bool) (expected : BitVec 8) (window : Window)
  deriving DecidableEq, Repr

/-- The downlink stream fields (R6, R109). `boundary` is the time of the next downlink boundary, absent while spliced.
`collecting` says whether the octet of the current sample time goes to the ring (R55). -/
structure Downlink where
  phase      : Nat
  boundary   : Option Nat
  ring       : Block
  collecting : Bool
  entryClock : Nat
  predictor  : Int
  stepIndex  : Nat
  sequence   : BitVec 8
  activity   : Activity
  lowRun     : Nat
  weakOnset  : Bool
  quietCount : Nat
  held       : List Held
  deriving DecidableEq, Repr

/-- The uplink stream fields (R7). The next block stands in the READY window. -/
structure UplinkFields where
  phase        : Nat
  instant      : Nat
  queue        : List Frame
  stream       : Uplink
  lastGood     : Block
  lossRun      : Nat
  comfortLevel : Nat
  noise        : BitVec 16
  deriving DecidableEq, Repr

/-- A continuity check that is RUNNING: its start sample time and the comparison window, oldest first (R168, R170). -/
structure Check where
  start  : Nat
  window : List Octet
  deriving DecidableEq, Repr

/-- A running timer: the sample time at whose start it expires, and the core clock at which it was started, since a sample
time that begins at that very moment is not counted (R25, R193, R196). -/
structure Timer where
  expiry : Nat
  since  : Nat
  deriving DecidableEq, Repr

/-- What a HALF_F context holds (R1). -/
structure HalfF where
  tag   : BitVec 14
  fixed : FixedHalf
  timer : Option Timer
  check : Option Check
  deriving DecidableEq, Repr

/-- What a HALF_R context holds (R1). -/
structure HalfR where
  tag   : BitVec 14
  radio : RadioHalf
  timer : Option Timer
  deriving DecidableEq, Repr

/-- What an ACTIVE context holds (R1), with the reported activity copies (R10). -/
structure Active where
  tag     : BitVec 14
  fixed   : FixedHalf
  radio   : RadioHalf
  partner : Option Chan
  copyF   : Activity
  copyR   : Activity
  down    : Downlink
  up      : UplinkFields
  deriving DecidableEq, Repr

/-- The lifecycle state with the parts that are present in it (R1). -/
inductive Life where
  | free
  | halfF (h : HalfF)
  | halfR (h : HalfR)
  | active (a : Active)
  deriving DecidableEq, Repr

/-- The context of one channel: what depends on the lifecycle, and what is kept through every change of it
(R2, R8, R10). -/
structure Channel where
  life       : Life
  continuity : Continuity
  counters   : Vector (BitVec 16) 11
  eventsF    : EventRecord
  eventsR    : EventRecord
  deriving DecidableEq, Repr

/-! ### Highway Interface (03_highway_interface.md) -/

/-- A timeslot map entry (R51). -/
inductive Entry where
  | free
  | bound (c : Chan)
  | reserved (c : Chan)
  deriving DecidableEq, Repr

/-- The outgoing source of a timeslot, with the octets it has still to send (R60). -/
inductive Source where
  | idle
  | block (octets : List Octet)
  | pattern (octets : List Octet)
  deriving DecidableEq, Repr

/-- One timeslot: its map entry, its outgoing source, and the octet it sends in the current sample time (R48, R51,
R60). -/
structure Timeslot where
  entry  : Entry
  source : Source
  out    : Octet
  deriving DecidableEq, Repr

/-! ### Codec Engine Pool (07_codec_engine_pool.md) -/

/-- An engine, with the job it runs and the core clock at which that job ends (R123, R129). -/
inductive Engine where
  | free
  | busy (j : Job) (ends : Nat)
  | draining (j : Job) (ends : Nat)
  | out
  deriving DecidableEq, Repr

/-! ### Profile Table and Line Units (11_control_lines.md) -/

/-- The check states of a profile (R186). -/
inductive ProfileState where
  | unchecked
  | valid
  | invalid
  deriving DecidableEq, Repr

/-- A profile of the Profile Table (R185). -/
structure Profile where
  cap            : Nat
  primingDepth   : Nat
  quietThreshold : Nat
  hangover       : Nat
  quietCode      : Nat
  lossToMute     : Nat
  gainToFixed    : Nat
  gainToRadio    : Nat
  checkValue     : Nat
  state          : ProfileState
  deriving DecidableEq, Repr

/-- The result codes of a reply (R181). -/
inductive Result where
  | done
  | clamped
  | wrongState
  | notOwner
  | busy
  | taken
  | badArgument
  | profileUnusable
  | tagMismatch
  | wrongRow
  | pending
  deriving DecidableEq, Repr

/-- A reply, field by field; its octet 5 is computed from the others (R178). -/
structure Reply where
  node          : BitVec 3
  previousError : Bool
  result        : Result
  attention     : Bool
  channel       : BitVec 7
  data          : BitVec 24
  deriving DecidableEq, Repr

/-- A staging row (R137). -/
structure Row where
  latched : Option Chan
  slots   : List (Item × BitVec 16)
  pending : Bool
  deriving DecidableEq, Repr

/-- The settings of a line (R187). -/
structure Settings where
  watchdogLimit  : Nat
  releaseAction  : Bool
  halfWaitLimit  : Nat
  eventMask      : BitVec 14
  deriving DecidableEq, Repr

/-- A Line Unit, with its line's staging row (R137, 11_control_lines.md). `expiry` is the watchdog's, `request` the
lapse of a pending restart request, `reply` what the latest exchange put on reply-out. -/
structure LineUnit where
  node       : BitVec 3
  orderError : Bool
  space      : Space
  index      : Nat
  silent     : Bool
  expiry     : Option Timer
  settings   : Settings
  events     : List Chan
  lineEvents : BitVec 5
  request    : Option Timer
  reply      : Option Reply
  row        : Row
  deriving DecidableEq, Repr

/-- The restart causes, in the order of their codes (R188). -/
inductive RestartCause where
  | powerOn
  | resetPin
  | joint
  | solo
  deriving DecidableEq, Repr

/-- Whether the part runs: RESET low, in the start-up wait with the frame syncs counted, or READY (R50, R199). -/
inductive Run where
  | resetLow
  | waiting (syncs : Nat)
  | ready
  deriving DecidableEq, Repr

/-- The whole part. `time` counts the sample times begun, `clock` the core clocks, `syncClock` the core clock at which
the current sample time began; `begun` counts records begun on the receive path and not yet arrived; `restartDue` is a
restart that waits for the end of the exchange on the line named. -/
structure State where
  run         : Run
  startKind   : RestartCause
  cause       : RestartCause
  cycle       : Nat
  time        : Nat
  clock       : Nat
  syncClock   : Nat
  channels    : Vector Channel 128
  timeslots   : Vector Timeslot 128
  lineF       : LineUnit
  lineR       : LineUnit
  profiles    : Vector Profile 8
  pattern     : Vector Octet 16
  mask        : BitVec 16
  engines     : Vector Engine 4
  jobs        : List Job
  transmit    : List Record
  sending     : Option (Record × Nat)
  unreadable  : BitVec 16
  stray       : BitVec 16
  begun       : Nat
  restartDue  : Option (Line × RestartCause)
  pending     : List Instr
  deriving DecidableEq, Repr

/-! ### Reset values -/

/-- No event recorded (R11). -/
def EventRecord.reset : EventRecord := { kinds := 0, causes := 0 }

/-- A FREE context with its reset values (R2, R11). -/
def Channel.reset : Channel :=
  { life := .free
    continuity := { result := .none, delay := 0 }
    counters := Vector.replicate 11 0
    eventsF := .reset
    eventsR := .reset }

/-- A FREE timeslot (R50, R51). -/
def Timeslot.reset : Timeslot := { entry := .free, source := .idle, out := 0 }

/-- The reset values of a profile (R185). -/
def Profile.reset : Profile :=
  { cap := 3, primingDepth := 2, quietThreshold := 64, hangover := 5, quietCode := 1, lossToMute := 4
    gainToFixed := 256, gainToRadio := 256, checkValue := 0, state := .unchecked }

/-- An EMPTY row (R137). -/
def Row.empty : Row := { latched := none, slots := [], pending := false }

/-- The reset values of a line's settings (R187). -/
def Settings.reset : Settings :=
  { watchdogLimit := 0, releaseAction := false, halfWaitLimit := 30, eventMask := 0x3FFF }

/-- A Line Unit at its power-on values; the node address is latched at READY (R177, R180, R184, R187, R190, R195).
The node address before READY is a DESIGN CHOICE no port can show (unsafe, notes/assumptions/4.md). -/
def LineUnit.reset : LineUnit :=
  { node := 0, orderError := false, space := .profile, index := 0, silent := false, expiry := none
    settings := .reset, events := [], lineEvents := 0, request := none, reply := none, row := .empty }

/-- The reset test pattern (R166). -/
def patternReset : Vector Octet 16 :=
  #v[0x2D, 0x71, 0x0A, 0x5C, 0x33, 0x66, 0x18, 0x4B, 0x55, 0x0F, 0x62, 0x27, 0x3E, 0x41, 0x1C, 0x7A]

/-- The part right after power-on: every block at its reset values and the start-up wait begun with no frame sync
counted (R11, R50, R199). The cycle and the restart cause before READY are a DESIGN CHOICE no port can show
(unsafe, notes/assumptions/4.md). -/
def State.reset : State :=
  { run := .waiting 0
    startKind := .powerOn
    cause := .powerOn
    cycle := 0
    time := 0
    clock := 0
    syncClock := 0
    channels := Vector.replicate 128 Channel.reset
    timeslots := Vector.replicate 128 Timeslot.reset
    lineF := .reset
    lineR := .reset
    profiles := Vector.replicate 8 Profile.reset
    pattern := patternReset
    mask := 0xFFFF
    engines := Vector.replicate 4 Engine.free
    jobs := []
    transmit := []
    sending := none
    unreadable := 0
    stray := 0
    begun := 0
    restartDue := none
    pending := [] }

end Sys2Proof.Machine
end

