-- ==== Sys2Proof/Machine/Ops.lean ====
section
/-! DEFINITION. The named operations every block shares: reaching a channel, a timeslot or a Line Unit, the parts of a
context, the active mode, the counters, and points in time. -/

namespace Sys2Proof.Machine

/-! ### Reaching the parts of the state -/

/-- The context of a channel. -/
def State.chan (s : State) (c : Chan) : Channel := s.channels[c.val]

/-- The state with a channel's context replaced. -/
def State.setChan (s : State) (c : Chan) (ch : Channel) : State :=
  { s with channels := s.channels.set c.val ch }

/-- The state with a channel's context changed. -/
def State.mapChan (s : State) (c : Chan) (f : Channel → Channel) : State := s.setChan c (f (s.chan c))

/-- The lifecycle state of a channel with the parts present in it. -/
def State.life (s : State) (c : Chan) : Life := (s.chan c).life

/-- The state with a channel's lifecycle replaced; what the context keeps through every change is kept. -/
def State.setLife (s : State) (c : Chan) (l : Life) : State :=
  s.mapChan c fun ch => { ch with life := l }

/-- The state with the ACTIVE parts of a channel changed; nothing changes on a channel that is not ACTIVE. -/
def State.mapActive (s : State) (c : Chan) (f : Active → Active) : State :=
  match s.life c with
  | .active a => s.setLife c (.active (f a))
  | _ => s

/-- One timeslot. -/
def State.slot (s : State) (t : Slot) : Timeslot := s.timeslots[t.val]

/-- The state with a timeslot replaced. -/
def State.setSlot (s : State) (t : Slot) (ts : Timeslot) : State :=
  { s with timeslots := s.timeslots.set t.val ts }

/-- The state with a timeslot changed. -/
def State.mapSlot (s : State) (t : Slot) (f : Timeslot → Timeslot) : State := s.setSlot t (f (s.slot t))

/-- The Line Unit of a line. -/
def State.line (s : State) : Line → LineUnit
  | .F => s.lineF
  | .R => s.lineR

/-- The state with a Line Unit replaced. -/
def State.setLine (s : State) (l : Line) (u : LineUnit) : State :=
  match l with
  | .F => { s with lineF := u }
  | .R => { s with lineR := u }

/-- The state with a Line Unit changed. -/
def State.mapLine (s : State) (l : Line) (f : LineUnit → LineUnit) : State := s.setLine l (f (s.line l))

/-- The line opposite (00_scope.md section 4.5). -/
def otherLine : Line → Line
  | .F => .R
  | .R => .F

/-- Whether the part is READY (R50, R199). -/
def State.isReady (s : State) : Bool := decide (s.run = .ready)

/-! ### The parts of a context -/

/-- The lifecycle state of a context (R1). -/
def Life.lifecycle : Life → Lifecycle
  | .free => .free
  | .halfF _ => .halfF
  | .halfR _ => .halfR
  | .active _ => .active

/-- The tag, present outside FREE (R1). -/
def Life.tag? : Life → Option (BitVec 14)
  | .free => none
  | .halfF h => some h.tag
  | .halfR h => some h.tag
  | .active a => some a.tag

/-- The fixed half, present in HALF_F and ACTIVE (R3). -/
def Life.fixed? : Life → Option FixedHalf
  | .halfF h => some h.fixed
  | .active a => some a.fixed
  | _ => none

/-- The radio half, present in HALF_R and ACTIVE (R4). -/
def Life.radio? : Life → Option RadioHalf
  | .halfR h => some h.radio
  | .active a => some a.radio
  | _ => none

/-- The half-wait timer, where one is present (R25). -/
def Life.timer? : Life → Option Timer
  | .halfF h => h.timer
  | .halfR h => h.timer
  | _ => none

/-- The splice partner, present only while ACTIVE and spliced (R151). -/
def Life.partner? : Life → Option Chan
  | .active a => a.partner
  | _ => none

/-- The continuity check RUNNING on a channel, if any (R168). -/
def Life.check? : Life → Option Check
  | .halfF h => h.check
  | _ => none

/-- Whether the channel holds a line's half (R137). -/
def Life.holds (l : Life) : Line → Bool
  | .F => l.fixed?.isSome
  | .R => l.radio?.isSome

/-- A change of the fixed half, where it is present. -/
def Life.mapFixed (f : FixedHalf → FixedHalf) : Life → Life
  | .halfF h => .halfF { h with fixed := f h.fixed }
  | .active a => .active { a with fixed := f a.fixed }
  | l => l

/-- A change of the radio half, where it is present. -/
def Life.mapRadio (f : RadioHalf → RadioHalf) : Life → Life
  | .halfR h => .halfR { h with radio := f h.radio }
  | .active a => .active { a with radio := f a.radio }
  | l => l

/-- The radio half with its active mode derived afresh under a cap (R5). -/
def RadioHalf.derived (r : RadioHalf) (cap : Mode) : RadioHalf :=
  { r with active := Mode.derive r.modeSet r.requested cap }

/-- The active mode derived afresh: the fixed half's cap in ACTIVE, mode 32 in HALF_R (R5). -/
def Life.rederived : Life → Life
  | .halfR h => .halfR { h with radio := h.radio.derived .m32 }
  | .active a => .active { a with radio := a.radio.derived a.fixed.cap }
  | l => l

/-- The fixed half that BIND makes from a profile (R3, R14): the two gains and T start from the profile, the Q code
stands for 4, 8, 16 or 32 frames. -/
def Profile.fixedHalf (p : Profile) (index : Fin 8) (timeslot : Slot) : FixedHalf :=
  { timeslot, feed := timeslot, profile := index
    cap := (Mode.ofCode p.cap).getD .m16
    primingDepth := p.primingDepth
    hangover := p.hangover
    quietInterval := 4 * 2 ^ p.quietCode
    lossToMute := p.lossToMute
    gainToFixed := p.gainToFixed
    gainToRadio := p.gainToRadio
    quietThreshold := p.quietThreshold }

/-! ### Counters -/

/-- The place of a counter: its aspect less one (R8). -/
def Counter.index : Counter → Fin 11
  | .framesAccepted => 0
  | .framesLate => 1
  | .framesDuplicate => 2
  | .framesBad => 3
  | .overflowDrops => 4
  | .blocksConcealed => 5
  | .resyncs => 6
  | .decodeMisses => 7
  | .encodeMisses => 8
  | .framesSent => 9
  | .transmitDrops => 10

/-- An increment that stops at 65535 (R8, R73). -/
def saturatingSucc (v : BitVec 16) : BitVec 16 := if v = 0xFFFF#16 then v else v + 1

/-- The value of a counter. -/
def Channel.counter (ch : Channel) (k : Counter) : BitVec 16 := ch.counters[k.index.val]

/-- A counter of the context incremented (R8). -/
def Channel.count (ch : Channel) (k : Counter) : Channel :=
  { ch with counters := ch.counters.set k.index.val (saturatingSucc (ch.counter k)) }

/-- A counter of a channel incremented (R8). -/
def State.count (s : State) (c : Chan) (k : Counter) : State := s.mapChan c (·.count k)

/-- A context leaving FREE: counters zeroed, continuity record NONE (R9, R14, R17). -/
def Channel.fresh (ch : Channel) (l : Life) : Channel :=
  { ch with life := l, counters := Vector.replicate 11 0, continuity := { result := .none, delay := 0 } }

/-! ### Points in time -/

/-- The first sample time after the current one whose cycle value is `phase` (R12, R49, R57). -/
def State.nextAt (s : State) (phase : Nat) : Nat := s.time + ((phase + 159 - s.cycle) % 160 + 1)

/-- Whether a point that falls at the start of sample time `t` has come. -/
def State.reached (s : State) (t : Nat) : Bool := decide (t ≤ s.time)

/-- Whether a point that falls at the start of sample time `t` lies in the past: its sample time is over, or core
clocks have passed since it began (R131). -/
def State.past (s : State) (t : Nat) : Bool :=
  decide (t < s.time) || (decide (t = s.time) && decide (s.syncClock < s.clock))

/-- An optional point that has come. -/
def State.reached? (s : State) (t : Option Nat) : Bool := t.any s.reached

/-- Whether an optional timer has come to its expiry. -/
def State.expired (s : State) (t : Option Timer) : Bool := t.any fun t => s.reached t.expiry

/-- A timer started now that expires at the start of the `n`-th sample time that begins afterwards. -/
def State.timer (s : State) (n : Nat) : Timer := { expiry := s.time + n, since := s.clock }

/-- A timer at the frame sync of core clock `moment`: the sample time that begins at the moment the timer was started is not
counted, so the expiry falls one later (R25, R193). -/
def Timer.onSync (moment : Nat) (t : Timer) : Timer :=
  if t.since = moment then { t with expiry := t.expiry + 1 } else t

/-- The half-wait timer a line starts now: N = limit × 8000 sample times; a limit of 0 starts none (R25). -/
def State.halfWaitTimer (s : State) (l : Line) : Option Timer :=
  let limit := (s.line l).settings.halfWaitLimit
  if limit = 0 then none else some (s.timer (limit * Config.samplesPerSecond))

/-- The watchdog expiry set now: N = limit × 800 sample times; a limit of 0 holds none (R193). -/
def State.watchdogFrom (s : State) (limit : Nat) : Option Timer :=
  if limit = 0 then none else some (s.timer (limit * Config.samplesPerWatchdogUnit))

/-- Whether a held item is a job whose start deadline has come (R117, R160). -/
def State.heldDue (s : State) : Held → Bool
  | .record _ => false
  | .job _ deadline => s.reached deadline

/-- Whether a decode window's start deadline has come with no frame taken, or with its job still held (R94, R96). A
queued job is found in the Job Queue. -/
def State.windowDue (s : State) : Uplink → Bool
  | .priming _ _ => false
  | .running _ _ w =>
    match w.state with
    | .waiting => s.reached w.deadline
    | .decoding _ held => held && s.reached w.deadline
    | _ => false

/-- Whether the 4000th octet after the start of a check has been compared without a match (R171). -/
def State.checkTimedOut (s : State) (k : Check) : Bool := decide (k.start + Config.checkTimeout < s.time)

/-- Whether some point of a channel has come and has not been taken. -/
def State.channelDue (s : State) (l : Life) : Bool :=
  match l with
  | .free => false
  | .halfF h => s.expired h.timer || h.check.any s.checkTimedOut
  | .halfR h => s.expired h.timer
  | .active a =>
    (decide (a.partner = none) && s.reached? a.down.boundary) || s.reached a.up.instant || s.windowDue a.up.stream
      || a.down.held.any s.heldDue

/-- Whether some point of a line has come and has not been taken. -/
def State.lineDue (s : State) (u : LineUnit) : Bool :=
  (!u.silent && s.expired u.expiry) || s.expired u.request

/-- Whether some point that falls at the start of the current sample time has not been taken yet. -/
def State.outstanding (s : State) : Bool :=
  s.channels.toList.any (fun ch => s.channelDue ch.life) || s.jobs.any (fun j => s.reached j.deadline)
    || s.lineDue s.lineF || s.lineDue s.lineR

/-- The core clock at which an engine's job ends (R129). -/
def Engine.ends? : Engine → Option Nat
  | .busy _ ends => some ends
  | .draining _ ends => some ends
  | _ => none

/-- Whether no running job and no record being sent ends before core clock `t`. -/
def State.nothingEndsBefore (s : State) (t : Nat) : Bool :=
  s.engines.toList.all (fun e => e.ends?.all fun ends => decide (t ≤ ends))
    && s.sending.all (fun r => decide (t ≤ r.2))

/-- Whether time can pass to core clock `t`: at once when it is now, else only with every point of the current sample
time taken and nothing ending earlier (DESIGN CHOICE, safe: notes/assumptions/3.md). -/
def State.mayAdvance (s : State) (t : Nat) : Bool :=
  decide (t = s.clock) || (!s.outstanding && s.nothingEndsBefore t)

/-- One core clock on an empty queue: the count advances where time may pass, else nothing happens (DESIGN CHOICE, safe:
notes/assumptions/1.md). -/
def State.tick (s : State) : State := if s.mayAdvance (s.clock + 1) then { s with clock := s.clock + 1 } else s

/-- The command at the front of the queue, and the state with the rest of the queue. -/
def State.front (s : State) : Option (Instr × State) :=
  match s.pending with
  | [] => none
  | c :: rest => some (c, { s with pending := rest })

/-- A command put at the front of the queue. -/
def State.enqueueFront (s : State) (c : Instr) : State := { s with pending := c :: s.pending }

end Sys2Proof.Machine
end

