-- ==== Sys2Proof/Machine/Flags.lean ====
section
/-! DEFINITION. Events and attention (R10, R189, R190, R192). Recording changes a channel's record for a line; the
line's event list is brought up to its records once, at the end of each command that records or clears. -/

namespace Sys2Proof.Machine

/-- The bit of a channel event kind (R189). -/
def Kind.bit : Kind → Nat
  | .peerAttached => 0
  | .peerReleased => 1
  | .halfExpired => 2
  | .activityChanged => 3
  | .streamWarning => 4
  | .commitApplied => 5
  | .commitLost => 6
  | .continuityDone => 7
  | .spliceEnded => 8

/-- The bit of a STREAM_WARNING cause (R189). -/
def Cause.bit : Cause → Nat
  | .muted => 0
  | .decodeMiss => 1
  | .encodeMiss => 2
  | .overflow => 3
  | .resync => 4

/-- The bit of a line event kind (R189). -/
def LineKind.bit : LineKind → Nat
  | .watchdogExpired => 0
  | .partnerSilent => 1
  | .restartRequested => 2
  | .restartExpired => 3
  | .queueOverflow => 4

/-- The event record of a channel for a line (R10). -/
def Channel.events (ch : Channel) : Line → EventRecord
  | .F => ch.eventsF
  | .R => ch.eventsR

/-- The context with its event record for a line replaced. -/
def Channel.setEvents (ch : Channel) (l : Line) (e : EventRecord) : Channel :=
  match l with
  | .F => { ch with eventsF := e }
  | .R => { ch with eventsR := e }

/-- A kind, and causes with it, added to a record; what is present stays present once (R10). -/
def EventRecord.add (e : EventRecord) (k : Kind) (causes : BitVec 5) : EventRecord :=
  { kinds := e.kinds ||| BitVec.twoPow 9 k.bit, causes := e.causes ||| causes }

/-- Kinds removed from a record; removing STREAM_WARNING removes all its causes (R192). -/
def EventRecord.clear (e : EventRecord) (kinds : BitVec 9) : EventRecord :=
  { kinds := e.kinds &&& ~~~kinds, causes := if kinds.getLsbD Kind.streamWarning.bit then 0 else e.causes }

/-- Whether a line's event mask records a channel event kind (R187, R189). -/
def LineUnit.allows (u : LineUnit) (k : Kind) : Bool := u.settings.eventMask.getLsbD k.bit

/-- Whether a line's event mask records a line event kind (R187, R189). -/
def LineUnit.allowsLine (u : LineUnit) (k : LineKind) : Bool := u.settings.eventMask.getLsbD (9 + k.bit)

/-- A channel event recorded on a context for a line, with causes; a masked kind records neither (R189). -/
def Channel.record (ch : Channel) (u : LineUnit) (l : Line) (k : Kind) (causes : BitVec 5) : Channel :=
  if u.allows k then ch.setEvents l ((ch.events l).add k causes) else ch

/-- A channel event recorded for a line (R10, R189). -/
def State.record (s : State) (c : Chan) (l : Line) (k : Kind) : State :=
  s.mapChan c fun ch => ch.record (s.line l) l k 0

/-- A STREAM_WARNING with its cause, recorded for both lines (R104, R119). -/
def State.warn (s : State) (c : Chan) (cause : Cause) : State :=
  s.mapChan c fun ch =>
    (ch.record s.lineF .F .streamWarning (BitVec.twoPow 5 cause.bit)).record s.lineR .R .streamWarning
      (BitVec.twoPow 5 cause.bit)

/-- A line event recorded in a line's event set (R189). -/
def State.recordLine (s : State) (l : Line) (k : LineKind) : State :=
  s.mapLine l fun u => if u.allowsLine k then { u with lineEvents := u.lineEvents ||| BitVec.twoPow 5 k.bit } else u

/-- Whether a channel's record for a line holds a kind (R190). -/
def State.flagged (s : State) (l : Line) (c : Chan) : Bool := decide (((s.chan c).events l).kinds ≠ 0)

/-- A line's event list brought up to the records: a channel left with no kind leaves, and channels that gained one join
the tail in ascending order of channel number (R190). -/
def State.eventList (s : State) (l : Line) : List Chan :=
  let old := (s.line l).events
  old.filter (s.flagged l) ++ (List.finRange 128).filter fun c => s.flagged l c && !old.contains c

/-- Both event lists brought up to the records (R190). -/
def State.settle (s : State) : State :=
  { s with
    lineF := { s.lineF with events := s.eventList .F }
    lineR := { s.lineR with events := s.eventList .R } }

/-- The attention output of a line, asserted while its event list or its event set is not empty, released before READY
(R190). -/
def State.attention (s : State) (l : Line) : Bool :=
  s.isReady && (!(s.line l).events.isEmpty || decide ((s.line l).lineEvents ≠ 0))

end Sys2Proof.Machine
end

