-- ==== Sys2Proof/Machine/Records.lean ====
section
/-! DEFINITION. Radio frame records: their layout (R65), the end of a received record (R67), the receive checks (R69,
R71), forming records (R74), the Transmit Queue and the transmitter (R76 to R78). -/

namespace Sys2Proof.Machine

/-! ### Forming records -/

/-- A record from its octets before the check (R65, R66). -/
def sealRecord (body : List Octet) : Record := body ++ Checks.crc16Octets body

/-- A SPEECH record: kind 1, mode code, channel, sequence, start predictor, start step index, payload (R65). -/
def speechRecord (c : Chan) (sequence : BitVec 8) (m : Mode) (start : Speech.Coder) (payload : List Octet) : Record :=
  let p := BitVec.ofInt 16 start.predictor
  sealRecord
    ([BitVec.ofNat 8 (64 + 16 * m.code), BitVec.ofNat 8 c.val, sequence, p.extractLsb' 8 8, p.extractLsb' 0 8,
      BitVec.ofNat 8 start.stepIndex] ++ payload)

/-- A QUIET record: kind 2, mode code 0, channel, sequence, quiet level (R65). -/
def quietRecord (c : Chan) (sequence : BitVec 8) (level : Octet) : Record :=
  sealRecord [BitVec.ofNat 8 128, BitVec.ofNat 8 c.val, sequence, level]

/-- A SPEECH frame relabelled with the receiving channel and its sequence; every other field as received (R156). -/
def relabelledSpeech (c : Chan) (sequence : BitVec 8) (f : SpeechFrame) : Record :=
  speechRecord c sequence f.mode ⟨f.predictor, f.stepIndex⟩ f.payload

/-- The bits of a record on the link, each with the level of record-start: high for the first bit only (R64). -/
def recordBits (r : Record) : List (Bool × Bool) :=
  ((Speech.octetsBits r).zipIdx).map fun (bit, n) => (bit, decide (n = 0))

/-! ### Reading received records -/

/-- The kind field of octet 0 (R65). -/
def recordKind (o0 : Octet) : Nat := o0.toNat / 64

/-- The mode-code field of octet 0 (R65). -/
def recordModeCode (o0 : Octet) : Nat := o0.toNat / 16 % 4

/-- The implied length of a record, from its octet 0 (R67). -/
def impliedLength (o0 : Octet) : Option Nat :=
  match recordKind o0 with
  | 1 => (Mode.ofCode (recordModeCode o0)).map fun m => 8 + m.payloadOctets
  | 2 => some 6
  | _ => none

/-- The octets that belong to a record: to its implied length, or to 88 octets where it has none; octets after that
are discarded (R67). -/
def recordOctets (received : List Octet) : List Octet :=
  match received with
  | [] => []
  | o0 :: _ => received.take ((impliedLength o0).getD 88)

/-- Whether a record's length is one a readable record may have (R69). -/
def lengthReadable (r : List Octet) : Bool :=
  match r with
  | [] => false
  | o0 :: _ =>
    match impliedLength o0 with
    | some n => decide (r.length = n)
    | none => decide (r.length = 6) || decide (r.length = 48) || decide (r.length = 68) || decide (r.length = 88)

/-- Whether a record is readable: its length and its CRC-16 are right (R69). -/
def readable (r : List Octet) : Bool :=
  lengthReadable r && decide (r.drop (r.length - 2) = Checks.crc16Octets (r.take (r.length - 2)))

/-- Octet n of a record. -/
def octetAt (r : List Octet) (n : Nat) : Octet := r.getD n 0

/-- The channel a record names: bits 6–0 of octet 1 (R65). -/
def recordChannel (r : List Octet) : Chan := Fin.ofNat 128 (octetAt r 1).toNat

/-- The frame of a readable record, as it is handed over (R72), or none where its header is bad for a channel with this
mode set (R71). -/
def goodFrame (modeSet : BitVec 3) (r : List Octet) : Option Frame :=
  let code := recordModeCode (octetAt r 0)
  match recordKind (octetAt r 0) with
  | 1 =>
    match Mode.ofCode code with
    | none => none
    | some m =>
      let predictor := ((octetAt r 3) ++ (octetAt r 4) : BitVec 16).toInt
      let stepIndex := (octetAt r 5).toNat
      if m.inSet modeSet && decide (-8192 ≤ predictor) && decide (predictor ≤ 8191) && decide (stepIndex ≤ 63) then
        some (.speech
          { sequence := octetAt r 2, mode := m, predictor, stepIndex, payload := (r.drop 6).take m.payloadOctets })
      else none
  | 2 => if code = 0 then some (.quiet (octetAt r 2) (octetAt r 3)) else none
  | _ => none

/-! ### The Transmit Queue and the transmitter -/

/-- Core clocks a record occupies the transmit path: two per bit at 16.384 Mbit/s (R78). -/
def recordClocks (r : Record) : Nat := 16 * r.length

/-- An idle transmitter takes the oldest queued record, if any (R78). -/
def State.startTransmit (s : State) : State :=
  match s.sending, s.transmit with
  | none, r :: rest => { s with transmit := rest, sending := some (r, s.clock + recordClocks r) }
  | _, _ => s

/-- A record offered to the Transmit Queue: appended and counted as sent, or dropped at a full queue with a transmit
drop and QUEUE_OVERFLOW for both lines; both count against the channel in octet 1 (R76, R77). -/
def State.offerRecord (s : State) (r : Record) : State :=
  if s.transmit.length < Config.transmitQueueLength then
    ({ s with transmit := s.transmit ++ [r] }.count (recordChannel r) .framesSent).startTransmit
  else
    ((s.count (recordChannel r) .transmitDrops).recordLine .F .queueOverflow).recordLine .R .queueOverflow

end Sys2Proof.Machine
end

