-- ==== Sys2Proof/Machine/Pool.lean ====
section
/-! DEFINITION. The Codec Engine Pool: the Job Queue and its order (R126), the offer (R127), the arbiter (R128),
withdrawal and marking (R130 to R132); with the sources' side of it: held items (R96, R117, R160), misses (R94, R119,
R131) and the taking of a frame by a decode window (R92, R93, R154). -/

namespace Sys2Proof.Machine

/-! ### Jobs -/

/-- The kind of a job (R124). -/
def Job.kind (j : Job) : JobKind :=
  match j.work with
  | .encode _ _ => .encode
  | .decode _ => .decode

/-- The mode of a job, which alone sets its length (R46, R124). -/
def Job.mode (j : Job) : Mode :=
  match j.work with
  | .encode e _ => e.mode
  | .decode f => f.mode

/-- Whether a job is the one of this channel and kind (R125). -/
def Job.isOf (j : Job) (c : Chan) (k : JobKind) : Bool := decide (j.channel = c) && decide (j.kind = k)

/-- The order of the Job Queue: start deadline, then channel number, then DECODE before ENCODE (R126). -/
def Job.precedes (a b : Job) : Bool :=
  decide (a.deadline < b.deadline)
    || (decide (a.deadline = b.deadline)
      && (decide (a.channel < b.channel)
        || (decide (a.channel = b.channel) && decide (a.kind = .decode) && decide (b.kind = .encode))))

/-- A job placed in key order (R126, R127). -/
def insertJob (j : Job) : List Job → List Job
  | [] => [j]
  | k :: rest => if j.precedes k then j :: k :: rest else k :: insertJob j rest

/-! ### Engines and the arbiter -/

/-- The job an engine runs. -/
def Engine.job? : Engine → Option Job
  | .busy j _ => some j
  | .draining j _ => some j
  | _ => none

/-- A change of the job an engine runs. -/
def Engine.mapJob (f : Job → Job) : Engine → Engine
  | .busy j ends => .busy (f j) ends
  | .draining j ends => .draining (f j) ends
  | e => e

/-- The lowest-numbered FREE engine (R128). -/
def State.freeEngine (s : State) : Option (Fin 4) :=
  (List.finRange 4).find? fun e => decide (s.engines[e.val] = Engine.free)

/-- The head job started on the lowest-numbered FREE engine, where there are both (R128, R129). -/
def State.startHead (s : State) : State :=
  match s.jobs, s.freeEngine with
  | j :: rest, some e =>
    { s with jobs := rest, engines := s.engines.set e.val (.busy j (s.clock + Speech.jobClocks j.mode)) }
  | _, _ => s

/-- The arbiter: jobs start until no engine is FREE or the queue is empty; there are four engines (R128). -/
def State.arbitrate (s : State) : State := s.startHead.startHead.startHead.startHead

/-- Whether the Job Queue holds the job of a channel and kind. -/
def State.queued (s : State) (c : Chan) (k : JobKind) : Bool := s.jobs.any (·.isOf c k)

/-- Whether an engine runs a job of a channel and kind. -/
def State.running (s : State) (c : Chan) (k : JobKind) : Bool :=
  s.engines.toList.any fun e => e.job?.any (·.isOf c k)

/-- Whether the pool holds a job of a channel and kind, queued or running (R96, R117, R160). -/
def State.inPool (s : State) (c : Chan) (k : JobKind) : Bool := s.queued c k || s.running c k

/-- The queued job of a channel and kind taken out of the queue (R131, R132). -/
def State.unqueue (s : State) (c : Chan) (k : JobKind) : State :=
  { s with jobs := s.jobs.filter fun j => !j.isOf c k }

/-- The job of a channel and kind given up: withdrawn if it is queued, marked for discard if it runs (R130, R132). -/
def State.abandonJob (s : State) (c : Chan) (k : JobKind) : State :=
  { s.unqueue c k with
    engines := s.engines.map (Engine.mapJob fun j => if j.isOf c k then { j with discard := true } else j) }

/-- A job offered to the pool, and whether it was withdrawn in the offer. It joins the queue and the arbiter acts. A
deadline that has passed withdraws it at once; one that falls at this moment withdraws it unless it starts at once
(R127, R131). -/
def State.offerJob (s : State) (j : Job) : State × Bool :=
  if s.past j.deadline then (s, true)
  else
    let s' := { s with jobs := insertJob j s.jobs }.arbitrate
    if s.reached j.deadline && s'.queued j.channel j.kind then (s'.unqueue j.channel j.kind, true) else (s', false)

/-! ### Misses -/

/-- The decode window of a channel put into a state; nothing changes where there is no window. -/
def State.setWindow (s : State) (c : Chan) (w : WindowState) : State :=
  s.mapActive c fun a =>
    match a.up.stream with
    | .running comfort expected old =>
      { a with up := { a.up with stream := .running comfort expected { old with state := w } } }
    | .priming _ _ => a

/-- A DECODE withdrawn as a miss: the window becomes CLOSED, a decode miss is counted, DECODE_MISS recorded (R94). -/
def State.decodeMiss (s : State) (c : Chan) : State :=
  ((s.setWindow c .closed).count c .decodeMisses).warn c .decodeMiss

/-- An ENCODE withdrawn as a miss: an encode miss is counted, ENCODE_MISS recorded (R119, R157). -/
def State.encodeMiss (s : State) (c : Chan) : State := (s.count c .encodeMisses).warn c .encodeMiss

/-! ### ENCODE offers and held items -/

/-- The items held for a channel replaced. -/
def State.setHeld (s : State) (c : Chan) (items : List Held) : State :=
  s.mapActive c fun a => { a with down := { a.down with held := items } }

/-- The items held for a channel (R117, R160). -/
def State.heldItems (s : State) (c : Chan) : List Held :=
  match s.life c with
  | .active a => a.down.held
  | _ => []

/-- An ENCODE offered for a channel: its start state is the channel's encoder state at the offer (R116, R117, R157). -/
def State.offerEncode (s : State) (c : Chan) (e : EncodeWork) (deadline : Nat) : State × Bool :=
  match s.life c with
  | .active a =>
    s.offerJob
      { channel := c, deadline, work := .encode e ⟨a.down.predictor, a.down.stepIndex⟩, discard := false }
  | _ => (s, false)

/-- Held items released one after another: a record is offered to the Transmit Queue and the next item follows at once;
a job is offered to the pool and the rest wait for it, unless it is withdrawn in the offer (R117, R160). -/
def State.releaseItems (c : Chan) : List Held → State → State
  | [], s => s.setHeld c []
  | .record r :: rest, s => State.releaseItems c rest (s.offerRecord r)
  | .job e deadline :: rest, s =>
    match s.offerEncode c e deadline with
    | (s', true) => State.releaseItems c rest (s'.encodeMiss c)
    | (s', false) => s'.setHeld c rest

/-- The items held for a channel released at the completion or withdrawal of its ENCODE (R117, R160). -/
def State.releaseHeld (s : State) (c : Chan) : State := State.releaseItems c (s.heldItems c) s

/-- A record or job of a channel handed on: held while an ENCODE of the channel is queued, running or held, else offered
(R116, R117, R160). -/
def State.handOn (s : State) (c : Chan) (item : Held) : State :=
  if s.inPool c .encode || !(s.heldItems c).isEmpty then s.setHeld c (s.heldItems c ++ [item])
  else State.releaseItems c [item] s

/-! ### The decode window's frame -/

/-- Whether a SPEECH frame is direct-eligible toward a channel: its mode is in the mode set and not above the cap
(R154). -/
def directEligible (f : SpeechFrame) (target : Life) : Bool :=
  match target with
  | .active b => f.mode.inSet b.radio.modeSet && decide (f.mode.code ≤ b.fixed.cap.code)
  | _ => false

/-- A DECODE of a window's frame: held while an abandoned DECODE of the channel is in the pool, else offered with the
window's deadline; a withdrawal in the offer is a miss (R92, R94, R96, R131). -/
def State.offerDecode (s : State) (c : Chan) (f : SpeechFrame) (deadline : Nat) : State :=
  if s.inPool c .decode then s.setWindow c (.decoding f true)
  else
    match (s.setWindow c (.decoding f false)).offerJob
        { channel := c, deadline, work := .decode f, discard := false } with
    | (s', true) => s'.decodeMiss c
    | (s', false) => s'

/-- The window of a channel takes a frame: a QUIET frame's level is held; a SPEECH frame goes DIRECT when the channel is
spliced and the frame is direct-eligible toward the partner, else its DECODE is offered (R92, R93, R154). -/
def State.takeFrame (s : State) (c : Chan) (f : Frame) (deadline : Nat) : State :=
  match f with
  | .quiet _ level => s.setWindow c (.quietNoted level)
  | .speech f =>
    match (s.life c).partner? with
    | some b =>
      if directEligible f (s.life b) then s.setWindow c (.direct f) else s.offerDecode c f deadline
    | none => s.offerDecode c f deadline

end Sys2Proof.Machine
end

