-- ==== Sys2Proof/Machine/Staging.lean ====
section
/-! DEFINITION. Staging rows: what an item writes (R138, R145 to R148), the apply of a row (R144), its loss (R24, R149),
and timeslot reservations and moves (R53, R54). -/

namespace Sys2Proof

/-- The line an item belongs to (R138). -/
def Item.line : Item → Line
  | .timeslot | .gainToFixed | .gainToRadio | .quietThreshold => .F
  | .mode | .modeSet | .align | .dtx => .R

end Sys2Proof

namespace Sys2Proof.Machine

/-- The value as staged and whether it was clamped, or none where the value is refused (R138). -/
def stagedValue (item : Item) (value : BitVec 16) : Option (BitVec 16 × Bool) :=
  let clampTo (top : Nat) : BitVec 16 × Bool :=
    if value.toNat ≤ top then (value, false) else (BitVec.ofNat 16 top, true)
  match item with
  | .timeslot => if value.toNat ≤ 127 then some (value, false) else none
  | .gainToFixed => some (clampTo 1023)
  | .gainToRadio => some (clampTo 1023)
  | .quietThreshold => some (clampTo 2047)
  | .mode => if (Mode.ofCode value.toNat).isSome then some (value, false) else none
  | .modeSet => if value.toNat ≤ 7 ∧ value.getLsbD 0 = true then some (value, false) else none
  | .align =>
    if value.toInt < -40 then some (BitVec.ofInt 16 (-40), true)
    else if 40 < value.toInt then some (BitVec.ofInt 16 40, true)
    else some (value, false)
  | .dtx => if value.toNat ≤ 1 then some (value, false) else none

/-- An item placed in a row's slots, replacing its earlier value where it stands in one (R140). -/
def placeItem (item : Item) (value : BitVec 16) (slots : List (Item × BitVec 16)) : List (Item × BitVec 16) :=
  if slots.any fun p => decide (p.1 = item) then slots.map fun p => if p.1 = item then (item, value) else p
  else slots ++ [(item, value)]

/-- The timeslot a row's TIMESLOT item names, if the row holds one (R141). -/
def Row.timeslot? (r : Row) : Option Slot :=
  (r.slots.find? fun p => decide (p.1 = Item.timeslot)).map fun p => Fin.ofNat 128 p.2.toNat

/-- Whether a timeslot is bound to, or reserved for, a channel other than `c` (R139, R141). -/
def Entry.takenFrom (e : Entry) (c : Chan) : Bool :=
  match e with
  | .free => false
  | .bound d => decide (d ≠ c)
  | .reserved d => decide (d ≠ c)

/-- A FREE timeslot reserved for a channel; any other entry is left as it is (R53). -/
def State.reserve (s : State) (t : Slot) (c : Chan) : State :=
  s.mapSlot t fun ts => if ts.entry = .free then { ts with entry := .reserved c } else ts

/-- A reservation of a timeslot for a channel freed; any other entry is left as it is (R53). -/
def State.unreserve (s : State) (t : Slot) (c : Chan) : State :=
  s.mapSlot t fun ts => if ts.entry = .reserved c then { ts with entry := .free } else ts

/-- A channel moved to a timeslot in one step: the new entry becomes BOUND, the old one FREE, the outgoing stream goes on
where it stood. At a point that begins a sample time the octet of that sample time and the incoming octets move with it;
on a channel in a half state the octets move with the next sample time. A move to the channel's own timeslot changes
nothing (R54, R145). -/
def State.moveTimeslot (s : State) (c : Chan) (atPoint : Bool) (new : Slot) : State :=
  match (s.life c).fixed? with
  | none => s
  | some f =>
    if f.timeslot = new then s
    else
      let before := s.slot f.timeslot
      let s1 := s.mapSlot new fun ts =>
        { entry := .bound c, source := before.source, out := if atPoint then before.out else ts.out }
      let s2 := s1.mapSlot f.timeslot fun ts =>
        { entry := .free, source := .idle, out := if atPoint then 0 else ts.out }
      s2.mapChan c fun ch =>
        { ch with life := ch.life.mapFixed fun f => { f with timeslot := new, feed := if atPoint then new else f.feed } }

/-- What an item other than TIMESLOT writes into the halves of a context (R138, R146 to R148). -/
def Life.applyItem (l : Life) (item : Item) (value : BitVec 16) : Life :=
  match item with
  | .timeslot => l
  | .gainToFixed => l.mapFixed fun f => { f with gainToFixed := value.toNat }
  | .gainToRadio => l.mapFixed fun f => { f with gainToRadio := value.toNat }
  | .quietThreshold => l.mapFixed fun f => { f with quietThreshold := value.toNat }
  | .mode => l.mapRadio fun r => { r with requested := (Mode.ofCode value.toNat).getD r.requested }
  | .modeSet => l.mapRadio fun r => { r with modeSet := value.setWidth 3 }
  | .align => l.mapRadio fun r => { r with offset := value.toInt }
  | .dtx => l.mapRadio fun r => { r with dtx := decide (value ≠ 0) }

/-- One slot of a row written into the context (R144 step 1). -/
def State.applySlot (c : Chan) (atPoint : Bool) (s : State) (p : Item × BitVec 16) : State :=
  match p.1 with
  | .timeslot => s.moveTimeslot c atPoint (Fin.ofNat 128 p.2.toNat)
  | item => s.mapChan c fun ch => { ch with life := ch.life.applyItem item p.2 }

/-- Whether a row holds an item that makes the active mode be derived afresh (R144 step 2). -/
def Row.changesMode (r : Row) : Bool :=
  r.slots.any fun p => decide (p.1 = Item.mode) || decide (p.1 = Item.modeSet)

/-- A line's row applied whole: every slot is written, the active mode derived afresh if MODE or MODE_SET was among
them, COMMIT_APPLIED recorded, and the row emptied (R144). -/
def State.applyRow (s : State) (l : Line) (atPoint : Bool) : State :=
  let row := (s.line l).row
  match row.latched with
  | none => s
  | some c =>
    let s1 := row.slots.foldl (State.applySlot c atPoint) s
    let s2 := if row.changesMode then s1.mapChan c fun ch => { ch with life := ch.life.rederived } else s1
    (s2.record c l .commitApplied).mapLine l fun u => { u with row := .empty }

/-- Whether a line's row is PENDING on a channel (R137, R143). -/
def State.pendingOn (s : State) (l : Line) (c : Chan) : Bool :=
  (s.line l).row.pending && decide ((s.line l).row.latched = some c)

/-- A line's row applied if it is PENDING on a channel (R24, R143). -/
def State.applyPending (s : State) (l : Line) (c : Chan) (atPoint : Bool) : State :=
  if s.pendingOn l c then s.applyRow l atPoint else s

/-- Both lines' rows applied where they are PENDING on a channel (R143, R144). -/
def State.applyBoth (s : State) (c : Chan) (atPoint : Bool) : State :=
  (s.applyPending .F c atPoint).applyPending .R c atPoint

/-- A line's row emptied when the line's half of its latched channel goes: a PENDING row frees its reservation and
records COMMIT_LOST, an OPEN row records nothing (R24, R149). -/
def State.loseRow (s : State) (l : Line) (c : Chan) : State :=
  let row := (s.line l).row
  if row.latched = some c then
    let s1 :=
      if row.pending then
        (match row.timeslot? with
          | some t => s.unreserve t c
          | none => s).record c l .commitLost
      else s
    s1.mapLine l fun u => { u with row := .empty }
  else s

end Sys2Proof.Machine
end

