-- ==== Sys2Proof/Machine/Lifecycle.lean ====
section
/-! DEFINITION. The lifecycle of a channel: entry to ACTIVE (R12), the end of a splice (R164), the stop of the streams
(R23), and the release of a half (R20 to R22, R24). -/

namespace Sys2Proof.Machine

/-- The downlink phase on entry to ACTIVE (R12, R57). -/
def entryPhase (c : Chan) : Nat := 5 * c.val % 160

/-- The playout phase on entry to ACTIVE (R12, R88). -/
def entryPlayoutPhase (c : Chan) : Nat := (entryPhase c + 80) % 160

/-- The collection ring's starting contents: 320 zero samples (R12, R56). -/
def emptyRing : Block := List.replicate 320 0

/-- The ACTIVE parts of a channel at its entry: the stream fields at their entry values, both reported copies TALK, no
partner (R12). -/
def State.entry (s : State) (c : Chan) (tag : BitVec 14) (fixed : FixedHalf) (radio : RadioHalf) : Active :=
  { tag, fixed, radio
    partner := none
    copyF := .talk
    copyR := .talk
    down :=
      { phase := entryPhase c
        boundary := some (s.nextAt (entryPhase c))
        ring := emptyRing
        collecting := false
        entryClock := s.clock
        predictor := 0
        stepIndex := 8
        sequence := 0
        activity := .talk
        lowRun := 0
        weakOnset := false
        quietCount := 0
        held := [] }
    up :=
      { phase := entryPlayoutPhase c
        instant := s.nextAt (entryPlayoutPhase c)
        queue := []
        stream := .priming none 0
        lastGood := Speech.silence
        lossRun := 0
        comfortLevel := 0
        noise := 0x4C31 } }

/-- A timeslot freed: its entry FREE, its source IDLE from the next sample time on (R52, R60). -/
def State.freeSlot (s : State) (t : Slot) : State :=
  s.mapSlot t fun ts => { ts with entry := .free, source := .idle }

/-- A timeslot's source set to IDLE from the next sample time on (R60). -/
def State.idleSlot (s : State) (t : Slot) : State := s.mapSlot t fun ts => { ts with source := .idle }

/-- A RUNNING continuity check ends ABORTED with delay 0, the rest of the pattern is not sent, and CONTINUITY_DONE is
recorded for the F line; nothing changes where no check runs (R172). -/
def State.abortCheck (s : State) (c : Chan) (h : HalfF) : State :=
  match h.check with
  | none => s
  | some _ =>
    (((s.mapChan c fun ch => { ch with continuity := { result := .aborted, delay := 0 } }).setLife c
      (.halfF { h with check := none })).record c .F .continuityDone).idleSlot h.fixed.timeslot

/-! ### The end of a splice -/

/-- A channel's partner field removed and SPLICE_ENDED recorded for the F line (R164 steps 1 and 2). -/
def State.sever (s : State) (c : Chan) : State :=
  (s.mapActive c fun a => { a with partner := none }).record c .F .spliceEnded

/-- A channel that remains ACTIVE resumes its downlink: the ring starts from zeros with the next sample time's octet,
and boundaries fall again at the downlink phase (R164 step 3). -/
def State.resume (s : State) (c : Chan) : State :=
  s.mapActive c fun a =>
    { a with down := { a.down with
      ring := emptyRing, collecting := false, boundary := some (s.nextAt a.down.phase) } }

/-- The frame of a channel's DIRECT window, with the window's start deadline. -/
def State.directFrame (s : State) (c : Chan) : Option (SpeechFrame × Nat) :=
  match s.life c with
  | .active a =>
    match a.up.stream with
    | .running _ _ { deadline, state := .direct f } => some (f, deadline)
    | _ => none
  | _ => none

/-- A DIRECT window of a channel that remains ACTIVE becomes DECODING and its DECODE is offered (R164 step 4). -/
def State.redirect (s : State) (c : Chan) : State :=
  match s.directFrame c with
  | some (f, deadline) => s.offerDecode c f deadline
  | none => s

/-- The start deadline of a channel's DIRECT window, 0 without one: the key in which two redirected DECODE jobs are
offered (R126). -/
def State.directDeadline (s : State) (c : Chan) : Nat := ((s.directFrame c).map (·.2)).getD 0

/-- A splice of `a` and `b` ended with both channels remaining ACTIVE (R163, R164). Two DECODE jobs that it offers are
offered in the order of the Job Queue. -/
def State.endSplice (s : State) (a b : Chan) : State :=
  let s1 := (((s.sever a).sever b).resume a).resume b
  let aFirst :=
    decide (s1.directDeadline a < s1.directDeadline b)
      || (decide (s1.directDeadline a = s1.directDeadline b) && decide (a < b))
  if aFirst then (s1.redirect a).redirect b else (s1.redirect b).redirect a

/-! ### Leaving ACTIVE -/

/-- The streams of a channel leaving ACTIVE stop: its queued jobs are withdrawn and its running jobs marked, and a splice
ends for both channels, the partner resuming its downlink (R23, R130, R132, R164). The stream fields go with the
lifecycle. -/
def State.stopStreams (s : State) (c : Chan) (a : Active) : State :=
  let s1 := (s.abandonJob c .decode).abandonJob c .encode
  match a.partner with
  | none => s1
  | some b => (((s1.sever c).sever b).resume b).redirect b

/-- A line's half of a channel released, as R20 to R24 state; a line that holds no half of the channel changes nothing.
From HALF_F or HALF_R the channel becomes FREE; from ACTIVE it becomes the half state of the other line, whose pending
row applies at the end. -/
def State.releaseHalf (s : State) (l : Line) (c : Chan) : State :=
  match s.life c, l with
  | .halfF h, .F =>
    (((s.abortCheck c h).freeSlot h.fixed.timeslot).setLife c .free).loseRow .F c
  | .halfR _, .R => (s.setLife c .free).loseRow .R c
  | .active a, .F =>
    let s1 := (s.stopStreams c a).freeSlot a.fixed.timeslot
    let s2 := s1.setLife c (.halfR { tag := a.tag, radio := a.radio.derived .m32, timer := s.halfWaitTimer .R })
    ((s2.record c .R .peerReleased).loseRow .F c).applyPending .R c false
  | .active a, .R =>
    let s1 := (s.stopStreams c a).idleSlot a.fixed.timeslot
    let s2 :=
      s1.setLife c (.halfF { tag := a.tag, fixed := a.fixed, timer := s.halfWaitTimer .F, check := none })
    ((s2.record c .F .peerReleased).loseRow .R c).applyPending .F c false
  | _, _ => s

/-- The line whose half a channel in a half state holds (00_scope.md section 4.5). -/
def Life.holdingLine? : Life → Option Line
  | .halfF _ => some .F
  | .halfR _ => some .R
  | _ => none

end Sys2Proof.Machine
end

