-- ==== Sys2Proof/Machine/Operands.lean ====
section
/-! DEFINITION. What every order shares: addressing (R180), the watchdog (R193, R195), the checks before the verb's own
(R181), the reply (R178, R182), spoiled exchanges (R177); and the item spaces (R184 to R188). -/

namespace Sys2Proof

/-- Whether a verb of the F line is issued on it (R182). -/
def Order.onF (o : Order) : Bool := decide (o.line = .F)

/-- Whether a verb of the R line is issued on it (R182). -/
def Order.onR (o : Order) : Bool := decide (o.line = .R)

/-- The last index of a space (R184). -/
def Space.last : Space → Nat
  | .profile => 71
  | .pattern => 16
  | .line => 7
  | .device => 13

/-- The index after one read or written: by one, from the last index to 0 (R184). -/
def Space.next (sp : Space) (index : Nat) : Nat := if index < sp.last then index + 1 else 0

end Sys2Proof

namespace Sys2Proof.Machine

/-! ### Replies -/

/-- The result codes (R181). -/
def Result.code : Result → Nat
  | .done => 0
  | .clamped => 1
  | .wrongState => 2
  | .notOwner => 3
  | .busy => 4
  | .taken => 5
  | .badArgument => 6
  | .profileUnusable => 7
  | .tagMismatch => 8
  | .wrongRow => 9
  | .pending => 10

/-- The six octets of a reply, its CRC-8 last (R178, R179). -/
def Reply.octets (r : Reply) : List Octet :=
  let body : List Octet :=
    [BitVec.ofNat 8 (32 * r.node.toNat + 16 * r.previousError.toNat + r.result.code),
     BitVec.ofNat 8 (128 * r.attention.toNat + r.channel.toNat),
     r.data.extractLsb' 16 8, r.data.extractLsb' 8 8, r.data.extractLsb' 0 8]
  body ++ [Checks.crc8 body]

/-- The engine state codes (R182). -/
def Engine.code : Engine → Nat
  | .free => 0
  | .busy _ _ => 1
  | .draining _ _ => 2
  | .out => 3

/-- What carrying out a verb leads to: the state, the result, and the reply's data. -/
structure Effect where
  state  : State
  result : Result
  data   : BitVec 24

/-- Carried out, with no data. -/
def State.done (s : State) : Effect := { state := s, result := .done, data := 0 }

/-- Refused: no state changes, and the data is 0 (R181, R182). -/
def State.refuse (s : State) (r : Result) : Effect := { state := s, result := r, data := 0 }

/-- The reply's channel field for the verbs that echo bits 6–0 of octet 1 (R182). -/
def echo (o : Order) (_ : State) : BitVec 7 := BitVec.ofNat 7 o.channel.val

/-! ### Taking an order -/

/-- An order taken on a line: a SILENT line returns to ALIVE with WATCHDOG_EXPIRED recorded for it, and the watchdog's
expiry is set anew (R180, R193, R195). -/
def State.touch (s : State) (l : Line) : State :=
  let s1 :=
    if (s.line l).silent then (s.mapLine l fun u => { u with silent := false }).recordLine l .watchdogExpired else s
  s1.mapLine l fun u => { u with expiry := s.watchdogFrom u.settings.watchdogLimit }

/-- The checks before the verb's own: bit 7 of octet 1, then the line the verb belongs to (R181). -/
def carryOut (o : Order) (owned : Bool) (body : State → Effect) (s : State) : Effect :=
  if o.bit7 then s.refuse .badArgument
  else if !owned then s.refuse .notOwner
  else body s

/-- The reply formed at the 48th clock: it shows and clears the order-error flag, and its attention bit shows the line as
the order left it (R177, R178, R190). -/
def State.formReply (s : State) (l : Line) (result : Result) (channel : BitVec 7) (data : BitVec 24) : State :=
  let u := s.line l
  s.setLine l
    { u with
      orderError := false
      reply := some
        { node := u.node, previousError := u.orderError, result, attention := s.attention l, channel, data } }

/-- An order on a line. Not READY, the exchange is not seen. Node 7 is a broadcast: it is taken, carried out only for the
verbs that allow it, and gets no reply. The part's own node is taken, carried out and answered. Any other node is not
taken (R176, R180). `channel` is the reply's channel field, read before the verb is carried out (R182). -/
def takeOrder (o : Order) (owned broadcast : Bool) (channel : State → BitVec 7) (body : State → Effect)
    (s : State) : State :=
  if !s.isReady then s
  else if o.node = 7 then
    let s1 := s.touch o.line
    let s2 := if broadcast then (carryOut o owned body s1).state else s1
    s2.mapLine o.line fun u => { u with reply := none }
  else if o.node = (s.line o.line).node then
    let s1 := s.touch o.line
    let e := carryOut o owned body s1
    e.state.formReply o.line e.result (channel s1) e.data
  else s.mapLine o.line fun u => { u with reply := none }

/-- A spoiled exchange sets the line's order-error flag in a READY part, whatever node the order names (R177). -/
def State.spoil (s : State) (l : Line) : State :=
  if s.isReady then s.mapLine l fun u => { u with orderError := true } else s

/-! ### Item spaces -/

/-- The pointer of a line moved on (R184). -/
def State.advancePointer (s : State) (l : Line) : State :=
  s.mapLine l fun u => { u with index := u.space.next u.index }

/-- The profile at an index of the PROFILE space (R185). -/
def profileOf (index : Nat) : Fin 8 := Fin.ofNat 8 (index / 9)

/-- The line and setting of an index of the LINE space: 0..3 belong to F, 4..7 to R (R187). -/
def lineOf (index : Nat) : Line := if index < 4 then .F else .R

/-- The state codes of a profile (R186). -/
def ProfileState.code : ProfileState → Nat
  | .unchecked => 0
  | .valid => 1
  | .invalid => 2

/-- Field `f` of a profile, 0..7; offset 8 is the check value with the state in bits 9–8 (R185, R186). -/
def Profile.field (p : Profile) (f : Nat) : Nat :=
  match f with
  | 0 => p.cap
  | 1 => p.primingDepth
  | 2 => p.quietThreshold
  | 3 => p.hangover
  | 4 => p.quietCode
  | 5 => p.lossToMute
  | 6 => p.gainToFixed
  | 7 => p.gainToRadio
  | _ => p.checkValue + 256 * p.state.code

/-- The range of a profile field (R185). -/
def profileRange (f : Nat) : Nat × Nat :=
  match f with
  | 0 => (1, 3)
  | 1 => (1, 4)
  | 2 => (0, 2047)
  | 3 => (0, 15)
  | 4 => (0, 3)
  | 5 => (1, 8)
  | 6 => (0, 1023)
  | 7 => (0, 1023)
  | _ => (0, 255)

/-- Field `f` of a profile, 0..7, stored; the profile becomes UNCHECKED, whatever the value (R185). -/
def Profile.setField (p : Profile) (f v : Nat) : Profile :=
  let q := { p with state := .unchecked }
  match f with
  | 0 => { q with cap := v }
  | 1 => { q with primingDepth := v }
  | 2 => { q with quietThreshold := v }
  | 3 => { q with hangover := v }
  | 4 => { q with quietCode := v }
  | 5 => { q with lossToMute := v }
  | 6 => { q with gainToFixed := v }
  | _ => { q with gainToRadio := v }

/-- The sixteen octets the profile check covers: fields 0–7, each 16 bits, high octet first (R186). -/
def Profile.octets (p : Profile) : List Octet :=
  (List.range 8).flatMap fun f => [BitVec.ofNat 8 (p.field f / 256), BitVec.ofNat 8 (p.field f)]

/-- The check value stored, and the profile VALID or INVALID by its CRC-8 (R186). -/
def Profile.checked (p : Profile) (v : Nat) : Profile :=
  { p with
    checkValue := v
    state := if (Checks.crc8 p.octets).toNat = v then .valid else .invalid }

/-- A setting of a line, by its offset (R187). -/
def Settings.field (u : Settings) (offset : Nat) : Nat :=
  match offset with
  | 0 => u.watchdogLimit
  | 1 => u.releaseAction.toNat
  | 2 => u.halfWaitLimit
  | _ => u.eventMask.toNat

/-- A value of the DEVICE space (R188). -/
def State.deviceItem (s : State) (index : Nat) : Nat :=
  match index with
  | 0 => Config.vendorCode
  | 1 => Config.partCode
  | 2 => Config.revision
  | 3 =>
    match s.cause with
    | .powerOn => 0
    | .resetPin => 1
    | .joint => 2
    | .solo => 3
  | 4 => s.engines[0].code
  | 5 => s.engines[1].code
  | 6 => s.engines[2].code
  | 7 => s.engines[3].code
  | 8 => s.unreadable.toNat
  | 9 => s.stray.toNat
  | 10 => s.lineF.node.toNat
  | 11 => s.lineR.node.toNat
  | 12 => s.lineF.silent.toNat
  | _ => s.lineR.silent.toNat

/-- The value of an item (R185 to R188, R166). -/
def State.item (s : State) (sp : Space) (index : Nat) : Nat :=
  match sp with
  | .profile => s.profiles[(profileOf index).val].field (index % 9)
  | .pattern => if index < 16 then (s.pattern[(Fin.ofNat 16 index).val]).toNat else s.mask.toNat
  | .line => (s.line (lineOf index)).settings.field (index % 4)
  | .device => s.deviceItem index

/-- Whether a line owns an item and may write it (R184). -/
def ownsItem (l : Line) (sp : Space) (index : Nat) : Bool :=
  match sp with
  | .profile => decide (l = .F)
  | .pattern => decide (l = .F)
  | .line => decide (l = lineOf index)
  | .device => false

/-- Whether a continuity check is RUNNING on any channel (R167). -/
def State.anyCheckRunning (s : State) : Bool :=
  s.channels.toList.any fun ch => decide (ch.continuity.result = .running)

/-- A write answered DONE or CLAMPED: the item stored, the pointer moved on, the value as stored in the data (R182,
R184). -/
def State.stored (s : State) (l : Line) (clamped : Bool) (value : Nat) : Effect :=
  { state := s.advancePointer l, result := if clamped then .clamped else .done, data := BitVec.ofNat 24 value }

/-- A value brought into a range (R185). -/
def clampNat (range : Nat × Nat) (v : Nat) : Nat := max range.1 (min range.2 v)

/-- A write into the PROFILE space (R185, R186). -/
def State.writeProfile (s : State) (l : Line) (index v : Nat) : Effect :=
  let p := s.profiles[(profileOf index).val]
  let f := index % 9
  let v' := clampNat (profileRange f) v
  let p' := if f = 8 then p.checked v' else p.setField f v'
  { s with profiles := s.profiles.set (profileOf index).val p' }.stored l (decide (v' ≠ v)) (p'.field f)

/-- A write into the PATTERN space, refused while a check runs on any channel (R167). -/
def State.writePattern (s : State) (l : Line) (index v : Nat) : Effect :=
  if s.anyCheckRunning then s.refuse .busy
  else if index < 16 then
    let v' := min v 255
    { s with pattern := s.pattern.set (Fin.ofNat 16 index).val (BitVec.ofNat 8 v') }.stored l (decide (v' ≠ v)) v'
  else { s with mask := BitVec.ofNat 16 v }.stored l false v

/-- A line's settings replaced. -/
def State.setSettings (s : State) (l : Line) (f : Settings → Settings) : State :=
  s.mapLine l fun u => { u with settings := f u.settings }

/-- A write of one of a line's own settings (R187). A new watchdog limit sets the expiry from itself, and 0 removes it
(R193). -/
def State.writeSetting (s : State) (l : Line) (offset v : Nat) : Effect :=
  match offset with
  | 0 =>
    let v' := min v 63
    ((s.setSettings l fun u => { u with watchdogLimit := v' }).mapLine l fun u =>
      { u with expiry := s.watchdogFrom v' }).stored l (decide (v' ≠ v)) v'
  | 1 =>
    if v ≤ 1 then (s.setSettings l fun u => { u with releaseAction := decide (v = 1) }).stored l false v
    else s.refuse .badArgument
  | 2 =>
    let v' := min v 255
    (s.setSettings l fun u => { u with halfWaitLimit := v' }).stored l (decide (v' ≠ v)) v'
  | _ =>
    let v' := v % 0x4000
    (s.setSettings l fun u => { u with eventMask := BitVec.ofNat 14 v }).stored l (decide (v' ≠ v)) v'

/-- A write at a pointer: ownership first, then the item's own checks (R184). -/
def State.writeAt (s : State) (l : Line) (sp : Space) (index v : Nat) : Effect :=
  if !ownsItem l sp index then s.refuse .notOwner
  else
    match sp with
    | .profile => s.writeProfile l index v
    | .pattern => s.writePattern l index v
    | .line => s.writeSetting l (index % 4) v
    | .device => s.refuse .notOwner

end Sys2Proof.Machine
end

