-- ==== Sys2Proof/Machine/Playout.lean ====
section
/-! DEFINITION. The Playout Unit: arrival classification (R83 to R87, R93), priming (R89, R90), the decode window (R92,
R97), block choice (R99 to R103) and what an instant of a spliced channel sends (R155 to R159). -/

namespace Sys2Proof.Machine

/-- The sequence number of a frame. -/
def Frame.sequence : Frame → BitVec 8
  | .speech f => f.sequence
  | .quiet n _ => n

/-- The distance of a sequence number from a reference, modulo 256 as a signed value in −128..127 (R83). -/
def distance (sequence reference : BitVec 8) : Int := (sequence - reference).toInt

/-- The uplink fields of a channel replaced. -/
def State.setUp (s : State) (c : Chan) (up : UplinkFields) : State := s.mapActive c fun a => { a with up := up }

/-! ### Arrivals -/

/-- A frame placed after every entry at a smaller distance and before every entry at a larger one (R85). -/
def insertFrame (reference : BitVec 8) (f : Frame) : List Frame → List Frame
  | [] => [f]
  | g :: rest =>
    if distance f.sequence reference < distance g.sequence reference then f :: g :: rest
    else g :: insertFrame reference f rest

/-- A frame inserted, or decided at a full queue: the head gives way to a frame further ahead than every entry, else the
newcomer is dropped; a drop counts and warns OVERFLOW (R85, R86, R104). -/
def State.insertArrival (s : State) (c : Chan) (up : UplinkFields) (reference : BitVec 8) (f : Frame) : State :=
  if up.queue.length < Config.receiveQueueLength then
    (s.setUp c { up with queue := insertFrame reference f up.queue }).count c .framesAccepted
  else if up.queue.all fun g => decide (distance g.sequence reference < distance f.sequence reference) then
    (((s.setUp c { up with queue := up.queue.drop 1 ++ [f] }).count c .overflowDrops).count c
      .framesAccepted).warn c .overflow
  else (s.count c .overflowDrops).warn c .overflow

/-- A frame far from the reference restarts the stream: the window is abandoned, the frame is the only entry and the
reference, and priming begins; the last good block, the comfort level and the noise register are kept (R87). -/
def State.resync (s : State) (c : Chan) (up : UplinkFields) (f : Frame) : State :=
  ((((s.abandonJob c .decode).setUp c
    { up with queue := [f], stream := .priming (some f.sequence) 0, lossRun := 0 }).count c .resyncs).warn c .resync)

/-- An arrival at distance 0 in PLAYING or COMFORT, decided by the window (R93, R154). -/
def State.windowArrival (s : State) (c : Chan) (w : Window) (f : Frame) : State :=
  match w.state with
  | .waiting => (s.takeFrame c f w.deadline).count c .framesAccepted
  | .closed => s.count c .framesLate
  | .decoding _ _ | .ready _ _ | .quietNoted _ | .direct _ => s.count c .framesDuplicate

/-- A frame handed over for an ACTIVE channel, classified once (R84). -/
def State.classify (s : State) (c : Chan) (a : Active) (f : Frame) : State :=
  let queued := a.up.queue.any fun g => decide (g.sequence = f.sequence)
  let accept : State :=
    (s.setUp c { a.up with
      queue := [f]
      stream := match a.up.stream with
        | .priming _ count => .priming (some f.sequence) count
        | stream => stream }).count c .framesAccepted
  match a.up.stream with
  | .priming reference _ =>
    match a.up.queue, reference with
    | [], _ => accept
    | _, none => accept
    | _, some r =>
      let d := distance f.sequence r
      if -32 ≤ d ∧ d ≤ -1 then s.count c .framesLate
      else if 0 ≤ d ∧ d ≤ 15 then
        if queued then s.count c .framesDuplicate else s.insertArrival c a.up r f
      else s.resync c a.up f
  | .running _ expected w =>
    let d := distance f.sequence expected
    if -32 ≤ d ∧ d ≤ -1 then s.count c .framesLate
    else if d = 0 then s.windowArrival c w f
    else if 1 ≤ d ∧ d ≤ 15 then
      if queued then s.count c .framesDuplicate else s.insertArrival c a.up expected f
    else s.resync c a.up f

/-! ### Windows and priming -/

/-- The window of the coming instant opened: it takes the queued frame whose sequence is the expected one, if any
(R92). The start deadline lies 8 sample times before the coming instant, 152 after this one (R94). -/
def State.openWindow (s : State) (c : Chan) (up : UplinkFields) (comfort : Bool) (expected : BitVec 8) : State :=
  let deadline := s.time + 152
  let s' :=
    s.setUp c { up with
      queue := up.queue.filter fun g => !decide (g.sequence = expected)
      stream := .running comfort expected { deadline, state := .waiting } }
  match up.queue.find? fun g => decide (g.sequence = expected) with
  | some f => s'.takeFrame c f deadline
  | none => s'

/-- The priming part of an instant in PRIMING: the count is incremented and the end condition tested; at the end the
stream turns PLAYING from the head entry and the first window opens (R89, R90). -/
def State.primingInstant (s : State) (c : Chan) (a : Active) (reference : Option (BitVec 8)) (count : Nat) : State :=
  let count' := min 255 (count + 1)
  match a.up.queue with
  | head :: _ =>
    if a.fixed.primingDepth ≤ a.up.queue.length ∨ a.fixed.primingDepth + 2 ≤ count' then
      s.openWindow c a.up false head.sequence
    else s.setUp c { a.up with stream := .priming reference count' }
  | [] => s.setUp c { a.up with stream := .priming reference count' }

/-- A concealed instant's accounting: the loss run, the counter, and MUTED when the run reaches L (R98, R102). -/
def State.concealed (s : State) (c : Chan) (a : Active) (lossRun : Nat) : State :=
  let s' := s.count c .blocksConcealed
  if lossRun = a.fixed.lossToMute then s'.warn c .muted else s'

/-- The loss run after one more concealed instant (R98). -/
def nextLossRun (c : Nat) : Nat := min 255 (c + 1)

/-- The comfort level of a received level octet (R43, R101). -/
def comfortLevelOf (level : Octet) : Nat := min 63 level.toNat

/-! ### The instant of an unspliced channel -/

/-- A block handed to the Highway Interface: the to-fixed gain in force, compression, sample 1 in the sample time that
begins at the instant and the rest after it (R30, R61). -/
def State.playBlock (s : State) (a : Active) (b : Block) : State :=
  let octets := (Speech.gainBlock a.fixed.gainToFixed b).map Speech.compress
  s.mapSlot a.fixed.timeslot fun ts => { ts with source := .block (octets.drop 1), out := octets.headD 0 }

/-- The block an instant plays in PLAYING or COMFORT, with the uplink fields and the stream state after it (R99 to
R102). Only a READY, QUIET_NOTED or CLOSED window reaches an instant of an unspliced channel (R91). -/
def chooseBlock (a : Active) (comfort : Bool) (w : WindowState) : Option (Block × UplinkFields × Bool) :=
  match w with
  | .ready _ block => some (block, { a.up with lastGood := block, lossRun := 0 }, false)
  | .quietNoted octet =>
    let level := comfortLevelOf octet
    let (block, noise) := Speech.comfortBlock level a.up.noise
    some (block, { a.up with comfortLevel := level, noise := noise, lossRun := 0 }, true)
  | .closed =>
    if comfort then
      let (block, noise) := Speech.comfortBlock a.up.comfortLevel a.up.noise
      some (block, { a.up with noise := noise }, true)
    else
      let run := nextLossRun a.up.lossRun
      some (Speech.concealment run a.fixed.lossToMute a.up.lastGood, { a.up with lossRun := run }, false)
  | .waiting | .decoding _ _ | .direct _ => none

/-- An instant that found an unspliced channel in PLAYING or COMFORT: the block is played, a concealment counted, the
expected sequence advances and the next window opens (R99, R102, R103). -/
def State.runningInstant (s : State) (c : Chan) (a : Active) (comfort : Bool) (expected : BitVec 8) (w : Window) :
    State :=
  match chooseBlock a comfort w.state with
  | none => s
  | some (block, up, comfort') =>
    let s1 := s.playBlock a block
    let s2 := if w.state = .closed ∧ comfort = false then s1.concealed c a up.lossRun else s1
    s2.openWindow c up comfort' (expected + 1)

/-! ### The instant of a spliced channel -/

/-- What an instant of a spliced channel sends toward its partner (R155). -/
inductive Sent where
  | nothing
  | record (r : Record)
  | translation (samples : Block)
  | missed
  deriving DecidableEq, Repr

/-- Rows 2 to 8 of R155: what is sent toward the partner `b`, whose context is `target` and whose downlink sequence is
`sequence`, with the sender's uplink fields and stream state after it. A WAITING or DECODING window reaches no instant
(R91). -/
def chooseSplice (a : Active) (comfort : Bool) (w : WindowState) (b : Chan) (target : Life) (sequence : BitVec 8) :
    Option (Sent × UplinkFields × Bool) :=
  match w with
  | .direct f =>
    some (if directEligible f target then .record (relabelledSpeech b sequence f) else .missed,
      { a.up with lossRun := 0 }, false)
  | .ready f block =>
    some (if directEligible f target then .record (relabelledSpeech b sequence f)
      else .translation (Speech.gainBlock a.fixed.gainToFixed block),
      { a.up with lastGood := block, lossRun := 0 }, false)
  | .quietNoted level =>
    some (.record (quietRecord b sequence level), { a.up with comfortLevel := comfortLevelOf level, lossRun := 0 }, true)
  | .closed =>
    if comfort then some (.nothing, a.up, true)
    else some (.nothing, { a.up with lossRun := nextLossRun a.up.lossRun }, false)
  | .waiting | .decoding _ _ => none

/-- What is sent reaches the partner's downlink: a record or a translation ENCODE in the partner's active mode is handed
on, a DIRECT frame no longer eligible counts as an encode miss of the partner (R155 row 5, R156, R157, R160). -/
def State.sendToward (s : State) (b : Chan) (target : Active) (sent : Sent) : State :=
  match sent with
  | .nothing => s
  | .record r => s.handOn b (.record r)
  | .translation samples =>
    s.handOn b
      (.job { source := .translation, mode := target.radio.active, samples, sequence := target.down.sequence }
        (s.time + 80))
  | .missed => s.encodeMiss b

/-- The downlink sequence of a channel advanced by one (R115, R159). -/
def State.advanceSequence (s : State) (b : Chan) : State :=
  s.mapActive b fun a => { a with down := { a.down with sequence := a.down.sequence + 1 } }

/-- An instant of channel `c` spliced to `b`, after the partner's rows have been applied (R155 steps 2 to 4). -/
def State.splicedInstant (s : State) (c : Chan) (a : Active) (b : Chan) (target : Active) : State :=
  match a.up.stream with
  | .priming reference count => (s.advanceSequence b).primingInstant c a reference count
  | .running comfort expected w =>
    match chooseSplice a comfort w.state b (.active target) target.down.sequence with
    | none => s
    | some (sent, up, comfort') =>
      let s1 := s.sendToward b target sent
      let s2 := if w.state = .closed ∧ comfort = false then s1.concealed c a up.lossRun else s1
      (s2.advanceSequence b).openWindow c up comfort' (expected + 1)

end Sys2Proof.Machine
end

