-- ==== Sys2Proof/Machine/ChannelOrders.lean ====
section
/-! DEFINITION. The orders on channels: BIND (R13 to R15), ATTACH (R16 to R18), RELEASE (R20 to R24), HANDOVER (R105),
CHECK (R168), SPLICE (R152), UNSPLICE (R163). -/

namespace Sys2Proof.Machine

/-! ### BIND -/

/-- A timeslot bound to a channel, its outgoing source IDLE (R14, R52, R60). -/
def State.bindSlot (s : State) (t : Slot) (c : Chan) : State :=
  s.mapSlot t fun ts => { ts with entry := .bound c, source := .idle }

/-- BIND on a FREE channel makes it HALF_F (R14). -/
def State.bindFree (s : State) (c : Chan) (t : Slot) (fixed : FixedHalf) (tag : BitVec 14) : State :=
  (s.bindSlot t c).mapChan c fun ch =>
    ch.fresh (.halfF { tag, fixed, timer := s.halfWaitTimer .F, check := none })

/-- BIND on a HALF_R channel makes it ACTIVE, the active mode derived with the profile's cap and PEER_ATTACHED recorded
for the R line (R12, R15). -/
def State.bindHalfR (s : State) (c : Chan) (t : Slot) (fixed : FixedHalf) (h : HalfR) : State :=
  (((s.bindSlot t c).setLife c (.active (s.entry c h.tag fixed (h.radio.derived fixed.cap)))).record c .R
    .peerAttached).settle

/-- The checks and the effect of BIND, in the order of R13. -/
def bindEffect (c : Chan) (t : Slot) (p : Fin 8) (tag : BitVec 14) (s : State) : Effect :=
  let profile := s.profiles[p.val]
  let fixed := profile.fixedHalf p t
  match s.life c with
  | .halfF _ | .active _ => s.refuse .wrongState
  | .free =>
    if (s.slot t).entry ≠ .free then s.refuse .taken
    else if profile.state ≠ .valid then s.refuse .profileUnusable
    else (s.bindFree c t fixed tag).done
  | .halfR h =>
    if tag ≠ h.tag then s.refuse .tagMismatch
    else if (s.slot t).entry ≠ .free then s.refuse .taken
    else if profile.state ≠ .valid then s.refuse .profileUnusable
    else (s.bindHalfR c t fixed h).done

/-- BIND (R13). -/
def execBind (o : Order) (t : Slot) (p : Fin 8) (tag : BitVec 14) (s : State) : Host.Outcome State Fault Refusal :=
  .next (takeOrder o o.onF false (echo o) (bindEffect o.channel t p tag) s)

/-! ### ATTACH -/

/-- The radio half that ATTACH makes, its active mode derived under a cap (R4, R17). -/
def attachRadio (modeSet : BitVec 3) (requested cap : Mode) : RadioHalf :=
  { modeSet, requested, dtx := false, offset := 0, active := Mode.derive modeSet requested cap }

/-- ATTACH on a FREE channel makes it HALF_R (R17). -/
def State.attachFree (s : State) (c : Chan) (radio : RadioHalf) (tag : BitVec 14) : State :=
  s.mapChan c fun ch => ch.fresh (.halfR { tag, radio, timer := s.halfWaitTimer .R })

/-- ATTACH on a HALF_F channel makes it ACTIVE: a RUNNING check ends ABORTED and PEER_ATTACHED is recorded for the F line
(R12, R18). -/
def State.attachHalfF (s : State) (c : Chan) (radio : RadioHalf) (h : HalfF) : State :=
  (((s.abortCheck c h).setLife c (.active (s.entry c h.tag h.fixed radio))).record c .F .peerAttached).settle

/-- The checks and the effect of ATTACH, in the order of R16; the data holds the active mode code (R182). -/
def attachEffect (c : Chan) (modeSet : BitVec 3) (requested : BitVec 2) (tag : BitVec 14) (s : State) : Effect :=
  let answer (s' : State) (r : RadioHalf) : Effect :=
    { state := s', result := .done, data := BitVec.ofNat 24 r.active.code }
  match s.life c, Mode.ofCode requested.toNat with
  | .halfR _, _ | .active _, _ => s.refuse .wrongState
  | _, none => s.refuse .badArgument
  | .free, some m =>
    if !Mode.m16.inSet modeSet then s.refuse .badArgument
    else
      let radio := attachRadio modeSet m .m32
      answer (s.attachFree c radio tag) radio
  | .halfF h, some m =>
    if !Mode.m16.inSet modeSet then s.refuse .badArgument
    else if tag ≠ h.tag then s.refuse .tagMismatch
    else
      let radio := attachRadio modeSet m h.fixed.cap
      answer (s.attachHalfF c radio h) radio

/-- ATTACH (R16). -/
def execAttach (o : Order) (modeSet : BitVec 3) (requested : BitVec 2) (tag : BitVec 14) (s : State) :
    Host.Outcome State Fault Refusal :=
  .next (takeOrder o o.onR false (echo o) (attachEffect o.channel modeSet requested tag) s)

/-! ### RELEASE, HANDOVER, CHECK -/

/-- RELEASE acts on the half of the issuing line; without it the order is answered WRONG_STATE (R20). -/
def releaseEffect (l : Line) (c : Chan) (s : State) : Effect :=
  if (s.life c).holds l then (s.releaseHalf l c).settle.done else s.refuse .wrongState

/-- RELEASE (R20). -/
def execRelease (o : Order) (s : State) : Host.Outcome State Fault Refusal :=
  .next (takeOrder o true false (echo o) (releaseEffect o.line o.channel) s)

/-- The uplink of an ACTIVE channel primed anew: the window abandoned, the queue emptied, the last good block zeroed, the
comfort level and the noise register kept (R105). -/
def State.primeAnew (s : State) (c : Chan) (a : Active) : State :=
  (s.abandonJob c .decode).setUp c
    { a.up with queue := [], stream := .priming none 0, lastGood := Speech.silence, lossRun := 0 }

/-- The check and the effect of HANDOVER (R105). -/
def handoverEffect (c : Chan) (s : State) : Effect :=
  match s.life c with
  | .active a => (s.primeAnew c a).done
  | _ => s.refuse .wrongState

/-- HANDOVER (R105). -/
def execHandover (o : Order) (s : State) : Host.Outcome State Fault Refusal :=
  .next (takeOrder o o.onR false (echo o) (handoverEffect o.channel) s)

/-- A check started: the record RUNNING, the pattern handed to the timeslot, an empty window, s0 the next sample time
(R62, R168, R169). -/
def State.startCheck (s : State) (c : Chan) (h : HalfF) : State :=
  (s.mapChan c fun ch =>
    { ch with
      life := .halfF { h with check := some { start := s.time + 1, window := [] } }
      continuity := { result := .running, delay := 0 } }).mapSlot h.fixed.timeslot fun ts =>
    { ts with source := .pattern s.pattern.toList }

/-- The checks and the effect of CHECK, in the order of R168. -/
def checkEffect (c : Chan) (s : State) : Effect :=
  match s.life c with
  | .halfF h =>
    if (s.chan c).continuity.result = .running then s.refuse .wrongState
    else if s.mask = 0 then s.refuse .badArgument
    else (s.startCheck c h).done
  | _ => s.refuse .wrongState

/-- CHECK (R168). -/
def execCheck (o : Order) (s : State) : Host.Outcome State Fault Refusal :=
  .next (takeOrder o o.onF false (echo o) (checkEffect o.channel) s)

/-! ### SPLICE and UNSPLICE -/

/-- The downlink fields when a splice begins: boundaries suspended, activity TALK with its counts and flag cleared
(R109, R152). -/
def Downlink.spliced (d : Downlink) : Downlink :=
  { d with boundary := none, activity := .talk, lowRun := 0, weakOnset := false, quietCount := 0 }

/-- One channel of a new splice: its partner set, its downlink suspended, its timeslot IDLE (R152). -/
def State.joinSplice (s : State) (c : Chan) (a : Active) (partner : Chan) : State :=
  (s.setLife c (.active { a with partner := some partner, down := a.down.spliced })).idleSlot a.fixed.timeslot

/-- The check and the effect of SPLICE (R152). -/
def spliceEffect (a b : Chan) (s : State) : Effect :=
  match s.life a, s.life b with
  | .active x, .active y =>
    if a = b ∨ x.partner ≠ none ∨ y.partner ≠ none then s.refuse .wrongState
    else ((s.joinSplice a x b).joinSplice b y a).done
  | _, _ => s.refuse .wrongState

/-- SPLICE (R152). -/
def execSplice (o : Order) (partner : Chan) (s : State) : Host.Outcome State Fault Refusal :=
  .next (takeOrder o o.onF false (echo o) (spliceEffect o.channel partner) s)

/-- The check and the effect of UNSPLICE (R163). -/
def unspliceEffect (c : Chan) (s : State) : Effect :=
  match (s.life c).partner? with
  | some b => (s.endSplice c b).settle.done
  | none => s.refuse .wrongState

/-- UNSPLICE (R163). -/
def execUnsplice (o : Order) (s : State) : Host.Outcome State Fault Refusal :=
  .next (takeOrder o o.onF false (echo o) (unspliceEffect o.channel) s)

end Sys2Proof.Machine
end

