-- ==== Sys2Proof/Machine/Downlink.lean ====
section
/-! DEFINITION. The downlink boundary: DOWNLINK_BOUNDARY (R57, R58) with the Activity Detector's steps (R108 to R116,
R120, R122). -/

namespace Sys2Proof.Machine

/-- The activity update of a boundary from the frame's activity, the quiet threshold and the hangover: R110 in TALK,
R111 in QUIET. -/
def updateActivity (a threshold hangover : Nat) (d : Downlink) : Downlink :=
  match d.activity with
  | .talk =>
    if threshold ≤ a then { d with lowRun := 0 }
    else if d.lowRun < hangover then { d with lowRun := d.lowRun + 1 }
    else { d with activity := .quiet, lowRun := 0, weakOnset := false, quietCount := 0 }
  | .quiet =>
    if 2 * threshold ≤ a ∨ (threshold ≤ a ∧ d.weakOnset = true) then
      { d with activity := .talk, weakOnset := false, lowRun := 0, quietCount := 0 }
    else if threshold ≤ a then { d with weakOnset := true }
    else { d with weakOnset := false }

/-- The output of a boundary's frame (R113). -/
inductive Output where
  | speech
  | quietRecord
  | nothing
  deriving DecidableEq, Repr

/-- The output decision and the quiet-interval count after it (R113). -/
def decideOutput (dtx : Bool) (activity : Activity) (quietCount interval : Nat) : Output × Nat :=
  if dtx = false ∨ activity = .talk then (.speech, 0)
  else if quietCount = 0 then (.quietRecord, 1)
  else (.nothing, (quietCount + 1) % interval)

/-- The frame taken at a boundary: the newest 160 samples of the ring, oldest first, scaled by the to-radio gain
(R30, R57 step 2). -/
def boundaryFrame (a : Active) : Block :=
  Speech.gainBlock a.fixed.gainToRadio (a.down.ring.drop (a.down.ring.length - Config.frameLength))

/-- The downlink fields after the activity update and the output decision of a boundary (R108 steps 1 to 3). -/
def boundaryDecision (a : Active) : Downlink × Output :=
  let d := updateActivity (Speech.activity (boundaryFrame a)) a.fixed.quietThreshold a.fixed.hangover a.down
  let (output, count) := decideOutput a.radio.dtx d.activity d.quietCount a.fixed.quietInterval
  ({ d with quietCount := count }, output)

/-- The channel after its boundary: the decided fields, the sequence advanced (R115), the next boundary 160 + S sample
times on with the phase moved by S, and the offset consumed (R58). -/
def afterBoundary (time : Nat) (a : Active) : Active :=
  let shift := a.radio.offset
  { a with
    radio := { a.radio with offset := 0 }
    down := { (boundaryDecision a).1 with
      sequence := a.down.sequence + 1
      boundary := some ((time : Int) + 160 + shift).toNat
      phase := (((a.down.phase : Int) + shift) % 160).toNat } }

/-- What a boundary hands on: an ENCODE job with the frame, the active mode and the sequence of the boundary, due 80
sample times on; a QUIET record with the frame's quiet level; or nothing (R114, R116). -/
def boundaryItem (c : Chan) (time : Nat) (a : Active) : Option Held :=
  match (boundaryDecision a).2 with
  | .speech =>
    some (.job
      { source := .boundary, mode := a.radio.active, samples := boundaryFrame a, sequence := a.down.sequence }
      (time + 80))
  | .quietRecord =>
    some (.record (quietRecord c a.down.sequence
      (BitVec.ofNat 8 (Speech.quietLevel (Speech.activity (boundaryFrame a))))))
  | .nothing => none

/-- ACTIVITY_CHANGED recorded for each line whose reported copy differs from the activity state (R120). -/
def State.reportActivity (s : State) (c : Chan) (a : Active) : State :=
  let s1 := if a.copyF = a.down.activity then s else s.record c .F .activityChanged
  if a.copyR = a.down.activity then s1 else s1.record c .R .activityChanged

/-- The boundary of a channel once its pending rows have been applied (R57 steps 2 to 4, R108). -/
def State.boundary (s : State) (c : Chan) (a : Active) : State :=
  let a' := afterBoundary s.time a
  let s1 := s.setLife c (.active a')
  let s2 := match boundaryItem c s.time a with
    | some item => s1.handOn c item
    | none => s1
  s2.reportActivity c a'

/-- Whether a channel's downlink boundary is due: ACTIVE, not spliced, its time come (R57). -/
def State.boundaryDue (s : State) (c : Chan) : Bool :=
  match s.life c with
  | .active a => decide (a.partner = none) && s.reached? a.down.boundary
  | _ => false

/-- The boundary of an ACTIVE channel: pending rows apply, then the frame is taken and decided. -/
def State.takeBoundary (s : State) (c : Chan) : State :=
  let s1 := s.applyBoth c true
  match s1.life c with
  | .active a => (s1.boundary c a).settle
  | _ => s1.settle

/-- DOWNLINK_BOUNDARY (R57, R108). A boundary that is not due does not occur. -/
def execDownlinkBoundary (c : Chan) (s : State) : Host.Outcome State Fault Refusal :=
  .next (if s.boundaryDue c then s.takeBoundary c else s)

end Sys2Proof.Machine
end

