-- ==== Sys2Proof/Machine/Engines.lean ====
section
/-! DEFINITION. JOB_COMPLETION (R129) and JOB_START_DEADLINE (R131). -/

namespace Sys2Proof.Machine

/-- The engine after its job leaves it: FREE from BUSY, OUT from DRAINING (R123, R129). -/
def Engine.afterJob : Engine → Engine
  | .busy _ _ => .free
  | .draining _ _ => .out
  | e => e

/-- The result of an ENCODE handed to its source: the SPEECH record is offered with the fields fixed in the job, and the
end state becomes the channel's encoder state whether the record was appended or dropped (R118, R157). -/
def State.encodeResult (s : State) (c : Chan) (e : EncodeWork) (start : Speech.Coder) : State :=
  let (payload, last) := Speech.encodeFrame e.mode start e.samples
  (s.offerRecord (speechRecord c e.sequence e.mode start payload)).mapActive c fun a =>
    { a with down := { a.down with predictor := last.predictor, stepIndex := last.stepIndex } }

/-- The result of a DECODE handed to the Playout Unit: the block becomes the next block and the window READY; a
completion that finds no window waiting for it is discarded (R95). -/
def State.decodeResult (s : State) (c : Chan) (f : SpeechFrame) : State :=
  s.mapActive c fun a =>
    match a.up.stream with
    | .running comfort expected { deadline, state := .decoding g false } =>
      let block := Speech.decodeFrame f.mode ⟨f.predictor, f.stepIndex⟩ f.payload
      { a with up := { a.up with stream := .running comfort expected { deadline, state := .ready g block } } }
    | _ => a

/-- A completed job's result handed to its source, unless the job is marked for discard or its channel is not ACTIVE
(R129, R130). -/
def State.deliver (s : State) (j : Job) : State :=
  if j.discard || decide ((s.life j.channel).lifecycle ≠ .active) then s
  else
    match j.work with
    | .encode e start => s.encodeResult j.channel e start
    | .decode f => s.decodeResult j.channel f

/-- A DECODE held behind an abandoned one, offered at that job's completion (R96). -/
def State.offerHeldDecode (s : State) (c : Chan) : State :=
  match s.life c with
  | .active a =>
    match a.up.stream with
    | .running _ _ { deadline, state := .decoding f true } => s.offerDecode c f deadline
    | _ => s
  | _ => s

/-- What waited for a completed job goes on: the held DECODE of its channel (R96), or its channel's held records and
jobs (R117, R160). -/
def State.afterCompletion (s : State) (j : Job) : State :=
  match j.kind with
  | .encode => s.releaseHeld j.channel
  | .decode => s.offerHeldDecode j.channel

/-- The completion of engine `e`'s job at its end: the engine leaves the job, the result is handed over, what waited is
offered, and the arbiter acts (R129). -/
def State.complete (s : State) (e : Fin 4) (j : Job) : State :=
  let s1 := { s with engines := s.engines.set e.val (s.engines[e.val]).afterJob }
  ((s1.deliver j).afterCompletion j).arbitrate.settle

/-- JOB_COMPLETION (R129). The completion falls when the job's clocks are over (R46): taking it brings the core clock to
that moment. A completion of an engine that runs no job, or one that something else comes before, does not occur. -/
def execJobCompletion (e : Fin 4) (s : State) : Host.Outcome State Fault Refusal :=
  .next
    (match s.engines[e.val].job?, s.engines[e.val].ends? with
    | some j, some ends =>
      let now := max s.clock ends
      if s.mayAdvance now then { s with clock := now }.complete e j else s
    | _, _ => s)

/-- The queued job of a channel and kind whose start deadline has come, if there is one. -/
def State.lateJob (s : State) (c : Chan) (k : JobKind) : Bool :=
  s.jobs.any fun j => j.isOf c k && s.reached j.deadline

/-- The first held job whose start deadline has come taken out of the held items. -/
def State.dropLateHeld (s : State) (c : Chan) : State := s.setHeld c ((s.heldItems c).eraseP s.heldDue)

/-- The start deadline of a channel's ENCODE, queued or held: it is withdrawn as a miss, and what waited for a queued one
is released (R117, R119, R131, R160). -/
def State.encodeDeadline (s : State) (c : Chan) : State :=
  if s.lateJob c .encode then (((s.unqueue c .encode).encodeMiss c).releaseHeld c).settle
  else if (s.heldItems c).any s.heldDue then
    let s1 := (s.dropLateHeld c).encodeMiss c
    (if s1.inPool c .encode then s1 else s1.releaseHeld c).settle
  else s

/-- Whether a channel's window holds a DECODE back behind an abandoned one with its deadline come (R96). -/
def State.lateHeldDecode (s : State) (c : Chan) : Bool :=
  match s.life c with
  | .active a =>
    match a.up.stream with
    | .running _ _ { deadline, state := .decoding _ true } => s.reached deadline
    | _ => false
  | _ => false

/-- The start deadline of a channel's DECODE, queued or held: it is withdrawn as a miss and the window closes (R94,
R131). -/
def State.decodeDeadline (s : State) (c : Chan) : State :=
  if s.lateJob c .decode then ((s.unqueue c .decode).decodeMiss c).settle
  else if s.lateHeldDecode c then (s.decodeMiss c).settle
  else s

/-- JOB_START_DEADLINE (R131): a job of this channel and kind that has not started by its deadline is withdrawn and
reported as a miss. A running job is not withdrawn, and a deadline that has not come does nothing. -/
def execJobStartDeadline (c : Chan) (kind : JobKind) (s : State) : Host.Outcome State Fault Refusal :=
  .next
    (match kind with
    | .encode => s.encodeDeadline c
    | .decode => s.decodeDeadline c)

end Sys2Proof.Machine
end

