-- ==== Sys2Proof/Machine/Exchanges.lean ====
section
/-! DEFINITION. The spoiled exchanges EARLY_SELECT_RISE, ORDER_CRC_MISMATCH and EXTRA_CLOCK (R177). A spoiled order is not
taken: it does not touch the watchdog, and no reply is formed for it (R176, R180). -/

namespace Sys2Proof.Machine

/-- The exchange of a line forms no reply (R176). -/
def State.noReply (s : State) (l : Line) : State :=
  if s.isReady then s.mapLine l fun u => { u with reply := none } else s

/-- EARLY_SELECT_RISE (R177): select rises before the 48th clock; the order is incomplete and not taken. -/
def execEarlySelectRise (l : Line) (s : State) : Host.Outcome State Fault Refusal := .next ((s.spoil l).noReply l)

/-- ORDER_CRC_MISMATCH (R177): the CRC-8 of octets 0–4 differs from octet 5; the order is not taken. -/
def execOrderCrcMismatch (l : Line) (s : State) : Host.Outcome State Fault Refusal := .next ((s.spoil l).noReply l)

/-- EXTRA_CLOCK (R177): a 97th clock with select low sets the flag; the order stands, and its reply was complete. -/
def execExtraClock (l : Line) (s : State) : Host.Outcome State Fault Refusal := .next (s.spoil l)

end Sys2Proof.Machine
end

