-- ==== Sys2Proof/Machine/StartUp.lean ====
section
/-! DEFINITION. POWER_ON (R11), RESET_LOW (R199), RESET_RISE (R50) and READY (R50, R199). -/

namespace Sys2Proof.Machine

/-- Every block at its power-on values, with the commands that wait kept (R11, R199). -/
def State.powerOn (s : State) : State := { State.reset with pending := s.pending }

/-- POWER_ON (R11): every block at its reset values, the start-up wait begun. -/
def execPowerOn (s : State) : Host.Outcome State Fault Refusal := .next s.powerOn

/-- RESET_LOW (R199): the part stops at once. An exchange in progress and a restart request are lost, and every value
stands at its power-on value while RESET is low. -/
def execResetLow (s : State) : Host.Outcome State Fault Refusal :=
  .next { s.powerOn with run := .resetLow, startKind := .resetPin }

/-- RESET_RISE (R50): everything at its reset values and the count of 512 frame syncs begun; READY will write the cause
RESET_PIN (R199). RESET rises only where it was low. -/
def execResetRise (s : State) : Host.Outcome State Fault Refusal :=
  .next (if s.run = .resetLow then { s.powerOn with startKind := .resetPin } else s)

/-- The moment of a frame sync: a sample time lasts 4096 core clocks, and longer only where frame syncs were absent
(00_scope.md section 4.2, R48). -/
def State.syncMoment (s : State) : Nat := max s.clock (s.syncClock + Config.clocksPerSampleTime)

/-- A frame sync counted: the next sample time begins at its moment (R48, R49). -/
def State.beginSampleTime (s : State) : State :=
  { s with time := s.time + 1, clock := s.syncMoment, syncClock := s.syncMoment }

/-- READY (R50, R199): the 512th frame sync sets the sample cycle to 0, latches the node straps, writes the restart cause
and makes the part READY. Before 511 frame syncs have been counted it is not the 512th, and nothing happens. -/
def execReady (strapF strapR : BitVec 3) (s : State) : Host.Outcome State Fault Refusal :=
  .next
    (if s.run = .waiting (Config.startUpSyncs - 1) then
      { s.beginSampleTime with
        run := .ready
        cycle := 0
        cause := s.startKind
        lineF := { s.lineF with node := strapF }
        lineR := { s.lineR with node := strapR } }
    else s)

end Sys2Proof.Machine
end

