-- ==== Sys2Proof/Machine/Highway.lean ====
section
/-! DEFINITION. FRAME_SYNC (R48, R49, R55, R60, R170) and CONTINUITY_TIMEOUT (R171), with the layout of the highways
(R48). -/

namespace Sys2Proof.Machine

/-! ### Layout -/

/-- The highway of a timeslot (R48). -/
def slotHighway (t : Slot) : Nat := t.val / 64

/-- The position of a timeslot within the frame (R48). -/
def slotPosition (t : Slot) : Nat := t.val % 64

/-- The bits a highway sends in the current sample time: 64 positions in order, each octet most significant bit first
(R48). -/
def State.highwayBits (s : State) (highway : Fin 2) : List Bool :=
  ((List.finRange 128).filter fun t => decide (slotHighway t = highway.val)).flatMap fun t =>
    Speech.octetBits (s.slot t).out

/-! ### Incoming octets -/

/-- A sample written into the ring: the oldest leaves, the new one becomes the newest (R56). -/
def pushRing (ring : Block) (x : Int) : Block := ring.drop 1 ++ [x]

/-- An octet joining a comparison window as its newest; the window holds the latest 16 (R170). -/
def pushWindow (window : List Octet) (o : Octet) : List Octet :=
  (window ++ [o]).drop (window.length + 1 - 16)

/-- Whether a full window matches the pattern at every position of the mask (R170). -/
def windowMatches (pattern : Vector Octet 16) (mask : BitVec 16) (window : List Octet) : Bool :=
  decide (window.length = 16)
    && (List.finRange 16).all fun j => !mask.getLsbD j.val || decide (window.getD j.val 0 = pattern[j.val])

/-- The octet of the sample time that ends, given to a RUNNING check: one of before s0 is discarded; a later one joins the
window, and a match ends the check PASSED with the delay from s0 to the oldest octet (R170). -/
def Channel.checkOctet (s : State) (ch : Channel) (h : HalfF) (k : Check) (o : Octet) : Channel :=
  if s.time < k.start then { ch with life := .halfF { h with check := some k } }
  else
    let window := pushWindow k.window o
    if windowMatches s.pattern s.mask window then
      { ch with
        life := .halfF { h with check := none }
        continuity := { result := .passed, delay := s.time - 15 - k.start } }.record s.lineF .F .continuityDone 0
    else { ch with life := .halfF { h with check := some { k with window } } }

/-- The fixed half in the sample time that begins: its octets come from its own timeslot (R54). -/
def FixedHalf.onSync (f : FixedHalf) : FixedHalf := { f with feed := f.timeslot }

/-- Whether the octet of the ending sample time goes to a channel's ring: the channel was collecting since the sample time
began, or it entered ACTIVE at the very moment of this frame sync and is not spliced (R55, R173). -/
def State.collects (s : State) (a : Active) : Bool :=
  a.down.collecting || (decide (a.down.entryClock = s.syncMoment) && decide (a.partner = none))

/-- A context at a frame sync: the octet that its feed received in the ending sample time is routed, the routing of the
next sample time is set from the state of the channel (R54, R55), and a half-wait timer started at this very moment is set
one on (R25). -/
def Channel.onSync (s : State) (incoming : Vector Octet 128) (ch : Channel) : Channel :=
  match ch.life with
  | .halfF h =>
    let h' := { h with fixed := h.fixed.onSync, timer := h.timer.map (Timer.onSync s.syncMoment) }
    match h.check with
    | some k => ch.checkOctet s h' k incoming[h.fixed.feed.val]
    | none => { ch with life := .halfF h' }
  | .halfR h => { ch with life := .halfR { h with timer := h.timer.map (Timer.onSync s.syncMoment) } }
  | .active a =>
    let ring :=
      if s.collects a then pushRing a.down.ring (Speech.expand incoming[a.fixed.feed.val]) else a.down.ring
    { ch with
      life := .active
        { a with fixed := a.fixed.onSync, down := { a.down with ring, collecting := decide (a.partner = none) } } }
  | .free => ch

/-! ### Outgoing octets -/

/-- A timeslot at the frame sync that begins a sample time: IDLE sends 00H; a block or a pattern sends its next octet;
after its 16th octet a pattern gives way to IDLE (R60 to R62, R169). -/
def Timeslot.onSync (ts : Timeslot) : Timeslot :=
  match ts.source with
  | .idle => { ts with out := 0 }
  | .block [] => { ts with out := 0 }
  | .block (o :: rest) => { ts with source := .block rest, out := o }
  | .pattern [] => { ts with source := .idle, out := 0 }
  | .pattern (o :: rest) => { ts with source := .pattern rest, out := o }

/-- A Line Unit at a frame sync: a watchdog expiry or a restart request set at this very moment is set one on (R193,
R196). -/
def LineUnit.onSync (moment : Nat) (u : LineUnit) : LineUnit :=
  { u with
    expiry := u.expiry.map (Timer.onSync moment)
    request := u.request.map (Timer.onSync moment) }

/-! ### The commands -/

/-- A frame sync of a READY part: the octets of the ending sample time are routed, the cycle advances, and the next
sample time begins with one octet on every timeslot (R48, R49). -/
def State.frameSync (s : State) (incoming : Vector Octet 128) : State :=
  { s.beginSampleTime with
    cycle := (s.cycle + 1) % 160
    channels := s.channels.map (Channel.onSync s incoming)
    timeslots := s.timeslots.map Timeslot.onSync
    lineF := s.lineF.onSync s.syncMoment
    lineR := s.lineR.onSync s.syncMoment }.settle

/-- FRAME_SYNC (R48, R49). In the start-up wait it is counted; the 512th is the step READY (R50). While RESET is low it
only passes. A READY part ends its sample time once every point of it has been taken (notes/assumptions/3.md). -/
def execFrameSync (incoming : Vector Octet 128) (s : State) : Host.Outcome State Fault Refusal :=
  .next
    (match s.run with
    | .resetLow => s.beginSampleTime
    | .waiting n =>
      if n + 1 < Config.startUpSyncs then { s.beginSampleTime with run := .waiting (n + 1) } else s
    | .ready => if !s.outstanding && s.nothingEndsBefore s.syncMoment then s.frameSync incoming else s)

/-- CONTINUITY_TIMEOUT (R171): the octet of sample time s0 + 4000 has been compared without a match, and the check ends
NO_RETURN. A check that has not come so far is not timed out. -/
def execContinuityTimeout (c : Chan) (s : State) : Host.Outcome State Fault Refusal :=
  .next
    (match s.life c with
    | .halfF h =>
      if h.check.any s.checkTimedOut then
        ((s.mapChan c fun ch =>
          { ch with
            life := .halfF { h with check := none }
            continuity := { result := .noReturn, delay := 0 } }).record c .F .continuityDone).settle
      else s
    | _ => s)

end Sys2Proof.Machine
end

