-- ==== Sys2Proof/Machine/Instants.lean ====
section
/-! DEFINITION. PLAYOUT_INSTANT (R88, R155) and WINDOW_START_DEADLINE (R94). -/

namespace Sys2Proof.Machine

/-- Whether a window state may stand at its instant: WAITING and DECODING cannot, since the start deadline comes first
(R91); DIRECT stands on spliced channels only (R154). -/
def WindowState.settled (w : WindowState) (spliced : Bool) : Bool :=
  match w with
  | .waiting | .decoding _ _ => false
  | .direct _ => spliced
  | .ready _ _ | .quietNoted _ | .closed => true

/-- Whether a channel's playout instant is due: ACTIVE, its time come, and the window of the instant settled (R88,
R91). -/
def State.instantDue (s : State) (c : Chan) : Bool :=
  match s.life c with
  | .active a =>
    s.reached a.up.instant
      && (match a.up.stream with
        | .priming _ _ => true
        | .running _ _ w => w.state.settled a.partner.isSome)
  | _ => false

/-- The ACTIVE parts with the next playout instant set 160 sample times on (R88). -/
def Active.nextInstant (a : Active) (time : Nat) : Active :=
  { a with up := { a.up with instant := time + Config.frameLength } }

/-- The instant of an unspliced channel: silence in PRIMING, else the block the window gives (R89, R99). -/
def State.plainInstant (s : State) (c : Chan) (a : Active) : State :=
  match a.up.stream with
  | .priming reference count => (s.playBlock a Speech.silence).primingInstant c a reference count
  | .running comfort expected w => s.runningInstant c a comfort expected w

/-- The instant of an ACTIVE channel. On a spliced channel the partner's pending rows apply first (R155 step 1). -/
def State.takeInstant (s : State) (c : Chan) : State :=
  match s.life c with
  | .active a =>
    match a.partner with
    | none => (s.plainInstant c (a.nextInstant s.time)).settle
    | some b =>
      let s1 := s.applyBoth b true
      match s1.life b with
      | .active target => (s1.splicedInstant c (a.nextInstant s.time) b target).settle
      | _ => s1.settle
  | _ => s

/-- PLAYOUT_INSTANT (R88). An instant that is not due does not occur. -/
def execPlayoutInstant (c : Chan) (s : State) : Host.Outcome State Fault Refusal :=
  .next (if s.instantDue c then s.takeInstant c else s)

/-- The start deadline of a channel's window: a WAITING window becomes CLOSED; a DECODE that has not started is
withdrawn as a miss; any other window stays (R94). -/
def State.closeWindow (s : State) (c : Chan) (w : Window) : State :=
  match w.state with
  | .waiting => s.setWindow c .closed
  | .decoding _ held =>
    if held then s.decodeMiss c
    else if s.queued c .decode then (s.unqueue c .decode).decodeMiss c
    else s
  | .ready _ _ | .quietNoted _ | .closed | .direct _ => s

/-- The decode window of a channel, if it has one (R91). -/
def State.window? (s : State) (c : Chan) : Option Window :=
  match s.life c with
  | .active a =>
    match a.up.stream with
    | .running _ _ w => some w
    | .priming _ _ => none
  | _ => none

/-- WINDOW_START_DEADLINE (R94). A deadline that has not come does nothing. -/
def execWindowStartDeadline (c : Chan) (s : State) : Host.Outcome State Fault Refusal :=
  .next
    (match s.window? c with
    | some w => if s.reached w.deadline then (s.closeWindow c w).settle else s
    | none => s)

end Sys2Proof.Machine
end

