-- ==== Sys2Proof/Machine/RadioLink.lean ====
section
/-! DEFINITION. RECORD_START (R64), RECORD_ARRIVAL (R67 to R72) and RECORD_TRANSMITTED (R78). -/

namespace Sys2Proof.Machine

/-- RECORD_START (R64): a rising record-start begins a record. At most two are begun and not yet arrived: at the bit at
which a record begins, the short one before it arrives (R67). Before READY the receiver ignores its inputs. -/
def execRecordStart (s : State) : Host.Outcome State Fault Refusal :=
  .next (if s.isReady then { s with begun := min 2 (s.begun + 1) } else s)

/-- The receive checks and the hand-off of a record that has ended: unreadable and stray records count against the
device, bad ones against their channel, and good ones go to the Playout Unit, which classifies them in the same arrival
(R68 to R72, R84). -/
def State.arrival (s : State) (received : List Octet) : State :=
  let r := recordOctets received
  let c := recordChannel r
  if !readable r then { s with unreadable := saturatingSucc s.unreadable }
  else
    match s.life c with
    | .active a =>
      match goodFrame a.radio.modeSet r with
      | some f => (s.classify c a f).settle
      | none => s.count c .framesBad
    | _ => { s with stray := saturatingSucc s.stray }

/-- RECORD_ARRIVAL (R67): the end of the oldest record begun and not yet arrived. Without such a record nothing
arrives. -/
def execRecordArrival (octets : List Octet) (s : State) : Host.Outcome State Fault Refusal :=
  .next (if s.isReady && decide (0 < s.begun) then { s with begun := s.begun - 1 }.arrival octets else s)

/-- RECORD_TRANSMITTED (R78): the last bit of the record being sent has gone; the transmitter takes the oldest queued
record at once. It falls when the record's bits are over, and taking it brings the core clock there. -/
def execRecordTransmitted (s : State) : Host.Outcome State Fault Refusal :=
  .next
    (match s.sending with
    | some (_, ends) =>
      let now := max s.clock ends
      if s.mayAdvance now then { s with clock := now, sending := none }.startTransmit else s
    | none => s)

end Sys2Proof.Machine
end

