-- ==== Sys2Proof/Machine/ReadOrders.lean ====
section
/-! DEFINITION. The orders that read and clear: READ_CHANNEL (R183), NEXT_EVENT (R191), CLEAR_EVENTS and
CLEAR_LINE_EVENTS (R192), and the item orders SELECT_ITEM, READ_ITEM, WRITE_ITEM (R184). -/

namespace Sys2Proof.Machine

/-! ### READ_CHANNEL -/

/-- The lifecycle codes of the summary (R183). -/
def Lifecycle.code : Lifecycle → Nat
  | .free => 0
  | .halfF => 1
  | .halfR => 2
  | .active => 3

/-- The activity bit of the summary: 1 for QUIET, 0 when not ACTIVE (R183). -/
def Life.quietBit : Life → Nat
  | .active a => if a.down.activity = .quiet then 1 else 0
  | _ => 0

/-- The summary of a context, aspect 0 (R183). -/
def Life.summary (l : Life) : BitVec 24 :=
  BitVec.ofNat 24
    (l.lifecycle.code * 2 ^ 22 + l.quietBit * 2 ^ 21 + l.partner?.isSome.toNat * 2 ^ 20
      + l.timer?.isSome.toNat * 2 ^ 19 + ((l.fixed?.map (·.profile.val)).getD 0) * 2 ^ 16
      + ((l.radio?.map (·.active.code)).getD 0) * 2 ^ 14 + ((l.tag?.map (·.toNat)).getD 0))

/-- The codes of a continuity result (R174). -/
def CheckResult.code : CheckResult → Nat
  | .none => 0
  | .running => 1
  | .passed => 2
  | .noReturn => 3
  | .aborted => 4

/-- The reading line's reported activity copy set to the channel's activity state, on an ACTIVE channel (R121). -/
def State.reportRead (s : State) (l : Line) (c : Chan) : State :=
  s.mapActive c fun a =>
    match l with
    | .F => { a with copyF := a.down.activity }
    | .R => { a with copyR := a.down.activity }

/-- The effect of READ_CHANNEL (R183). -/
def readChannelEffect (l : Line) (c : Chan) (aspect : Fin 16) (s : State) : Effect :=
  let n := aspect.val
  if n = 0 then { state := s.reportRead l c, result := .done, data := (s.life c).summary }
  else if h : n ≤ 11 then { state := s, result := .done, data := ((s.chan c).counters[n - 1]'(by omega)).setWidth 24 }
  else if n = 12 then
    { state := s
      result := .done
      data := BitVec.ofNat 24 ((s.chan c).continuity.result.code * 2 ^ 16 + (s.chan c).continuity.delay) }
  else s.refuse .badArgument

/-- READ_CHANNEL (R183). -/
def execReadChannel (o : Order) (aspect : Fin 16) (s : State) : Host.Outcome State Fault Refusal :=
  .next (takeOrder o true false (echo o) (readChannelEffect o.line o.channel aspect) s)

/-! ### Events -/

/-- The kinds and causes of a record in data bits 13–0 (R191). -/
def EventRecord.data (e : EventRecord) : Nat := e.kinds.toNat + e.causes.toNat * 2 ^ 9

/-- The head channel's record of a line's event list, empty for an empty list (R191). -/
def State.headRecord (s : State) (l : Line) : EventRecord :=
  match (s.line l).events with
  | c :: _ => (s.chan c).events l
  | [] => .reset

/-- The reply's channel field of NEXT_EVENT: the head channel, or 0 (R182, R191). -/
def headField (l : Line) (s : State) : BitVec 7 :=
  match (s.line l).events with
  | c :: _ => BitVec.ofNat 7 c.val
  | [] => 0

/-- The effect of NEXT_EVENT: the head's record and the line's event set, nothing changed (R191). -/
def nextEventEffect (l : Line) (s : State) : Effect :=
  { state := s
    result := .done
    data := BitVec.ofNat 24 ((s.headRecord l).data + (s.line l).lineEvents.toNat * 2 ^ 14) }

/-- NEXT_EVENT (R191). -/
def execNextEvent (o : Order) (s : State) : Host.Outcome State Fault Refusal :=
  .next (takeOrder o true false (headField o.line) (nextEventEffect o.line) s)

/-- The effect of CLEAR_EVENTS; the data holds the channel's remaining record (R182, R192). -/
def clearEventsEffect (l : Line) (c : Chan) (kinds : BitVec 9) (s : State) : Effect :=
  let s1 := (s.mapChan c fun ch => ch.setEvents l ((ch.events l).clear kinds)).settle
  { state := s1, result := .done, data := BitVec.ofNat 24 ((s1.chan c).events l).data }

/-- CLEAR_EVENTS (R192). -/
def execClearEvents (o : Order) (kinds : BitVec 9) (s : State) : Host.Outcome State Fault Refusal :=
  .next (takeOrder o true false (echo o) (clearEventsEffect o.line o.channel kinds) s)

/-- The effect of CLEAR_LINE_EVENTS; the data holds the remaining line event set (R182, R192). -/
def clearLineEventsEffect (l : Line) (kinds : BitVec 5) (s : State) : Effect :=
  let s1 := s.mapLine l fun u => { u with lineEvents := u.lineEvents &&& ~~~kinds }
  { state := s1, result := .done, data := (s1.line l).lineEvents.setWidth 24 }

/-- CLEAR_LINE_EVENTS, carried out under broadcast too (R180, R192). -/
def execClearLineEvents (o : Order) (kinds : BitVec 5) (s : State) : Host.Outcome State Fault Refusal :=
  .next (takeOrder o true true (echo o) (clearLineEventsEffect o.line kinds) s)

/-! ### Items -/

/-- The effect of SELECT_ITEM; the data is the space and index as given (R182, R184). -/
def selectItemEffect (l : Line) (sp : Space) (index : Fin 128) (s : State) : Effect :=
  if sp.last < index.val then s.refuse .badArgument
  else
    { state := s.mapLine l fun u => { u with space := sp, index := index.val }
      result := .done
      data := BitVec.ofNat 24 (sp.code * 2 ^ 8 + index.val) }

/-- SELECT_ITEM (R184). -/
def execSelectItem (o : Order) (sp : Space) (index : Fin 128) (s : State) : Host.Outcome State Fault Refusal :=
  .next (takeOrder o true false (fun _ => BitVec.ofNat 7 index.val) (selectItemEffect o.line sp index) s)

/-- The reply's channel field of READ_ITEM and WRITE_ITEM: the index read or written (R182). -/
def pointerField (l : Line) (s : State) : BitVec 7 := BitVec.ofNat 7 (s.line l).index

/-- The effect of READ_ITEM: the value at the pointer, and the pointer moved on (R184). -/
def readItemEffect (l : Line) (s : State) : Effect :=
  { state := s.advancePointer l
    result := .done
    data := BitVec.ofNat 24 (s.item (s.line l).space (s.line l).index) }

/-- READ_ITEM (R184). -/
def execReadItem (o : Order) (s : State) : Host.Outcome State Fault Refusal :=
  .next (takeOrder o true false (pointerField o.line) (readItemEffect o.line) s)

/-- The effect of WRITE_ITEM (R184). -/
def writeItemEffect (l : Line) (value : BitVec 16) (s : State) : Effect :=
  s.writeAt l (s.line l).space (s.line l).index value.toNat

/-- WRITE_ITEM (R184). -/
def execWriteItem (o : Order) (value : BitVec 16) (s : State) : Host.Outcome State Fault Refusal :=
  .next (takeOrder o true false (pointerField o.line) (writeItemEffect o.line value) s)

end Sys2Proof.Machine
end

