-- ==== Sys2Proof/Machine/ServiceOrders.lean ====
section
/-! DEFINITION. NOP (R182), ENGINE_SERVICE OUT and IN (R134, R135), RESTART (R196) with RESTART_EXECUTION (R198), and
orders of an unknown verb (R181). -/

namespace Sys2Proof.Machine

/-- NOP does nothing beyond the Line Unit's own handling; it is carried out under broadcast too (R180, R182). -/
def execNop (o : Order) (s : State) : Host.Outcome State Fault Refusal :=
  .next (takeOrder o true true (echo o) State.done s)

/-- An order whose verb code is above 13H is answered BAD_ARGUMENT before any other check (R181). -/
def execUnknownVerb (o : Order) (_code : BitVec 5) (s : State) : Host.Outcome State Fault Refusal :=
  .next (takeOrder o true false (echo o) (fun s => s.refuse .badArgument) s)

/-! ### Engine service -/

/-- An engine ordered OUT: FREE becomes OUT, BUSY becomes DRAINING, the others stay (R134). -/
def Engine.serviceOut : Engine → Engine
  | .free => .out
  | .busy j ends => .draining j ends
  | e => e

/-- An engine ordered IN: OUT becomes FREE, DRAINING becomes BUSY, the others stay (R135). -/
def Engine.serviceIn : Engine → Engine
  | .out => .free
  | .draining j ends => .busy j ends
  | e => e

/-- The answer of ENGINE_SERVICE: DONE, with the engine's state after the order (R134, R135). -/
def State.engineAnswer (s : State) (e : Fin 4) : Effect :=
  { state := s, result := .done, data := BitVec.ofNat 24 (s.engines[e.val]).code }

/-- The effect of ENGINE_SERVICE OUT (R134). -/
def engineOutEffect (e : Fin 4) (s : State) : Effect :=
  { s with engines := s.engines.set e.val (s.engines[e.val]).serviceOut }.engineAnswer e

/-- ENGINE_SERVICE OUT (R134). -/
def execEngineServiceOut (o : Order) (e : Fin 4) (s : State) : Host.Outcome State Fault Refusal :=
  .next (takeOrder o o.onF false (echo o) (engineOutEffect e) s)

/-- The effect of ENGINE_SERVICE IN: the arbiter acts at once (R128, R135). -/
def engineInEffect (e : Fin 4) (s : State) : Effect :=
  { s with engines := s.engines.set e.val (s.engines[e.val]).serviceIn }.arbitrate.engineAnswer e

/-- ENGINE_SERVICE IN (R135). -/
def execEngineServiceIn (o : Order) (e : Fin 4) (s : State) : Host.Outcome State Fault Refusal :=
  .next (takeOrder o o.onF false (echo o) (engineInEffect e) s)

/-! ### Restart -/

/-- The effect of RESTART, decided by the other line's state: it joins a pending request, restarts solo against a SILENT
line, or becomes a pending request that lapses in 2 s (R196). The spec does not say what becomes of a restart that still
waits for the end of its exchange when a RESTART of the other line is answered DONE: here the later one takes its place,
with its own cause (DESIGN CHOICE, unsafe: notes/assumptions/16.md). -/
def restartEffect (l : Line) (s : State) : Effect :=
  let other := s.line (otherLine l)
  if other.request.isSome then { s with restartDue := some (l, .joint) }.done
  else if other.silent then { s with restartDue := some (l, .solo) }.done
  else
    { state :=
        (s.mapLine l fun u => { u with request := some (s.timer Config.restartLapse) }).recordLine (otherLine l)
          .restartRequested
      result := .pending
      data := 0 }

/-- RESTART, decided the same way under broadcast (R180, R196). -/
def execRestart (o : Order) (s : State) : Host.Outcome State Fault Refusal :=
  .next (takeOrder o true true (echo o) (restartEffect o.line) s)

/-- A Line Unit after a restart: lists, sets, requests, the order-error flag and the pointer cleared, ALIVE with its
expiry set from now, its row EMPTY; the node address and the settings kept, and the reply of the running exchange
clocked out as formed (R137, R195, R198). -/
def LineUnit.restarted (u : LineUnit) (s : State) : LineUnit :=
  { u with
    orderError := false
    space := .profile
    index := 0
    silent := false
    expiry := s.watchdogFrom u.settings.watchdogLimit
    events := []
    lineEvents := 0
    request := none
    row := .empty }

/-- The part after a restart: every context at its reset values, every timeslot FREE and IDLE from the next sample time
on, the pool as after power-on, the Transmit Queue empty and the record being sent cut short, the record being received
abandoned, the device counters 0 (R11, R63, R79, R136, R137, R175, R198). The cycle, the profiles, the pattern and the
mask are kept (R49, R166, R185). R79 has transmit data and record-start low from the next transmit clock, whose phase is
left open: here they fall at the core clock of the restart, even within a bit (DESIGN CHOICE, unsafe:
notes/assumptions/10.md). -/
def State.restarted (s : State) (cause : RestartCause) : State :=
  { s with
    cause := cause
    channels := Vector.replicate 128 Channel.reset
    timeslots := s.timeslots.map fun ts => { ts with entry := .free, source := .idle }
    lineF := s.lineF.restarted s
    lineR := s.lineR.restarted s
    engines := Vector.replicate 4 Engine.free
    jobs := []
    transmit := []
    sending := none
    unreadable := 0
    stray := 0
    begun := 0
    restartDue := none }

/-- RESTART_EXECUTION (R198): the end of the exchange that restarts the part. Without a restart ordered, the end of an
exchange does nothing. -/
def execRestartExecution (s : State) : Host.Outcome State Fault Refusal :=
  .next
    (match s.restartDue with
    | some (_, cause) => s.restarted cause
    | none => s)

end Sys2Proof.Machine
end

