-- ==== Sys2Proof/Machine/StagingOrders.lean ====
section
/-! DEFINITION. STAGE (R139, R140), COMMIT (R141) and CANCEL (R142). -/

namespace Sys2Proof.Machine

/-- Whether a TIMESLOT value names a timeslot taken from a channel (R139 check 6, R141 check 3). -/
def State.slotTaken (s : State) (t : Slot) (c : Chan) : Bool := (s.slot t).entry.takenFrom c

/-- An item staged into a line's row (R140). -/
def State.stageInto (s : State) (l : Line) (c : Chan) (item : Item) (value : BitVec 16) : State :=
  s.mapLine l fun u =>
    { u with row := { u.row with latched := some c, slots := placeItem item value u.row.slots } }

/-- The checks and the effect of STAGE, in the order of R139; the data carries the value as staged (R140). -/
def stageEffect (l : Line) (c : Chan) (item : Item) (value : BitVec 16) (s : State) : Effect :=
  let row := (s.line l).row
  if item.line ≠ l then s.refuse .notOwner
  else if row.pending then s.refuse .busy
  else if !(s.life c).holds l then s.refuse .wrongState
  else if row.latched.any fun d => decide (d ≠ c) then s.refuse .wrongRow
  else
    match stagedValue item value with
    | none => s.refuse .badArgument
    | some (v, clamped) =>
      if item = .timeslot ∧ s.slotTaken (Fin.ofNat 128 v.toNat) c = true then s.refuse .taken
      else
        { state := s.stageInto l c item v
          result := if clamped then .clamped else .done
          data := v.setWidth 24 }

/-- STAGE (R139). -/
def execStage (o : Order) (item : Item) (value : BitVec 16) (s : State) : Host.Outcome State Fault Refusal :=
  .next (takeOrder o true false (echo o) (stageEffect o.line o.channel item value) s)

/-- The reply's channel field of COMMIT: the latched channel, or 0 for an EMPTY row (R141, R182). -/
def latchedField (l : Line) (s : State) : BitVec 7 :=
  match (s.line l).row.latched with
  | some c => BitVec.ofNat 7 c.val
  | none => 0

/-- The timeslot a committed row names reserved, where it is FREE (R53, R141). -/
def State.reserveFor (s : State) (row : Row) (c : Chan) : State :=
  match row.timeslot? with
  | some t => s.reserve t c
  | none => s

/-- The checks and the effect of COMMIT, in the order of R141: on an ACTIVE channel the row waits PENDING, on a channel in
a half state it applies at the end of the order. -/
def commitEffect (l : Line) (s : State) : Effect :=
  let row := (s.line l).row
  match row.latched with
  | none => s.refuse .badArgument
  | some c =>
    if row.pending then s.refuse .busy
    else if row.timeslot?.any fun t => s.slotTaken t c then s.refuse .taken
    else
      let s1 := s.reserveFor row c
      if (s.life c).lifecycle = .active then
        { state := s1.mapLine l fun u => { u with row := { u.row with pending := true } }
          result := .pending
          data := 0 }
      else (s1.applyRow l false).settle.done

/-- COMMIT (R141). -/
def execCommit (o : Order) (s : State) : Host.Outcome State Fault Refusal :=
  .next (takeOrder o true false (latchedField o.line) (commitEffect o.line) s)

/-- The check and the effect of CANCEL (R142). -/
def cancelEffect (l : Line) (s : State) : Effect :=
  if (s.line l).row.pending then s.refuse .busy
  else (s.mapLine l fun u => { u with row := .empty }).done

/-- CANCEL (R142). -/
def execCancel (o : Order) (s : State) : Host.Outcome State Fault Refusal :=
  .next (takeOrder o true false (echo o) (cancelEffect o.line) s)

end Sys2Proof.Machine
end

