-- ==== Sys2Proof/Machine/Timers.lean ====
section
/-! DEFINITION. HALF_WAIT_EXPIRY (R26), WATCHDOG_EXPIRY (R193, R194) and RESTART_LAPSE (R197). -/

namespace Sys2Proof.Machine

/-- The expiry of a channel's half-wait timer: the channel becomes FREE as if its holding line had released it, and
HALF_EXPIRED is recorded for that line (R26). -/
def State.halfWaitExpiry (s : State) (c : Chan) : State :=
  match (s.life c).holdingLine? with
  | some l => ((s.releaseHalf l c).record c l .halfExpired).settle
  | none => s

/-- HALF_WAIT_EXPIRY (R26). An expiry that has not come does nothing. -/
def execHalfWaitExpiry (c : Chan) (s : State) : Host.Outcome State Fault Refusal :=
  .next (if s.expired (s.life c).timer? then s.halfWaitExpiry c else s)

/-- Every splice ended with no channel resuming: a watchdog release takes all ACTIVE channels out of ACTIVE in one event,
so none of them remains (R164, R194). -/
def State.severAll (s : State) : State :=
  (List.finRange 128).foldl (fun s c => if (s.life c).partner?.isSome then s.sever c else s) s

/-- Every half a silent line holds released, and its row emptied (R194). -/
def State.watchdogRelease (s : State) (l : Line) : State :=
  ((List.finRange 128).foldl (fun s c => s.releaseHalf l c) s.severAll).mapLine l fun u => { u with row := .empty }

/-- The expiry of a line's watchdog: the line becomes SILENT and holds no expiry, PARTNER_SILENT is recorded for the other
line, and with the RELEASE action the silent line's halves are released (R193). -/
def State.watchdogExpiry (s : State) (l : Line) : State :=
  let s1 := (s.mapLine l fun u => { u with silent := true, expiry := none }).recordLine (otherLine l) .partnerSilent
  (if (s.line l).settings.releaseAction then s1.watchdogRelease l else s1).settle

/-- WATCHDOG_EXPIRY (R193). An expiry that has not come, and one of a SILENT line, does nothing. -/
def execWatchdogExpiry (l : Line) (s : State) : Host.Outcome State Fault Refusal :=
  .next (if !(s.line l).silent && s.expired (s.line l).expiry then s.watchdogExpiry l else s)

/-- RESTART_LAPSE (R197): the pending request is removed and RESTART_EXPIRED recorded for the requesting line. A lapse
that has not come does nothing. -/
def execRestartLapse (l : Line) (s : State) : Host.Outcome State Fault Refusal :=
  .next
    (if s.expired (s.line l).request then
      (s.mapLine l fun u => { u with request := none }).recordLine l .restartExpired
    else s)

end Sys2Proof.Machine
end

