-- ==== Sys2Proof/Machine/Dispatch.lean ====
section
/-! DEFINITION. One arm per command: `exec` hands each to its meaning. -/

namespace Sys2Proof.Machine

def exec (i : Instr) (s : State) : Host.Outcome State Fault Refusal :=
  match i with
  | .powerOn => Sys2Proof.Machine.execPowerOn s
  | .resetLow => Sys2Proof.Machine.execResetLow s
  | .resetRise => Sys2Proof.Machine.execResetRise s
  | .ready strapF strapR => Sys2Proof.Machine.execReady strapF strapR s
  | .frameSync incoming => Sys2Proof.Machine.execFrameSync incoming s
  | .continuityTimeout c => Sys2Proof.Machine.execContinuityTimeout c s
  | .downlinkBoundary c => Sys2Proof.Machine.execDownlinkBoundary c s
  | .playoutInstant c => Sys2Proof.Machine.execPlayoutInstant c s
  | .windowStartDeadline c => Sys2Proof.Machine.execWindowStartDeadline c s
  | .jobStartDeadline c kind => Sys2Proof.Machine.execJobStartDeadline c kind s
  | .jobCompletion engine => Sys2Proof.Machine.execJobCompletion engine s
  | .recordArrival octets => Sys2Proof.Machine.execRecordArrival octets s
  | .recordTransmitted => Sys2Proof.Machine.execRecordTransmitted s
  | .halfWaitExpiry c => Sys2Proof.Machine.execHalfWaitExpiry c s
  | .watchdogExpiry line => Sys2Proof.Machine.execWatchdogExpiry line s
  | .restartLapse line => Sys2Proof.Machine.execRestartLapse line s
  | .earlySelectRise line => Sys2Proof.Machine.execEarlySelectRise line s
  | .orderCrcMismatch line => Sys2Proof.Machine.execOrderCrcMismatch line s
  | .extraClock line => Sys2Proof.Machine.execExtraClock line s
  | .nop o => Sys2Proof.Machine.execNop o s
  | .bind o timeslot profile tag => Sys2Proof.Machine.execBind o timeslot profile tag s
  | .attach o modeSet requested tag => Sys2Proof.Machine.execAttach o modeSet requested tag s
  | .release o => Sys2Proof.Machine.execRelease o s
  | .handover o => Sys2Proof.Machine.execHandover o s
  | .check o => Sys2Proof.Machine.execCheck o s
  | .splice o partner => Sys2Proof.Machine.execSplice o partner s
  | .unsplice o => Sys2Proof.Machine.execUnsplice o s
  | .stage o item value => Sys2Proof.Machine.execStage o item value s
  | .commit o => Sys2Proof.Machine.execCommit o s
  | .cancel o => Sys2Proof.Machine.execCancel o s
  | .readChannel o aspect => Sys2Proof.Machine.execReadChannel o aspect s
  | .nextEvent o => Sys2Proof.Machine.execNextEvent o s
  | .clearEvents o kinds => Sys2Proof.Machine.execClearEvents o kinds s
  | .clearLineEvents o kinds => Sys2Proof.Machine.execClearLineEvents o kinds s
  | .selectItem o space index => Sys2Proof.Machine.execSelectItem o space index s
  | .readItem o => Sys2Proof.Machine.execReadItem o s
  | .writeItem o value => Sys2Proof.Machine.execWriteItem o value s
  | .engineServiceOut o engine => Sys2Proof.Machine.execEngineServiceOut o engine s
  | .engineServiceIn o engine => Sys2Proof.Machine.execEngineServiceIn o engine s
  | .restart o => Sys2Proof.Machine.execRestart o s
  | .restartExecution => Sys2Proof.Machine.execRestartExecution s
  | .recordStart => Sys2Proof.Machine.execRecordStart s
  | .unknownVerb o code => Sys2Proof.Machine.execUnknownVerb o code s

end Sys2Proof.Machine
end

