-- ==== Sys2Proof/Machine/Step.lean ====
section
/-! DEFINITION. One step of the part: the command at the front of the queue, or a core clock when none waits. -/

namespace Sys2Proof.Machine

/-- The front command carried out on the state with the queue's rest; on an empty queue one core clock passes. -/
def step (s : State) : Host.Outcome State Fault Refusal :=
  match s.front with
  | some (c, rest) => exec c rest
  | none => .next s.tick

/-- The state with the command a word spells put at the front of its queue. The opcode table gives no row any bits, so no
word spells a command and the state is unchanged. -/
def State.withFetchWord (s : State) (nbits w : Nat) : State :=
  match decodeTableWord nbits w with
  | some c => s.enqueueFront c
  | none => s

end Sys2Proof.Machine
end

