-- ==== Sys2Proof/Safety.lean ====
section
/-! DEFINITION. The terms in which statements about the part are made: when an order is taken and answered, what a command
leaves as it was, and the relations that every step keeps. -/

namespace Sys2Proof

/-- The verbs carried out under broadcast (R180). -/
def Instr.isBroadcastVerb : Instr → Bool
  | .nop _ | .restart _ | .clearLineEvents _ _ => true
  | _ => false

/-- Whether a verb belongs to a line (R182). -/
def Instr.belongsTo (i : Instr) (l : Line) : Bool :=
  match i with
  | .bind _ _ _ _ | .check _ | .splice _ _ | .unsplice _ | .engineServiceOut _ _ | .engineServiceIn _ _ => decide (l = .F)
  | .attach _ _ _ _ | .handover _ => decide (l = .R)
  | _ => true

/-- The reply's channel field where it echoes bits 6–0 of the order's octet 1 (R182). -/
def Order.echoed (o : Order) : BitVec 7 := BitVec.ofNat 7 o.channel.val

end Sys2Proof

namespace Sys2Proof.Machine

/-! ### Orders -/

/-- An order addressed to this part and well formed on the wire: the part is READY, the node field is the part's own and no
broadcast, bit 7 of octet 1 is 0 (R178, R180). -/
def State.addressed (s : State) (o : Order) : Prop :=
  s.run = .ready ∧ o.node ≠ 7 ∧ o.node = (s.line o.line).node ∧ o.bit7 = false

/-- A broadcast or an order addressed to this part, well formed on the wire (R178, R180). -/
def State.reachedBy (s : State) (o : Order) : Prop :=
  s.run = .ready ∧ (o.node = 7 ∨ o.node = (s.line o.line).node) ∧ o.bit7 = false

/-- The latest reply of an order's line carries a result, a channel field and data (R178). -/
def State.answered (t : State) (o : Order) (r : Result) (channel : BitVec 7) (data : BitVec 24) : Prop :=
  ∃ p, (t.line o.line).reply = some p ∧ p.result = r ∧ p.channel = channel ∧ p.data = data

/-- The results of an order that was carried out; every other result refuses it (R181). -/
def Result.carriedOut : Result → Bool
  | .done | .clamped | .pending => true
  | .wrongState | .notOwner | .busy | .taken | .badArgument | .profileUnusable | .tagMismatch | .wrongRow => false

/-! ### What stays as it was -/

/-- The part of the state that the streams and the orders of one channel leave alone: the run state and its causes, the
counted time, the profiles, the pattern and the mask, the device counters, the receiver, a due restart and the waiting
commands. -/
structure Device where
  run        : Run
  startKind  : RestartCause
  cause      : RestartCause
  cycle      : Nat
  time       : Nat
  clock      : Nat
  syncClock  : Nat
  profiles   : Vector Profile 8
  pattern    : Vector Octet 16
  mask       : BitVec 16
  unreadable : BitVec 16
  stray      : BitVec 16
  begun      : Nat
  restartDue : Option (Line × RestartCause)
  pending    : List Instr
  deriving DecidableEq, Repr

/-- The device part of a state. -/
def State.device (s : State) : Device :=
  { run := s.run, startKind := s.startKind, cause := s.cause, cycle := s.cycle, time := s.time, clock := s.clock
    syncClock := s.syncClock, profiles := s.profiles, pattern := s.pattern, mask := s.mask
    unreadable := s.unreadable, stray := s.stray, begun := s.begun, restartDue := s.restartDue
    pending := s.pending }

/-- The Codec Engine Pool of a state: the engines and the Job Queue. -/
def State.pool (s : State) : Vector Engine 4 × List Job := (s.engines, s.jobs)

/-- The transmit path of a state: the Transmit Queue and the record being sent. -/
def State.link (s : State) : List Record × Option (Record × Nat) := (s.transmit, s.sending)

/-- Every channel but those listed as it was. -/
def State.sameChannels (s t : State) (except : List Chan) : Prop := ∀ d, d ∉ except → t.chan d = s.chan d

/-- Every timeslot but those listed as it was. -/
def State.sameSlots (s t : State) (except : List Slot) : Prop := ∀ x, x ∉ except → t.slot x = s.slot x

/-- A Line Unit unchanged but for its event list, which follows the records of the channels (R190). -/
def LineUnit.sameButList (u v : LineUnit) : Prop := { v with events := u.events } = u

/-- Both Line Units unchanged but for their event lists. -/
def State.sameLines (s t : State) : Prop := s.lineF.sameButList t.lineF ∧ s.lineR.sameButList t.lineR

/-- The Line Unit an order was taken on unchanged but for what taking any order does: the order-error flag, the watchdog,
the line event set, the event list and the reply (R177, R193, R195). -/
def LineUnit.sameButTaking (u v : LineUnit) : Prop :=
  { v with
    orderError := u.orderError, silent := u.silent, expiry := u.expiry, events := u.events
    lineEvents := u.lineEvents, reply := u.reply } = u

/-- What an order leaves as it was, its own Line Unit becoming `u` but for the taking of the order: the device part, every
channel and timeslot not listed, and the other Line Unit but for its event list. -/
def State.orderFrameTo (s t : State) (o : Order) (chans : List Chan) (slots : List Slot) (u : LineUnit) : Prop :=
  t.device = s.device ∧ s.sameChannels t chans ∧ s.sameSlots t slots ∧ u.sameButTaking (t.line o.line)
    ∧ (s.line (otherLine o.line)).sameButList (t.line (otherLine o.line))

/-- What an order leaves as it was: the device part, every channel and timeslot not listed, its own Line Unit but for the
taking of the order, and the other Line Unit but for its event list. -/
def State.orderFrame (s t : State) (o : Order) (chans : List Chan) (slots : List Slot) : Prop :=
  s.orderFrameTo t o chans slots (s.line o.line)

/-- What an event of the streams leaves as it was: the device part and every channel and timeslot not listed. -/
def State.streamFrame (s t : State) (chans : List Chan) (slots : List Slot) : Prop :=
  t.device = s.device ∧ s.sameChannels t chans ∧ s.sameSlots t slots

/-! ### Values the manual fixes -/

/-- A Line Unit at its power-on values, but for its node address and its reply (R137, R177, R184, R187, R190, R195). -/
def LineUnit.atPowerOn (u : LineUnit) : Prop :=
  u.orderError = false ∧ u.space = .profile ∧ u.index = 0 ∧ u.silent = false ∧ u.expiry = none
    ∧ u.settings = { watchdogLimit := 0, releaseAction := false, halfWaitLimit := 30, eventMask := 0x3FFF }
    ∧ u.events = [] ∧ u.lineEvents = 0 ∧ u.request = none
    ∧ u.row = { latched := none, slots := [], pending := false }

/-- A context FREE with nothing held, counted or recorded (R11). -/
def Channel.cleared (ch : Channel) : Prop :=
  ch.life = .free ∧ ch.continuity = { result := .none, delay := 0 } ∧ (∀ k, ch.counter k = 0)
    ∧ ch.eventsF = { kinds := 0, causes := 0 } ∧ ch.eventsR = { kinds := 0, causes := 0 }

/-- Every block at its power-on values (R11, R50, R79, R123, R126, R166, R185). -/
def State.atPowerOn (t : State) : Prop :=
  (∀ c, (t.chan c).cleared) ∧ (∀ x, t.slot x = { entry := .free, source := .idle, out := 0 })
    ∧ t.lineF.atPowerOn ∧ t.lineR.atPowerOn
    ∧ (∀ p : Fin 8, t.profiles[p.val]
      = { cap := 3, primingDepth := 2, quietThreshold := 64, hangover := 5, quietCode := 1, lossToMute := 4
          gainToFixed := 256, gainToRadio := 256, checkValue := 0, state := .unchecked })
    ∧ t.pattern = #v[0x2D, 0x71, 0x0A, 0x5C, 0x33, 0x66, 0x18, 0x4B, 0x55, 0x0F, 0x62, 0x27, 0x3E, 0x41, 0x1C, 0x7A]
    ∧ t.mask = 0xFFFF ∧ (∀ e : Fin 4, t.engines[e.val] = .free) ∧ t.jobs = [] ∧ t.transmit = []
    ∧ t.sending = none ∧ t.unreadable = 0 ∧ t.stray = 0 ∧ t.begun = 0 ∧ t.restartDue = none

/-- The stream fields of a context that has just entered ACTIVE (R12), with the first boundary and the first instant at the
first later sample times whose cycle values equal the phases (R57, R88). -/
def Active.atEntry (a : Active) (s : State) (c : Chan) : Prop :=
  a.partner = none ∧ a.copyF = .talk ∧ a.copyR = .talk
    ∧ a.down.phase = 5 * c.val % 160 ∧ a.up.phase = (a.down.phase + 80) % 160
    ∧ (∃ n, a.down.boundary = some n ∧ s.time < n ∧ n ≤ s.time + 160
      ∧ (s.cycle + (n - s.time)) % 160 = a.down.phase)
    ∧ (s.time < a.up.instant ∧ a.up.instant ≤ s.time + 160 ∧ (s.cycle + (a.up.instant - s.time)) % 160 = a.up.phase)
    ∧ a.down.ring = List.replicate 320 0 ∧ a.down.predictor = 0 ∧ a.down.stepIndex = 8 ∧ a.down.sequence = 0
    ∧ a.down.activity = .talk ∧ a.down.lowRun = 0 ∧ a.down.weakOnset = false ∧ a.down.quietCount = 0
    ∧ a.down.held = [] ∧ a.up.queue = [] ∧ a.up.stream = .priming none 0
    ∧ a.up.lastGood = List.replicate 160 0 ∧ a.up.lossRun = 0 ∧ a.up.comfortLevel = 0 ∧ a.up.noise = 0x4C31

/-- A half-wait timer of a line as R25 starts it. -/
def State.startedTimer (s : State) (l : Line) : Option Timer :=
  if (s.line l).settings.halfWaitLimit = 0 then none
  else some { expiry := s.time + (s.line l).settings.halfWaitLimit * 8000, since := s.clock }

/-- A channel's record for a line after a kind is recorded for it: with the kind's bit set where the line's event mask
allows it, as it was where not (R10, R189). -/
def State.recordedFor (s : State) (l : Line) (k : Kind) (e : EventRecord) : EventRecord :=
  if (s.line l).settings.eventMask.getLsbD k.bit then { e with kinds := e.kinds ||| BitVec.twoPow 9 k.bit } else e

/-- A line's event set after a line kind is recorded in it (R189). -/
def State.recordedSet (s : State) (l : Line) (k : LineKind) (set : BitVec 5) : BitVec 5 :=
  if (s.line l).settings.eventMask.getLsbD (9 + k.bit) then set ||| BitVec.twoPow 5 k.bit else set

/-- A channel's record for a line after a STREAM_WARNING with a cause (R104, R119, R189). -/
def State.warnedFor (s : State) (l : Line) (k : Cause) (e : EventRecord) : EventRecord :=
  if (s.line l).settings.eventMask.getLsbD Kind.streamWarning.bit then
    { kinds := e.kinds ||| BitVec.twoPow 9 Kind.streamWarning.bit, causes := e.causes ||| BitVec.twoPow 5 k.bit }
  else e

/-! ### Offers, windows and refusals -/

/-- A command that refuses its order: the answer with this result and data 0, and nothing changed but by the taking of the
order (R181). `channel` is the reply's channel field. -/
def State.refuses (s : State) (i : Instr) (o : Order) (r : Result) (channel : BitVec 7) : Prop :=
  ∃ t, exec i s = .next t ∧ t.answered o r channel 0 ∧ s.orderFrame t o [] [] ∧ t.pool = s.pool ∧ t.link = s.link

/-- A timer after the frame sync that comes next: one set at that very moment expires one sample time later (R25, R193,
R196; notes/assumptions/5.md). -/
def State.timerAfterSync (s : State) (timer : Option Timer) : Option Timer :=
  timer.map fun x => if x.since = s.syncMoment then { x with expiry := x.expiry + 1 } else x

/-- A record offered to the Transmit Queue in an event from `s` to `t`: sent at once by an idle transmitter beside an empty
queue, for 16 core clocks an octet (notes/assumptions/10.md); appended behind a record being sent; dropped at a queue of 32
(R76, R77, R78). -/
def State.recordOffered (s t : State) (r : Record) : Prop :=
  (s.transmit = [] → s.sending = none → t.transmit = [] ∧ t.sending = some (r, t.clock + 16 * r.length))
    ∧ (s.sending ≠ none → s.transmit.length < 32 → t.transmit = s.transmit ++ [r] ∧ t.sending = s.sending)
    ∧ (32 ≤ s.transmit.length → t.link = s.link)

/-- A record of a channel offered to the Transmit Queue in an event from `s` to `t`, with what the offer counts and records:
a frame sent, or at a queue of 32 a transmit drop and QUEUE_OVERFLOW in both lines' event sets. The other counters of the
channel stay, and of both Line Units all but the event lists (R76, R77). -/
def State.recordCounted (s t : State) (c : Chan) (r : Record) : Prop :=
  s.recordOffered t r
    ∧ (∀ k, (t.chan c).counter k
      = if k = (if s.transmit.length < 32 then .framesSent else .transmitDrops) then saturatingSucc ((s.chan c).counter k)
        else (s.chan c).counter k)
    ∧ ∀ l, { s.line l with
        lineEvents :=
          if s.transmit.length < 32 then (s.line l).lineEvents
          else s.recordedSet l .queueOverflow (s.line l).lineEvents }.sameButList (t.line l)

/-- A job placed in key order: behind every job that it does not precede, before the first that it precedes (R126). -/
def Job.joins (j : Job) (before after : List Job) : Prop :=
  ∃ ahead behind, before = ahead ++ behind ∧ after = ahead ++ j :: behind ∧ (∀ k ∈ ahead, j.precedes k = false)
    ∧ ∀ k, behind.head? = some k → j.precedes k = true

/-- A job offered to the pool before its start deadline, in an event from `s` to `t`: with an engine FREE beside an empty
queue it starts at once on the lowest-numbered one, to end 320 + 1280 × (n + 2) core clocks later; with no engine FREE it
joins the Job Queue in key order (R46, R127, R128). -/
def State.jobOffered (s t : State) (j : Job) : Prop :=
  (∀ e : Fin 4, s.jobs = [] → s.engines[e.val] = .free → (∀ d : Fin 4, d < e → s.engines[d.val] ≠ .free) →
      t.jobs = [] ∧ t.engines = s.engines.set e.val (.busy j (t.clock + (320 + 1280 * (j.mode.bits + 2)))))
    ∧ ((∀ e : Fin 4, s.engines[e.val] ≠ .free) → t.engines = s.engines ∧ j.joins s.jobs t.jobs)

/-- The pool after a completion on engine `e` in an event from `s` to `t`: `left` is what the job leaves, FREE or OUT, and
`queue` the Job Queue then. With the queue empty the engine stays so. With no other engine FREE, an engine left FREE takes
the head of the queue at once, for the clocks of its mode, and beside one left OUT the queue waits (R46, R128, R129). -/
def State.engineLeft (s t : State) (e : Fin 4) (left : Engine) (queue : List Job) : Prop :=
  (queue = [] → t.jobs = [] ∧ t.engines = s.engines.set e.val left)
    ∧ ((∀ d : Fin 4, d ≠ e → s.engines[d.val] ≠ .free) →
      (left = .out → t.jobs = queue ∧ t.engines = s.engines.set e.val .out)
        ∧ ∀ head rest, left = .free → queue = head :: rest →
          t.jobs = rest
            ∧ t.engines = s.engines.set e.val (.busy head (t.clock + (320 + 1280 * (head.mode.bits + 2)))))

/-- A job held behind the one that completes on engine `e`, offered at that completion in an event from `s` to `t`: it
starts on the lowest-numbered engine FREE beside an empty queue; else it joins the queue, whose head an engine left FREE
takes (R96, R117, R127, R128; notes/assumptions/9.md). -/
def State.offeredBehind (s t : State) (e : Fin 4) (left : Engine) (j : Job) : Prop :=
  ({ s with engines := s.engines.set e.val left } : State).jobOffered t j
    ∧ ((∀ d : Fin 4, d ≠ e → s.engines[d.val] ≠ .free) →
      ∃ queue, j.joins s.jobs queue ∧ s.engineLeft t e left queue)

/-- A DECODE offered for a window of a channel in an event from `s` to `t`, and the window's state after it: held while the
pool has a DECODE of the channel (R96); offered before its deadline; withdrawn as a miss where the deadline has passed, or
where it falls now and no engine is FREE (R94, R131, R164). -/
def State.decodeOffered (s t : State) (c : Chan) (f : SpeechFrame) (deadline : Nat) (w : WindowState) : Prop :=
  (s.inPool c .decode = true → w = .decoding f true ∧ t.pool = s.pool)
    ∧ (s.inPool c .decode = false →
      (s.time < deadline ∨ (deadline = s.time ∧ s.clock ≤ s.syncClock ∧ s.jobs = [] ∧ ∃ e : Fin 4, s.engines[e.val] = .free) →
        w = .decoding f false
          ∧ s.jobOffered t { channel := c, deadline, work := .decode f, discard := false })
      ∧ (deadline < s.time ∨ (deadline = s.time ∧ (s.syncClock < s.clock ∨ ∀ e : Fin 4, s.engines[e.val] ≠ .free)) →
        w = .closed ∧ t.pool = s.pool))

/-- Whether a SPEECH frame may go direct to a channel: its mode is in the mode set and not above the cap (R154). -/
def Active.admits (b : Active) (f : SpeechFrame) : Prop :=
  f.mode.inSet b.radio.modeSet = true ∧ f.mode.code ≤ b.fixed.cap.code

/-- A frame taken by a window of a channel in an event from `s` to `t`, and the window's state after it: the level of a
QUIET frame is noted; a SPEECH frame has its DECODE offered, or stands DIRECT where the channel is spliced to one that
admits it (R92, R93, R154). `partner` is the context of the splice partner. -/
def State.windowTakes (s t : State) (c : Chan) (partner : Option Active) (f : Frame) (deadline : Nat) (w : WindowState) :
    Prop :=
  match f, partner with
  | .quiet _ level, _ => w = .quietNoted level ∧ t.pool = s.pool
  | .speech g, none => s.decodeOffered t c g deadline w
  | .speech g, some b =>
    (b.admits g → w = .direct g ∧ t.pool = s.pool) ∧ (¬b.admits g → s.decodeOffered t c g deadline w)

/-- A window opened for an expected sequence in an event from `s` to `t`, with the Receive Queue `queue` before and `rest`
after: WAITING where no queued frame has the sequence, else it takes that frame out of the queue (R92). -/
def State.windowOpens (s t : State) (c : Chan) (partner : Option Active) (queue : List Frame) (expected : BitVec 8)
    (rest : List Frame) (w : WindowState) : Prop :=
  ((∀ g ∈ queue, g.sequence ≠ expected) → rest = queue ∧ w = .waiting ∧ t.pool = s.pool)
    ∧ ∀ ahead f behind, queue = ahead ++ f :: behind → f.sequence = expected →
      (∀ g ∈ ahead ++ behind, g.sequence ≠ expected) →
      rest = ahead ++ behind ∧ s.windowTakes t c partner f (s.time + 152) w

/-- A context with its decode window in a state; a context in PRIMING has none. -/
def Active.inWindow (a : Active) (w : WindowState) : Active :=
  match a.up.stream with
  | .running comfort expected old =>
    { a with up := { a.up with stream := .running comfort expected { old with state := w } } }
  | .priming _ _ => a

/-- A channel whose splice ends in an event from `s` to `t` and whose DIRECT window has its DECODE offered: its context is
`z` with the window in state `w`; SPLICE_ENDED is recorded for the F line, and where the offer leaves the window CLOSED a
decode miss is counted and DECODE_MISS warned for both lines (R94, R131, R164). -/
def State.unspliced (s t : State) (k : Chan) (z : Active) (w : WindowState) : Prop :=
  t.life k = .active (z.inWindow w) ∧ (t.chan k).continuity = (s.chan k).continuity
    ∧ (∀ q, (t.chan k).counter q
      = if q = .decodeMisses ∧ w = .closed then saturatingSucc ((s.chan k).counter q) else (s.chan k).counter q)
    ∧ (t.chan k).eventsF
      = (if w = .closed then s.warnedFor .F .decodeMiss (s.recordedFor .F .spliceEnded (s.chan k).eventsF)
        else s.recordedFor .F .spliceEnded (s.chan k).eventsF)
    ∧ (t.chan k).eventsR
      = (if w = .closed then s.warnedFor .R .decodeMiss (s.chan k).eventsR else (s.chan k).eventsR)

/-! ### Applied rows -/

/-- A field that a row's item writes: from the staged value where the row holds the item, else as it was (R144). -/
def Row.gives {α : Type} (r : Row) (i : Item) (written : BitVec 16 → α) (old new : α) : Prop :=
  (∀ v, (i, v) ∈ r.slots → new = written v) ∧ ((∀ v, (i, v) ∉ r.slots) → new = old)

/-- A fixed half before and after an F row has been applied to it: the two gains and T follow their items, and nothing else
changes but the timeslot, which is said apart (R146). -/
def Row.setsFixed (r : Row) (old new : FixedHalf) : Prop :=
  new = { old with
      gainToFixed := new.gainToFixed, gainToRadio := new.gainToRadio, quietThreshold := new.quietThreshold
      timeslot := new.timeslot, feed := new.feed }
    ∧ r.gives .gainToFixed BitVec.toNat old.gainToFixed new.gainToFixed
    ∧ r.gives .gainToRadio BitVec.toNat old.gainToRadio new.gainToRadio
    ∧ r.gives .quietThreshold BitVec.toNat old.quietThreshold new.quietThreshold

/-- A radio half before and after an R row has been applied to it: the requested mode, the mode set, the offset and the DTX
enable follow their items, and a MODE or MODE_SET item has the active mode derived afresh under a cap (R5, R144, R147,
R148). -/
def Row.setsRadio (r : Row) (cap : Mode) (old new : RadioHalf) : Prop :=
  r.gives .mode (fun v => (Mode.ofCode v.toNat).getD old.requested) old.requested new.requested
    ∧ r.gives .modeSet (fun v => v.setWidth 3) old.modeSet new.modeSet
    ∧ r.gives .align BitVec.toInt old.offset new.offset
    ∧ r.gives .dtx (fun v => decide (v ≠ 0)) old.dtx new.dtx
    ∧ ((∃ v, (Item.mode, v) ∈ r.slots ∨ (Item.modeSet, v) ∈ r.slots) →
      new.active = Mode.derive new.modeSet new.requested cap)
    ∧ ((∀ v, (Item.mode, v) ∉ r.slots ∧ (Item.modeSet, v) ∉ r.slots) → new.active = old.active)

/-- The rows PENDING on an ACTIVE channel `d` applied at a point of a sample time in an event from `s` to `t`: its context
goes from `b` to `b'`, and each line's row becomes EMPTY where it was PENDING on `d` and stays where not. A TIMESLOT other
than its own moves the channel: the new timeslot is BOUND and goes on with the source and the octet of the old one, which is
FREE and sends 00H (R54, R143, R144, R145). -/
def State.rowsApplied (s t : State) (d : Chan) (b b' : Active) : Prop :=
  b' = { b with fixed := b'.fixed, radio := b'.radio }
    ∧ (∀ l, (t.line l).row
      = if s.pendingOn l d = true then { latched := none, slots := [], pending := false } else (s.line l).row)
    ∧ (s.pendingOn .R d = false → b'.radio = b.radio)
    ∧ (s.pendingOn .R d = true → s.lineR.row.setsRadio b.fixed.cap b.radio b'.radio)
    ∧ (s.pendingOn .F d = false → b'.fixed = b.fixed ∧ s.sameSlots t [])
    ∧ (s.pendingOn .F d = true → s.lineF.row.setsFixed b.fixed b'.fixed
      ∧ ((∀ v, (Item.timeslot, v) ∉ s.lineF.row.slots) →
        b'.fixed.timeslot = b.fixed.timeslot ∧ b'.fixed.feed = b.fixed.feed ∧ s.sameSlots t [])
      ∧ ∀ v (x : Slot), (Item.timeslot, v) ∈ s.lineF.row.slots → x.val = v.toNat →
        b'.fixed.timeslot = x ∧ s.sameSlots t [x, b.fixed.timeslot]
          ∧ (x = b.fixed.timeslot → t.slot x = s.slot x ∧ b'.fixed.feed = b.fixed.feed)
          ∧ (x ≠ b.fixed.timeslot → b'.fixed.feed = x
            ∧ t.slot x = { s.slot b.fixed.timeslot with entry := .bound d }
            ∧ t.slot b.fixed.timeslot = { entry := .free, source := .idle, out := 0 }))

/-- An ACTIVE channel released by line `l` in an event from `s` to `t`, the other line's row being PENDING on it: the half
that remains once the row has been applied to it. Released by F the channel is HALF_R, its active mode the one derived under
cap 32; released by R it is HALF_F, and a TIMESLOT other than its own moves the binding, the old timeslot left FREE and IDLE
(R21, R22, R24). -/
def State.leftWithRow (s t : State) (l : Line) (c : Chan) (a : Active) : Prop :=
  (l = .F →
    ∃ radio, t.life c = .halfR { tag := a.tag, timer := s.startedTimer .R, radio }
      ∧ s.lineR.row.setsRadio .m32
        { a.radio with active := Mode.derive a.radio.modeSet a.radio.requested .m32 } radio
      ∧ radio.active = Mode.derive radio.modeSet radio.requested .m32)
    ∧ (l = .R →
      ∃ fixed, t.life c = .halfF { tag := a.tag, fixed, timer := s.startedTimer .F, check := none }
        ∧ s.lineF.row.setsFixed a.fixed fixed ∧ fixed.feed = a.fixed.feed
        ∧ ((∀ v, (Item.timeslot, v) ∉ s.lineF.row.slots) → fixed.timeslot = a.fixed.timeslot)
        ∧ (fixed.timeslot = a.fixed.timeslot →
          t.slot a.fixed.timeslot = { s.slot a.fixed.timeslot with source := .idle })
        ∧ ∀ v (x : Slot), (Item.timeslot, v) ∈ s.lineF.row.slots → x.val = v.toNat →
          fixed.timeslot = x
            ∧ (x ≠ a.fixed.timeslot →
              t.slot x = { s.slot x with entry := .bound c, source := .idle }
                ∧ t.slot a.fixed.timeslot = { s.slot a.fixed.timeslot with entry := .free, source := .idle }))

/-- A state whose rows stand as another state leaves them: what an event that applies or loses rows is compared with in
everything else. -/
def State.withRowsOf (s t : State) : State :=
  { s with
    lineF := { s.lineF with row := t.lineF.row }
    lineR := { s.lineR with row := t.lineR.row } }

/-- A channel's record for a line once the line's row PENDING on it has been applied: COMMIT_APPLIED where the line's event
mask allows it; as it was where none is PENDING (R144). -/
def State.appliedFor (s : State) (l : Line) (d : Chan) : EventRecord :=
  if s.pendingOn l d = true then s.recordedFor l .commitApplied ((s.chan d).events l) else (s.chan d).events l

/-! ### The frame of a boundary and its decision -/

/-- The frame taken at a boundary of a context: the newest 160 samples of its ring, oldest first, under its to-radio gain
(R57 step 2). -/
def Active.frame (a : Active) : Block :=
  (a.down.ring.drop (a.down.ring.length - 160)).map (Speech.gain a.fixed.gainToRadio)

/-- Whether a frame of activity `A` keeps a QUIET context so: one that is low, or the first moderate one (R111). -/
def Active.staysQuiet (a : Active) (A : Nat) : Prop :=
  A < a.fixed.quietThreshold
    ∨ (a.fixed.quietThreshold ≤ A ∧ A < 2 * a.fixed.quietThreshold ∧ a.down.weakOnset = false)

/-- Whether a boundary that finds a context and a frame of activity `A` decides SPEECH: DTX is off, or the channel stays or
becomes TALK (R110, R111, R113). -/
def Active.decidesSpeech (a : Active) (A : Nat) : Prop :=
  a.radio.dtx = false
    ∨ (a.down.activity = .talk ∧ (a.fixed.quietThreshold ≤ A ∨ a.down.lowRun < a.fixed.hangover))
    ∨ (a.down.activity = .quiet
      ∧ (2 * a.fixed.quietThreshold ≤ A ∨ (a.fixed.quietThreshold ≤ A ∧ a.down.weakOnset = true)))

/-- Whether it decides a QUIET record: with DTX on it turns the channel QUIET, or finds it QUIET with the quiet-interval
count 0 and keeps it so (R110, R111, R113). -/
def Active.decidesRecord (a : Active) (A : Nat) : Prop :=
  a.radio.dtx = true
    ∧ ((a.down.activity = .talk ∧ A < a.fixed.quietThreshold ∧ a.down.lowRun = a.fixed.hangover)
      ∨ (a.down.activity = .quiet ∧ a.down.quietCount = 0 ∧ a.staysQuiet A))

/-- Whether it decides nothing: with DTX on it finds the channel QUIET with the quiet-interval count not 0 and keeps it so
(R111, R113). -/
def Active.decidesNothing (a : Active) (A : Nat) : Prop :=
  a.radio.dtx = true ∧ a.down.activity = .quiet ∧ a.down.quietCount ≠ 0 ∧ a.staysQuiet A

/-! ### Records -/

/-- The octets of a SPEECH record before its check: kind and mode, channel, sequence, start predictor, start step index,
payload (R65). -/
def speechBody (c : Chan) (sequence : BitVec 8) (m : Mode) (predictor : Int) (stepIndex : Nat) (payload : List Octet) :
    List Octet :=
  [BitVec.ofNat 8 (64 + 16 * m.code), BitVec.ofNat 8 c.val, sequence, (BitVec.ofInt 16 predictor).extractLsb' 8 8,
    (BitVec.ofInt 16 predictor).extractLsb' 0 8, BitVec.ofNat 8 stepIndex] ++ payload

/-- A body with its CRC-16 (R65, R66). -/
def withCheck (body : List Octet) : Record := body ++ Checks.crc16Octets body

/-- Rows 2 to 8 of R155, for an instant that finds `a`, spliced to `d`, in PLAYING or COMFORT with a window in state `w`:
what goes toward `d`, whose context is `b` once its rows have been applied; whether the frame is lost to it; and the uplink
fields and the stream state of `a` afterwards. -/
def Active.splicedRow (a : Active) (comfort : Bool) (w : WindowState) (d : Chan) (b : Active) (time : Nat)
    (item : Option Held) (lost : Bool) (up : UplinkFields) (comfort' : Bool) : Prop :=
  match w with
  | .direct f =>
    up = { a.up with lossRun := 0 } ∧ comfort' = false
      ∧ (b.admits f →
        item = some (.record (withCheck
            (speechBody d b.down.sequence f.mode f.predictor f.stepIndex f.payload))) ∧ lost = false)
      ∧ (¬b.admits f → item = none ∧ lost = true)
  | .ready f block =>
    up = { a.up with lastGood := block, lossRun := 0 } ∧ comfort' = false ∧ lost = false
      ∧ (b.admits f →
        item = some (.record (withCheck (speechBody d b.down.sequence f.mode f.predictor f.stepIndex f.payload))))
      ∧ (¬b.admits f →
        item = some (.job
          { source := .translation, mode := b.radio.active, sequence := b.down.sequence
            samples := block.map (Speech.gain a.fixed.gainToFixed) }
          (time + 80)))
  | .quietNoted level =>
    up = { a.up with comfortLevel := min 63 level.toNat, lossRun := 0 } ∧ comfort' = true ∧ lost = false
      ∧ item = some (.record (withCheck [0x80, BitVec.ofNat 8 d.val, b.down.sequence, level]))
  | .closed =>
    comfort' = comfort ∧ lost = false ∧ item = none
      ∧ up = { a.up with lossRun := if comfort then a.up.lossRun else min 255 (a.up.lossRun + 1) }
  | .waiting => False
  | .decoding _ _ => False

/-- The length of a readable record: the implied length of its octet 0, or one of the four lengths where that implies none
(R67, R69). -/
def lengthAllowed (r : List Octet) : Prop :=
  ∃ first rest, r = first :: rest
    ∧ (first.toNat / 64 = 1 → first.toNat / 16 % 4 ≠ 0 → r.length = 28 + 20 * (first.toNat / 16 % 4))
    ∧ (first.toNat / 64 = 2 → r.length = 6)
    ∧ (first.toNat / 64 = 0 ∨ first.toNat / 64 = 3 ∨ (first.toNat / 64 = 1 ∧ first.toNat / 16 % 4 = 0) →
      r.length = 6 ∨ r.length = 48 ∨ r.length = 68 ∨ r.length = 88)

/-- What makes a readable record bad for a channel with a mode set: its kind, its mode, its start predictor or its start
step index (R71). -/
def badFor (modeSet : BitVec 3) (r : List Octet) : Prop :=
  let kind := (r.getD 0 0).toNat / 64
  let code := (r.getD 0 0).toNat / 16 % 4
  let predictor := ((r.getD 3 0) ++ (r.getD 4 0) : BitVec 16).toInt
  kind = 0 ∨ kind = 3
    ∨ (kind = 1 ∧ (code = 0 ∨ modeSet.getLsbD (code - 1) = false ∨ predictor < -8192 ∨ 8191 < predictor
      ∨ 63 < (r.getD 5 0).toNat))
    ∨ (kind = 2 ∧ code ≠ 0)

/-! ### Relations that every step keeps -/

/-- The Transmit Queue holds at most 32 records, and the transmitter is idle only beside an empty queue (R76, R78). -/
def State.transmitOk (s : State) : Prop :=
  s.transmit.length ≤ 32 ∧ (s.sending = none → s.transmit = [])

/-- Either no engine is FREE or the Job Queue is empty (R128). -/
def State.arbiterOk (s : State) : Prop := s.jobs = [] ∨ ∀ e : Fin 4, s.engines[e.val] ≠ .free

/-- The splice partner relation is symmetric and irreflexive; only an ACTIVE context holds a partner (R151). -/
def State.spliceOk (s : State) : Prop :=
  ∀ a b, (s.life a).partner? = some b → a ≠ b ∧ (s.life b).partner? = some a

/-- A channel stands in a line's event list at most once, and exactly while its record for that line holds a kind
(R190). -/
def State.eventsOk (s : State) : Prop :=
  ∀ l, (s.line l).events.Nodup ∧ ∀ c, c ∈ (s.line l).events ↔ ((s.chan c).events l).kinds ≠ 0

/-- A continuity record reads RUNNING exactly while a check runs, which it does on a HALF_F context only (R168). -/
def State.checksOk (s : State) : Prop :=
  ∀ c, (s.chan c).continuity.result = .running ↔ (s.life c).check?.isSome

/-- The cycle and the phases of every ACTIVE channel lie in 0..159 (R6, R7, R49). -/
def State.phasesOk (s : State) : Prop :=
  s.cycle < 160 ∧ ∀ c a, s.life c = .active a → a.down.phase < 160 ∧ a.up.phase < 160

/-- The fields of every profile within the ranges of R185. -/
def State.profilesOk (s : State) : Prop :=
  ∀ (p : Fin 8) (f : Fin 9), f.val < 8 →
    (profileRange f.val).1 ≤ (s.profiles[p.val]).field f.val ∧ (s.profiles[p.val]).field f.val ≤ (profileRange f.val).2

/-- The Job Queue in its order: no job precedes one before it (R126). -/
def State.jobsOrdered (s : State) : Prop := s.jobs.Pairwise fun a b => b.precedes a = false

/-- At most one job of a channel and a kind is in the pool, queued or running (R125). -/
def State.oneJobEach (s : State) : Prop :=
  ∀ c k, s.jobs.countP (·.isOf c k) + s.engines.toList.countP (fun e => e.job?.any (·.isOf c k)) ≤ 1

/-- The active mode of every radio half is the one R5 derives: under the fixed half's cap in ACTIVE, under mode 32 in
HALF_R. -/
def Life.modeOk : Life → Prop
  | .halfR h => h.radio.active = Mode.derive h.radio.modeSet h.radio.requested .m32
  | .active a => a.radio.active = Mode.derive a.radio.modeSet a.radio.requested a.fixed.cap
  | .free | .halfF _ => True

/-- Every active mode derived as R5 states. -/
def State.modesOk (s : State) : Prop := ∀ c, (s.life c).modeOk

/-- Frames in ascending distance from a reference, every distance within `least`..15 (R82, R83). -/
def ascendingFrom (reference : BitVec 8) (least : Int) (queue : List Frame) : Prop :=
  queue.Pairwise (fun f g => distance f.sequence reference < distance g.sequence reference)
    ∧ ∀ f ∈ queue, least ≤ distance f.sequence reference ∧ distance f.sequence reference ≤ 15

/-- A Receive Queue of at most 6 frames in ascending distance: in PRIMING from the reference sequence, which is there while
the queue is not empty; in PLAYING and COMFORT from the expected sequence, which itself is never queued (R82, R83). -/
def UplinkFields.queueOk (u : UplinkFields) : Prop :=
  u.queue.length ≤ 6 ∧
    match u.stream with
    | .priming none _ => u.queue = []
    | .priming (some reference) _ => ascendingFrom reference 0 u.queue
    | .running _ expected _ => ascendingFrom expected 1 u.queue

/-- The Receive Queue of every ACTIVE channel is as R82 states. -/
def State.queuesOk (s : State) : Prop := ∀ c a, s.life c = .active a → a.up.queueOk

/-- A staging row is EMPTY, OPEN or PENDING: an unlatched row holds nothing; a latched one holds one to four distinct items
of its line (R137). -/
def Row.ok (r : Row) (l : Line) : Prop :=
  match r.latched with
  | none => r.slots = [] ∧ r.pending = false
  | some _ => r.slots ≠ [] ∧ (r.slots.map (·.1)).Nodup ∧ ∀ p ∈ r.slots, p.1.line = l

/-- Both rows well formed, each latched only to a channel that holds its line's half, and PENDING only on an ACTIVE
channel (R137, R141). -/
def State.rowsOk (s : State) : Prop :=
  ∀ l, (s.line l).row.ok l ∧
    ∀ c, (s.line l).row.latched = some c →
      (s.life c).holds l = true ∧ ((s.line l).row.pending = true → (s.life c).lifecycle = .active)

/-- The timeslot map in step with the contexts and the F row: an entry is BOUND to a channel exactly where the channel's
fixed half names the timeslot, and RESERVED for a channel exactly while the F row is PENDING on it with a TIMESLOT item for
a timeslot other than its own (R51). -/
def State.mapOk (s : State) : Prop :=
  ∀ t c,
    ((s.slot t).entry = .bound c ↔ ∃ f, (s.life c).fixed? = some f ∧ f.timeslot = t)
      ∧ ((s.slot t).entry = .reserved c ↔
        (s.pendingOn .F c = true ∧ s.lineF.row.timeslot? = some t ∧ ∀ f, (s.life c).fixed? = some f → f.timeslot ≠ t))

/-- A linear sample or a predictor within the range of R39. -/
def sampleInRange (x : Int) : Prop := -8192 ≤ x ∧ x ≤ 8191

/-- A block of samples within the linear range (R39). -/
def blockInRange (b : Block) : Prop := ∀ x ∈ b, sampleInRange x

/-- The start state of a SPEECH frame within the ranges of R39. -/
def SpeechFrame.inRange (f : SpeechFrame) : Prop := sampleInRange f.predictor ∧ f.stepIndex ≤ 63

/-- The samples and start states that a decode window holds within the ranges of R39. -/
def WindowState.inRange : WindowState → Prop
  | .decoding f _ => f.inRange
  | .ready f block => f.inRange ∧ blockInRange block
  | .direct f => f.inRange
  | .waiting | .quietNoted _ | .closed => True

/-- The samples and start states of a job within the ranges of R39. -/
def Work.inRange : Work → Prop
  | .encode e start => blockInRange e.samples ∧ sampleInRange start.predictor ∧ start.stepIndex ≤ 63
  | .decode f => f.inRange

/-- Every sample, predictor and step index that an ACTIVE context holds within the ranges of R39. -/
def Active.inRange (a : Active) : Prop :=
  blockInRange a.down.ring ∧ sampleInRange a.down.predictor ∧ a.down.stepIndex ≤ 63 ∧ blockInRange a.up.lastGood
    ∧ (∀ f, Frame.speech f ∈ a.up.queue → f.inRange)
    ∧ (∀ comfort expected w, a.up.stream = .running comfort expected w → w.state.inRange)
    ∧ ∀ e deadline, Held.job e deadline ∈ a.down.held → blockInRange e.samples

/-- Every linear sample, predictor value, block sample and step index that the part holds within the ranges of R39. -/
def State.rangesOk (s : State) : Prop :=
  (∀ c a, s.life c = .active a → a.inRange) ∧ (∀ j ∈ s.jobs, j.work.inRange)
    ∧ ∀ (e : Fin 4) j, (s.engines[e.val]).job? = some j → j.work.inRange

end Sys2Proof.Machine
end

