-- ==== Sys2Proof/Certificates/Slice0/Obligations.lean ====
section
/-! DEFINITION. The statements made about the part. -/

open Sys2Proof Sys2Proof.Machine

/-! ### The machine's own step -/

/-- A step carries out the command at the front of the queue on the state with the queue's rest; no command faults, is
refused or touches the commands that wait. On an empty queue one core clock passes when every point of the current sample
time has been taken and nothing ends before it, and nothing happens otherwise (the model's choice, notes/assumptions/1.md). -/
def Obligations.StepTakesTheFrontCommand : Prop :=
  (∀ (c : Instr) (rest : List Instr) (s : State), s.pending = c :: rest → step s = exec c { s with pending := rest })
    ∧ (∀ (c : Instr) (s : State), ∃ t, exec c s = .next t ∧ t.pending = s.pending)
    ∧ ∀ s : State, s.pending = [] →
      ∃ t, step s = .next t
        ∧ (s.outstanding = false → s.nothingEndsBefore (s.clock + 1) = true → t = { s with clock := s.clock + 1 })
        ∧ (s.outstanding = true ∨ s.nothingEndsBefore (s.clock + 1) = false → t = s)

/-! ### Power, reset and start-up -/

/-- POWER_ON leaves every block at its reset values with the start-up wait begun; READY will write POWER_ON. RESET_LOW stops
the part with everything at its power-on values, and RESET_RISE, from RESET low, begins the start-up wait at those values;
READY will write RESET_PIN. That the values stand at RESET_LOW itself, and that RESET_RISE with RESET not low changes
nothing, is the model's choice (notes/assumptions/6.md). -/
def Obligations.PowerOnAndResetPinResetEveryBlock : Prop :=
  (∀ s : State, ∃ t, exec .powerOn s = .next t ∧ t.atPowerOn ∧ t.run = .waiting 0 ∧ t.startKind = .powerOn
      ∧ t.pending = s.pending)
    ∧ (∀ s : State, ∃ t, exec .resetLow s = .next t ∧ t.atPowerOn ∧ t.run = .resetLow ∧ t.pending = s.pending)
      ∧ (∀ s : State, s.run = .resetLow →
        ∃ t, exec .resetRise s = .next t ∧ t.atPowerOn ∧ t.run = .waiting 0 ∧ t.startKind = .resetPin
          ∧ t.pending = s.pending)
      ∧ ∀ s : State, s.run ≠ .resetLow → exec .resetRise s = .next s

/-! ### Frame syncs -/

/-- In the start-up wait each of the first 511 frame syncs is counted and nothing else changes but the counted time. READY
at the 512th: the cycle is 0, both node addresses are latched from the straps, the restart cause is written, the part is
READY, and the other parts stay as they were. -/
def Obligations.StartUpWaitEndsInReady : Prop :=
  (∀ (incoming : Vector Octet 128) (n : Nat) (s : State), s.run = .waiting n → n < 511 →
      ∃ t, exec (.frameSync incoming) s = .next t ∧ t.run = .waiting (n + 1)
        ∧ { t with run := s.run, time := s.time, clock := s.clock, syncClock := s.syncClock } = s)
    ∧ ∀ (strapF strapR : BitVec 3) (s : State), s.run = .waiting 511 →
      ∃ t, exec (.ready strapF strapR) s = .next t ∧ t.run = .ready ∧ t.cycle = 0 ∧ t.cause = s.startKind
        ∧ t.lineF = { s.lineF with node := strapF } ∧ t.lineR = { s.lineR with node := strapR }
        ∧ t.time = s.time + 1 ∧ t.clock = t.syncClock ∧ t.channels = s.channels ∧ t.timeslots = s.timeslots
        ∧ t.profiles = s.profiles ∧ t.pattern = s.pattern ∧ t.mask = s.mask ∧ t.pool = s.pool ∧ t.link = s.link
        ∧ t.unreadable = s.unreadable ∧ t.stray = s.stray ∧ t.begun = s.begun ∧ t.restartDue = s.restartDue
        ∧ t.pending = s.pending

/-- A frame sync of a READY part, once the ended sample time's points have been taken: the time and the cycle advance. The
octet of a channel's feed goes to the ring of an ACTIVE channel that collected, or that entered ACTIVE at this very moment
and is not spliced (notes/assumptions/5.md); in the next sample time the feed is the channel's timeslot, and an ACTIVE
channel collects exactly when it is not spliced. A HALF_F channel with no check, a HALF_R channel and the Line Units change
only in that a timer set at this very moment expires one sample time later (notes/assumptions/5.md). Every timeslot sends
one octet: 00H from IDLE or from a block at its end, the next octet of a block or a pattern else; an ended pattern gives way
to IDLE; no map entry changes. The moment of the frame sync, and that a frame sync before the points are taken does nothing,
are the model's choice (notes/assumptions/2.md, 3.md). -/
def Obligations.FrameSyncExchangesOneOctetPerTimeslot : Prop :=
  ∀ (incoming : Vector Octet 128) (s : State), s.run = .ready → s.outstanding = false →
    s.nothingEndsBefore s.syncMoment = true →
    ∃ t, exec (.frameSync incoming) s = .next t ∧ t.time = s.time + 1 ∧ t.cycle = (s.cycle + 1) % 160
      ∧ t.clock = max s.clock (s.syncClock + 4096) ∧ t.syncClock = t.clock ∧ t.run = .ready
      ∧ t.startKind = s.startKind ∧ t.cause = s.cause ∧ t.unreadable = s.unreadable ∧ t.stray = s.stray
      ∧ t.restartDue = s.restartDue
      ∧ t.pool = s.pool ∧ t.link = s.link ∧ t.profiles = s.profiles ∧ t.pattern = s.pattern ∧ t.mask = s.mask
      ∧ t.begun = s.begun ∧ t.pending = s.pending
      ∧ (∀ c a, s.life c = .active a →
        t.chan c = { s.chan c with life := .active { a with
          fixed := { a.fixed with feed := a.fixed.timeslot }
          down := { a.down with
            ring :=
              if a.down.collecting = true ∨ (a.down.entryClock = s.syncMoment ∧ a.partner = none) then
                a.down.ring.drop 1 ++ [Speech.expand incoming[a.fixed.feed.val]]
              else a.down.ring
            collecting := decide (a.partner = none) } } })
      ∧ (∀ c h, s.life c = .halfF h → h.check = none →
        t.chan c = { s.chan c with life := .halfF { h with
          fixed := { h.fixed with feed := h.fixed.timeslot }, timer := s.timerAfterSync h.timer } })
      ∧ (∀ c h, s.life c = .halfR h →
        t.chan c = { s.chan c with life := .halfR { h with timer := s.timerAfterSync h.timer } })
      ∧ (∀ c, s.life c = .free → t.chan c = s.chan c)
      ∧ (∀ l, { s.line l with
          expiry := s.timerAfterSync (s.line l).expiry
          request := s.timerAfterSync (s.line l).request }.sameButList (t.line l))
      ∧ ∀ x,
      (t.slot x).entry = (s.slot x).entry
        ∧ ((s.slot x).source = .idle → (t.slot x).source = .idle ∧ (t.slot x).out = 0)
        ∧ ((s.slot x).source = .pattern [] → (t.slot x).source = .idle ∧ (t.slot x).out = 0)
        ∧ ((s.slot x).source = .block [] → (t.slot x).source = .block [] ∧ (t.slot x).out = 0)
        ∧ (∀ o rest, (s.slot x).source = .pattern (o :: rest) →
          (t.slot x).source = .pattern rest ∧ (t.slot x).out = o)
        ∧ ∀ o rest, (s.slot x).source = .block (o :: rest) → (t.slot x).source = .block rest ∧ (t.slot x).out = o

/-- At a frame sync the octet of a sample time from s0 on joins a RUNNING check's window of the latest 16; one of an earlier
sample time is discarded. The octet is that of the channel's feed. A full window equal to the pattern at every position of
the mask ends the check PASSED, with the delay from s0 to the window's oldest octet and CONTINUITY_DONE for the F line
alone; a window that differs leaves the check RUNNING. CONTINUITY_TIMEOUT, once the octet of sample time s0 + 4000 has been
compared, ends it NO_RETURN with delay 0 and nothing else changed but the F line's event list. -/
def Obligations.ContinuityWindowsAreCompared : Prop :=
  (∀ (incoming : Vector Octet 128) (s : State) (c : Chan) (h : HalfF) (k : Check) (w : List Octet), s.run = .ready →
      s.outstanding = false → s.nothingEndsBefore s.syncMoment = true → s.life c = .halfF h → h.check = some k →
      k.window.length ≤ 16 →
      w = (k.window ++ [incoming[h.fixed.feed.val]]).drop (k.window.length + 1 - 16) →
      ∃ t h', exec (.frameSync incoming) s = .next t ∧ t.life c = .halfF h'
        ∧ h'.fixed = { h.fixed with feed := h.fixed.timeslot } ∧ h'.tag = h.tag
        ∧ h'.timer = s.timerAfterSync h.timer
        ∧ (t.chan c).counters = (s.chan c).counters ∧ (t.chan c).eventsR = (s.chan c).eventsR
        ∧ (s.time < k.start →
          h'.check = some k ∧ (t.chan c).continuity = (s.chan c).continuity
            ∧ (t.chan c).eventsF = (s.chan c).eventsF)
        ∧ (k.start ≤ s.time →
          w.length = 16 ∧ (∀ j : Fin 16, s.mask.getLsbD j.val = true → w.getD j.val 0 = s.pattern[j.val]) →
          h'.check = none ∧ (t.chan c).continuity = { result := .passed, delay := s.time - 15 - k.start }
            ∧ (t.chan c).eventsF = s.recordedFor .F .continuityDone (s.chan c).eventsF)
        ∧ (k.start ≤ s.time →
          ¬(w.length = 16 ∧ ∀ j : Fin 16, s.mask.getLsbD j.val = true → w.getD j.val 0 = s.pattern[j.val]) →
          h'.check = some { start := k.start, window := w }
            ∧ (t.chan c).continuity = (s.chan c).continuity ∧ (t.chan c).eventsF = (s.chan c).eventsF))
    ∧ ∀ (c : Chan) (s : State) (h : HalfF) (k : Check), s.life c = .halfF h → h.check = some k →
      k.start + 4000 < s.time →
      ∃ t, exec (.continuityTimeout c) s = .next t ∧ s.streamFrame t [c] [] ∧ t.pool = s.pool ∧ t.link = s.link
        ∧ s.sameLines t
        ∧ t.chan c = { s.chan c with
            life := .halfF { h with check := none }
            continuity := { result := .noReturn, delay := 0 }
            eventsF := s.recordedFor .F .continuityDone (s.chan c).eventsF }

/-! ### Downlink boundaries -/

/-- A downlink boundary of an unspliced channel. The rows PENDING on it apply first, and the context as they leave it is what
the frame is judged by: the activity A of the newest 160 samples under its to-radio gain, its quiet threshold, its DTX
enable, its offset S. The activity follows R110 and R111 and the quiet-interval count R113; the sequence advances by one;
the next boundary falls 160 + S sample times on, the phase moves by S, and the offset is consumed. Each line's record takes
COMMIT_APPLIED for its row and ACTIVITY_CHANGED where its copy differs from the updated activity. The ring, the encoder
state, both halves' other fields, the uplink, the continuity record, every other channel and every timeslot that the rows do
not move stay. -/
def Obligations.BoundaryUpdatesTheDownlinkFields : Prop :=
  ∀ (c : Chan) (s : State) (a : Active) (n : Nat), s.rowsOk → s.life c = .active a → a.partner = none →
    a.down.boundary = some n → n ≤ s.time →
    ∃ t a' b A, exec (.downlinkBoundary c) s = .next t ∧ t.device = s.device ∧ s.sameChannels t [c]
      ∧ s.rowsApplied t c a a' ∧ A = Speech.activity a'.frame ∧ t.life c = .active b
      ∧ (∀ l, { s.line l with
          row := (t.line l).row, lineEvents := (t.line l).lineEvents }.sameButList (t.line l))
      ∧ (t.chan c).continuity = (s.chan c).continuity
      ∧ (∀ l, (t.chan c).events l
        = if (match l with | .F => a.copyF | .R => a.copyR) = b.down.activity then s.appliedFor l c
          else s.recordedFor l .activityChanged (s.appliedFor l c))
      ∧ b.tag = a.tag ∧ b.fixed = a'.fixed ∧ b.radio = { a'.radio with offset := 0 } ∧ b.partner = none
      ∧ b.copyF = a.copyF ∧ b.copyR = a.copyR ∧ b.up = a.up ∧ b.down.ring = a.down.ring
      ∧ b.down.collecting = a.down.collecting ∧ b.down.entryClock = a.down.entryClock
      ∧ b.down.predictor = a.down.predictor ∧ b.down.stepIndex = a.down.stepIndex
      ∧ b.down.sequence = a.down.sequence + 1
      ∧ b.down.boundary = some ((s.time : Int) + 160 + a'.radio.offset).toNat
      ∧ (b.down.phase : Int) = ((a.down.phase : Int) + a'.radio.offset) % 160
      ∧ (a.down.activity = .talk → a'.fixed.quietThreshold ≤ A → b.down.activity = .talk ∧ b.down.lowRun = 0)
      ∧ (a.down.activity = .talk → A < a'.fixed.quietThreshold → a.down.lowRun < a'.fixed.hangover →
        b.down.activity = .talk ∧ b.down.lowRun = a.down.lowRun + 1)
      ∧ (a.down.activity = .talk → A < a'.fixed.quietThreshold → a.down.lowRun = a'.fixed.hangover →
        b.down.activity = .quiet ∧ b.down.lowRun = 0 ∧ b.down.weakOnset = false)
      ∧ (a.down.activity = .quiet → 2 * a'.fixed.quietThreshold ≤ A →
        b.down.activity = .talk ∧ b.down.weakOnset = false ∧ b.down.lowRun = 0)
      ∧ (a.down.activity = .quiet → a'.fixed.quietThreshold ≤ A → A < 2 * a'.fixed.quietThreshold →
        a.down.weakOnset = false → b.down.activity = .quiet ∧ b.down.weakOnset = true)
      ∧ (a.down.activity = .quiet → a'.fixed.quietThreshold ≤ A → A < 2 * a'.fixed.quietThreshold →
        a.down.weakOnset = true → b.down.activity = .talk ∧ b.down.weakOnset = false ∧ b.down.lowRun = 0)
      ∧ (a.down.activity = .quiet → A < a'.fixed.quietThreshold →
        b.down.activity = .quiet ∧ b.down.weakOnset = false)
      ∧ (a'.radio.dtx = false ∨ b.down.activity = .talk → b.down.quietCount = 0)
      ∧ (a'.radio.dtx = true → a.down.activity = .talk → b.down.activity = .quiet → b.down.quietCount = 1)
      ∧ (a'.radio.dtx = true → a.down.activity = .quiet → b.down.activity = .quiet →
        b.down.quietCount = if a.down.quietCount = 0 then 1 else (a.down.quietCount + 1) % a'.fixed.quietInterval)

/-- A boundary that decides SPEECH, with DTX off or with the activity TALK once updated, forms an ENCODE job with the gained
frame, the active mode, the sequence of the boundary and the deadline 80 sample times on. The gain, the threshold, the DTX
enable and the mode are those in force once the rows PENDING on the channel have been applied. With an ENCODE of the channel
in the pool, or an item held, the job is held behind it and the pool is untouched. Else it is offered with the channel's
encoder state: it starts on the lowest-numbered FREE engine, or joins the Job Queue in key order. The transmit path, the
counters and the line event sets are untouched. -/
def Obligations.BoundaryOffersTheEncodeJob : Prop :=
  ∀ (c : Chan) (s : State) (a : Active) (n : Nat), s.rowsOk → s.life c = .active a → a.partner = none →
    a.down.boundary = some n → n ≤ s.time →
    ∃ t a' b, exec (.downlinkBoundary c) s = .next t ∧ s.rowsApplied t c a a' ∧ t.life c = .active b
      ∧ (a'.decidesSpeech (Speech.activity a'.frame) →
        t.device = s.device ∧ s.sameChannels t [c] ∧ t.link = s.link ∧ (s.withRowsOf t).sameLines t
          ∧ (∀ k, (t.chan c).counter k = (s.chan c).counter k)
          ∧ b.down.predictor = a.down.predictor ∧ b.down.stepIndex = a.down.stepIndex
          ∧ ∀ work : EncodeWork,
            work =
              { source := .boundary, mode := a'.radio.active, samples := a'.frame, sequence := a.down.sequence } →
            (s.inPool c .encode = true ∨ a.down.held ≠ [] →
              t.pool = s.pool ∧ b.down.held = a.down.held ++ [.job work (s.time + 80)])
            ∧ (s.inPool c .encode = false → a.down.held = [] →
              b.down.held = []
                ∧ s.jobOffered t
                  { channel := c
                    deadline := s.time + 80
                    work := .encode work ⟨a.down.predictor, a.down.stepIndex⟩
                    discard := false }))

/-- A boundary with DTX on and the activity QUIET once updated decides a QUIET record or nothing. It decides the record
where it turns the channel QUIET, or finds it QUIET with the quiet-interval count 0 and a frame below the threshold or the
first moderate one; found QUIET with another count it hands nothing on: the pool, the transmit path, the held items, every
counter and the line event sets stay. All this is judged by the context as the rows PENDING on the channel leave it. The
record is of four octets and a CRC-16. With nothing of the channel waiting it is offered to the Transmit Queue: it goes
straight to an idle transmitter for 96 core clocks (from its taking: the model's choice, notes/assumptions/10.md) or is
appended, and is counted as sent, or is dropped at a queue of 32, with a transmit drop and QUEUE_OVERFLOW for both lines.
With an ENCODE of the channel in the pool, or an item held, it is held behind it. Either way the pool is untouched and the
encoder state kept. -/
def Obligations.BoundarySendsTheQuietRecord : Prop :=
  ∀ (c : Chan) (s : State) (a : Active) (n : Nat), s.rowsOk → s.life c = .active a → a.partner = none →
    a.down.boundary = some n → n ≤ s.time →
    ∃ t a' b A, exec (.downlinkBoundary c) s = .next t ∧ s.rowsApplied t c a a' ∧ t.life c = .active b
      ∧ A = Speech.activity a'.frame
      ∧ (a'.decidesRecord A ∨ a'.decidesNothing A →
        t.device = s.device ∧ s.sameChannels t [c] ∧ t.pool = s.pool ∧ b.down.predictor = a.down.predictor
          ∧ b.down.stepIndex = a.down.stepIndex ∧ (t.chan c).continuity = (s.chan c).continuity)
      ∧ (a'.decidesNothing A →
        t.link = s.link ∧ b.down.held = a.down.held ∧ (s.withRowsOf t).sameLines t
          ∧ ∀ k, (t.chan c).counter k = (s.chan c).counter k)
      ∧ ∀ r : Record, r = withCheck
          [0x80, BitVec.ofNat 8 c.val, a.down.sequence, BitVec.ofNat 8 (Speech.quietLevel A)] →
        a'.decidesRecord A →
        (s.inPool c .encode = true ∨ a.down.held ≠ [] →
          t.link = s.link ∧ (s.withRowsOf t).sameLines t ∧ b.down.held = a.down.held ++ [.record r]
            ∧ ∀ k, (t.chan c).counter k = (s.chan c).counter k)
        ∧ (s.inPool c .encode = false → a.down.held = [] →
          b.down.held = [] ∧ (s.withRowsOf t).recordCounted t c r)

/-- At a boundary ACTIVITY_CHANGED is recorded for each line whose reported copy differs from the updated activity and whose
event mask allows it, and for no other; the copies stay. Nothing but a boundary of an unspliced channel records it for that
channel. -/
def Obligations.BoundaryReportsTheActivity : Prop :=
  (∀ (c : Chan) (s : State) (a : Active) (n : Nat), s.life c = .active a → a.partner = none →
    a.down.boundary = some n → n ≤ s.time →
    ∃ t b, exec (.downlinkBoundary c) s = .next t ∧ t.life c = .active b ∧ b.copyF = a.copyF ∧ b.copyR = a.copyR
      ∧ ∀ l, ((t.chan c).events l).kinds.getLsbD Kind.activityChanged.bit
        = (((s.chan c).events l).kinds.getLsbD Kind.activityChanged.bit
          || ((s.line l).settings.eventMask.getLsbD Kind.activityChanged.bit
            && decide ((match l with | .F => a.copyF | .R => a.copyR) ≠ b.down.activity))))
    ∧ ∀ (i : Instr) (s t : State) (c : Chan) (l : Line), exec i s = .next t →
      ((t.chan c).events l).kinds.getLsbD Kind.activityChanged.bit = true →
      ((s.chan c).events l).kinds.getLsbD Kind.activityChanged.bit = true
        ∨ (i = .downlinkBoundary c ∧ ∃ a, s.life c = .active a ∧ a.partner = none)

/-- A downlink boundary applies a line's PENDING row whole: the row is EMPTY afterwards, COMMIT_APPLIED stands in the
channel's record for that line where its mask allows it, each field a staged item names holds the staged value, and no other
field of the line's half changes. The active mode is derived afresh where MODE or MODE_SET was staged. A TIMESLOT moves the
channel in one step: the new timeslot is BOUND and goes on with the source and the octet of the old one, which is FREE and
sends 00H, and the channel's octets come from the new one; its own timeslot changes nothing. An ALIGN is consumed at this
boundary. -/
def Obligations.BoundaryAppliesThePendingRow : Prop :=
  ∀ (c : Chan) (s : State) (l : Line) (a : Active) (n : Nat), s.rowsOk → s.life c = .active a → a.partner = none →
    a.down.boundary = some n → n ≤ s.time → s.pendingOn l c = true →
    ∃ t b, exec (.downlinkBoundary c) s = .next t ∧ t.life c = .active b ∧ t.device = s.device
      ∧ (t.line l).row = { latched := none, slots := [], pending := false }
      ∧ ((s.line l).settings.eventMask.getLsbD Kind.commitApplied.bit = true →
        ((t.chan c).events l).kinds.getLsbD Kind.commitApplied.bit = true)
      ∧ (l = .F → s.lineF.row.setsFixed a.fixed b.fixed
        ∧ ((∀ v, (Item.timeslot, v) ∉ s.lineF.row.slots) →
          b.fixed.timeslot = a.fixed.timeslot ∧ b.fixed.feed = a.fixed.feed ∧ s.sameSlots t []))
      ∧ (l = .R →
        ∃ radio, s.lineR.row.setsRadio a.fixed.cap a.radio radio ∧ b.radio = { radio with offset := 0 }
          ∧ b.down.boundary = some ((s.time : Int) + 160 + radio.offset).toNat
          ∧ (b.down.phase : Int) = ((a.down.phase : Int) + radio.offset) % 160)
      ∧ ∀ v (x : Slot), (Item.timeslot, v) ∈ (s.line l).row.slots → x.val = v.toNat →
        b.fixed.timeslot = x ∧ s.sameSlots t [x, a.fixed.timeslot] ∧ b.down.ring = a.down.ring
          ∧ b.down.collecting = a.down.collecting
          ∧ (x = a.fixed.timeslot → t.slot x = s.slot x ∧ b.fixed.feed = a.fixed.feed)
          ∧ (x ≠ a.fixed.timeslot → b.fixed.feed = x
            ∧ t.slot x = { s.slot a.fixed.timeslot with entry := .bound c }
            ∧ t.slot a.fixed.timeslot = { entry := .free, source := .idle, out := 0 })

/-! ### Playout instants -/

/-- An instant in PRIMING that does not end priming: the channel's timeslot plays 160 octets of 00H, the priming count rises
by one up to 255, the next instant falls 160 sample times on, and nothing else changes. -/
def Obligations.PrimingInstantPlaysSilence : Prop :=
  ∀ (c : Chan) (s : State) (a : Active) (reference : Option (BitVec 8)) (count : Nat), s.life c = .active a →
    a.partner = none → a.up.instant ≤ s.time → a.up.stream = .priming reference count →
    ¬(a.fixed.primingDepth ≤ a.up.queue.length
      ∨ (a.up.queue ≠ [] ∧ a.fixed.primingDepth + 2 ≤ min 255 (count + 1))) → 1 ≤ a.fixed.primingDepth →
    ∃ t, exec (.playoutInstant c) s = .next t ∧ s.streamFrame t [c] [a.fixed.timeslot] ∧ t.pool = s.pool
      ∧ t.link = s.link ∧ s.sameLines t
      ∧ t.chan c = { s.chan c with life := .active { a with up := { a.up with
          instant := s.time + 160, stream := .priming reference (min 255 (count + 1)) } } }
      ∧ t.slot a.fixed.timeslot = { s.slot a.fixed.timeslot with source := .block (List.replicate 159 0), out := 0 }

/-- An instant that ends PRIMING: the block it plays is 160 octets of 00H, the expected sequence is the head's, and a decode
window opens for the instant 160 sample times on with its deadline 152 sample times on. The window takes the head out of the
queue: a QUIET head is noted; a SPEECH head has its DECODE offered, which starts on the lowest-numbered FREE engine or joins
the Job Queue in key order, or is held behind a DECODE of the channel. Nothing else changes. -/
def Obligations.PrimingEndsWithTheHeadFrame : Prop :=
  ∀ (c : Chan) (s : State) (a : Active) (reference : Option (BitVec 8)) (count : Nat) (head : Frame)
    (rest : List Frame), s.life c = .active a → a.partner = none → a.up.instant ≤ s.time →
    a.up.stream = .priming reference count → a.up.queue = head :: rest →
    (a.fixed.primingDepth ≤ a.up.queue.length ∨ a.fixed.primingDepth + 2 ≤ min 255 (count + 1)) →
    ∃ t queue next, exec (.playoutInstant c) s = .next t ∧ s.streamFrame t [c] [a.fixed.timeslot] ∧ t.link = s.link
      ∧ s.sameLines t
      ∧ t.slot a.fixed.timeslot
        = { s.slot a.fixed.timeslot with source := .block (List.replicate 159 0), out := 0 }
      ∧ s.windowOpens t c none a.up.queue head.sequence queue next
      ∧ ((∀ g ∈ rest, g.sequence ≠ head.sequence) → queue = rest)
      ∧ t.chan c = { s.chan c with life := .active { a with up := { a.up with
          instant := s.time + 160, queue
          stream := .running false head.sequence { deadline := s.time + 152, state := next } } } }

/-- An instant that finds a READY window on an unspliced channel: the decoded block plays under the to-fixed gain, becomes
the last good block, the loss run is 0, the stream is PLAYING, and the expected sequence advances by one. The window of the
next instant opens: it takes the queued frame with that sequence, or waits. -/
def Obligations.ReadyWindowPlaysTheDecodedBlock : Prop :=
  ∀ (c : Chan) (s : State) (a : Active) (comfort : Bool) (expected : BitVec 8) (w : Window) (f : SpeechFrame)
    (block : Block), s.life c = .active a → a.partner = none → a.up.instant ≤ s.time →
    a.up.stream = .running comfort expected w → w.state = .ready f block →
    ∃ t octets queue next, exec (.playoutInstant c) s = .next t ∧ s.streamFrame t [c] [a.fixed.timeslot]
      ∧ t.link = s.link ∧ s.sameLines t
      ∧ octets = block.map (fun x => Speech.compress (Speech.gain a.fixed.gainToFixed x))
      ∧ t.slot a.fixed.timeslot
        = { s.slot a.fixed.timeslot with source := .block (octets.drop 1), out := octets.headD 0 }
      ∧ s.windowOpens t c none a.up.queue (expected + 1) queue next
      ∧ t.chan c = { s.chan c with life := .active { a with up := { a.up with
          instant := s.time + 160, lastGood := block, lossRun := 0, queue
          stream := .running false (expected + 1) { deadline := s.time + 152, state := next } } } }

/-- An instant that finds a QUIET_NOTED window on an unspliced channel: the comfort level is the level octet, 63 for any
above, the stream is COMFORT, the loss run 0, and a comfort block of that level plays, whose register the context keeps. A
CLOSED window in COMFORT plays a comfort block at the level held. The last good block stays, and the window of the next
instant opens. -/
def Obligations.ComfortBlocksAreGenerated : Prop :=
  ∀ (c : Chan) (s : State) (a : Active) (comfort : Bool) (expected : BitVec 8) (w : Window) (level : Nat)
    (block : Block) (noise : BitVec 16), s.life c = .active a → a.partner = none → a.up.instant ≤ s.time →
    a.up.stream = .running comfort expected w →
    ((∃ octet : Octet, w.state = .quietNoted octet ∧ level = min 63 octet.toNat)
      ∨ (w.state = .closed ∧ comfort = true ∧ level = a.up.comfortLevel)) →
    Speech.comfortBlock level a.up.noise = (block, noise) →
    ∃ t octets queue next, exec (.playoutInstant c) s = .next t ∧ s.streamFrame t [c] [a.fixed.timeslot]
      ∧ t.link = s.link ∧ s.sameLines t
      ∧ octets = block.map (fun x => Speech.compress (Speech.gain a.fixed.gainToFixed x))
      ∧ t.slot a.fixed.timeslot
        = { s.slot a.fixed.timeslot with source := .block (octets.drop 1), out := octets.headD 0 }
      ∧ s.windowOpens t c none a.up.queue (expected + 1) queue next
      ∧ t.chan c = { s.chan c with life := .active { a with up := { a.up with
          instant := s.time + 160, comfortLevel := level, noise := noise, queue
          lossRun := if w.state = .closed then a.up.lossRun else 0
          stream := .running true (expected + 1) { deadline := s.time + 152, state := next } } } }

/-- An instant that finds a CLOSED window in PLAYING on an unspliced channel: the loss run rises by one up to 255, the last
good block plays scaled by 192 >> (c − 1) up to L and zeros beyond, the blocks-concealed counter rises, and MUTED is warned
for both lines at c = L alone. The window of the next instant opens. -/
def Obligations.ClosedWindowConceals : Prop :=
  ∀ (c : Chan) (s : State) (a : Active) (expected : BitVec 8) (w : Window) (run : Nat), s.life c = .active a →
    a.partner = none → a.up.instant ≤ s.time → a.up.stream = .running false expected w → w.state = .closed →
    run = min 255 (a.up.lossRun + 1) →
    ∃ t block octets queue next, exec (.playoutInstant c) s = .next t ∧ s.streamFrame t [c] [a.fixed.timeslot]
      ∧ t.link = s.link ∧ s.sameLines t
      ∧ block = (if run ≤ a.fixed.lossToMute then a.up.lastGood.map (Speech.gain (192 >>> (run - 1)))
          else List.replicate 160 0)
      ∧ octets = block.map (fun x => Speech.compress (Speech.gain a.fixed.gainToFixed x))
      ∧ t.slot a.fixed.timeslot
        = { s.slot a.fixed.timeslot with source := .block (octets.drop 1), out := octets.headD 0 }
      ∧ s.windowOpens t c none a.up.queue (expected + 1) queue next
      ∧ t.life c = .active { a with up := { a.up with
          instant := s.time + 160, lossRun := run, queue
          stream := .running false (expected + 1) { deadline := s.time + 152, state := next } } }
      ∧ (∀ k, (t.chan c).counter k
        = if k = .blocksConcealed then saturatingSucc ((s.chan c).counter k) else (s.chan c).counter k)
      ∧ (t.chan c).eventsF
        = (if run = a.fixed.lossToMute then s.warnedFor .F .muted (s.chan c).eventsF else (s.chan c).eventsF)
      ∧ (t.chan c).eventsR
        = (if run = a.fixed.lossToMute then s.warnedFor .R .muted (s.chan c).eventsR else (s.chan c).eventsR)
      ∧ (t.chan c).continuity = (s.chan c).continuity

/-- An instant of channel c spliced to d. The rows PENDING on d apply first, in PRIMING too: every item of them, with
COMMIT_APPLIED for the row's line; what follows is judged against d as they leave it. In PRIMING nothing goes toward d and c
primes as an unspliced channel does. In PLAYING and COMFORT the row of R155 that the window's state selects says what goes
toward d and what c accounts: a record is offered to the Transmit Queue, a translation ENCODE to the pool with d's encoder
state, or either is held behind an ENCODE or an item of d; a frame that d no longer admits counts as an encode miss of d.
d's sequence advances by one; the window of the next instant opens, its DECODE offered after a translation. The exact end of
a record sent is the model's choice (notes/assumptions/10.md). -/
def Obligations.SplicedInstantForwardsDirectly : Prop :=
  ∀ (c d : Chan) (s : State) (a b : Active), s.rowsOk → c ≠ d → s.life c = .active a → a.partner = some d →
    s.life d = .active b → a.up.instant ≤ s.time →
    (∀ reference count, a.up.stream = .priming reference count →
      ∃ t b' queue stream, exec (.playoutInstant c) s = .next t ∧ t.device = s.device ∧ s.sameChannels t [c, d]
        ∧ t.link = s.link ∧ s.rowsApplied t d b b'
        ∧ (∀ l, { s.line l with row := (t.line l).row }.sameButList (t.line l))
        ∧ t.chan d = { s.chan d with
            life := .active { b' with down := { b'.down with sequence := b.down.sequence + 1 } }
            eventsF := s.appliedFor .F d, eventsR := s.appliedFor .R d }
        ∧ t.chan c = { s.chan c with life := .active { a with up := { a.up with
            instant := s.time + 160, queue, stream } } }
        ∧ (a.up.queue = []
            ∨ ¬(a.fixed.primingDepth ≤ a.up.queue.length ∨ a.fixed.primingDepth + 2 ≤ min 255 (count + 1)) →
          queue = a.up.queue ∧ stream = .priming reference (min 255 (count + 1)) ∧ t.pool = s.pool)
        ∧ ∀ head rest, a.up.queue = head :: rest →
          a.fixed.primingDepth ≤ a.up.queue.length ∨ a.fixed.primingDepth + 2 ≤ min 255 (count + 1) →
          ∃ next, stream = .running false head.sequence { deadline := s.time + 152, state := next }
            ∧ s.windowOpens t c (some b') a.up.queue head.sequence queue next)
    ∧ ∀ (comfort : Bool) (expected : BitVec 8) (w : Window) (waits : Bool),
      a.up.stream = .running comfort expected w → w.state ≠ .waiting → (∀ f held, w.state ≠ .decoding f held) →
      waits = (s.inPool d .encode || !b.down.held.isEmpty) →
      ∃ t b' item lost up comfort' queue next, exec (.playoutInstant c) s = .next t ∧ t.device = s.device
        ∧ s.sameChannels t [c, d] ∧ s.rowsApplied t d b b'
        ∧ (∀ l, { s.line l with
            row := (t.line l).row, lineEvents := (t.line l).lineEvents }.sameButList (t.line l))
        ∧ a.splicedRow comfort w.state d b' s.time item lost up comfort'
        ∧ t.life c = .active { a with up := { up with
            instant := s.time + 160, queue
            stream := .running comfort' (expected + 1) { deadline := s.time + 152, state := next } } }
        ∧ (t.chan c).continuity = (s.chan c).continuity
        ∧ (∀ k, (t.chan c).counter k
          = if k = .blocksConcealed ∧ w.state = .closed ∧ comfort = false then saturatingSucc ((s.chan c).counter k)
            else (s.chan c).counter k)
        ∧ (∀ l, (t.chan c).events l
          = if w.state = .closed ∧ comfort = false ∧ up.lossRun = a.fixed.lossToMute then
              s.warnedFor l .muted ((s.chan c).events l)
            else (s.chan c).events l)
        ∧ t.life d = .active { b' with down := { b'.down with
            sequence := b.down.sequence + 1
            held := if waits then b.down.held ++ item.toList else [] } }
        ∧ (t.chan d).continuity = (s.chan d).continuity
        ∧ (∀ l, (t.chan d).events l
          = if lost = true then s.warnedFor l .encodeMiss (s.appliedFor l d) else s.appliedFor l d)
        ∧ (lost = true → ∀ k, (t.chan d).counter k
          = if k = .encodeMisses then saturatingSucc ((s.chan d).counter k) else (s.chan d).counter k)
        ∧ (∀ r, waits = false → item = some (.record r) → ∀ k, (t.chan d).counter k
          = if k = (if s.transmit.length < 32 then .framesSent else .transmitDrops) then
              saturatingSucc ((s.chan d).counter k)
            else (s.chan d).counter k)
        ∧ (lost = false → waits = true ∨ (∀ r, item ≠ some (.record r)) →
          ∀ k, (t.chan d).counter k = (s.chan d).counter k)
        ∧ (waits = true ∨ (∀ r, item ≠ some (.record r)) →
          t.link = s.link ∧ ∀ l, (t.line l).lineEvents = (s.line l).lineEvents)
        ∧ (∀ r, waits = false → item = some (.record r) → s.recordOffered t r
          ∧ ∀ l, (t.line l).lineEvents = if s.transmit.length < 32 then (s.line l).lineEvents
            else s.recordedSet l .queueOverflow (s.line l).lineEvents)
        ∧ ∃ u : State, u.device = s.device
          ∧ (∀ work deadline, waits = false → item = some (.job work deadline) →
            s.jobOffered u
              { channel := d
                deadline
                work := .encode work ⟨b.down.predictor, b.down.stepIndex⟩
                discard := false })
          ∧ (waits = true ∨ (∀ work deadline, item ≠ some (.job work deadline)) → u.pool = s.pool)
          ∧ u.windowOpens t c (some b') a.up.queue (expected + 1) queue next

/-! ### Start deadlines, jobs and records -/

/-- At a window's start deadline a WAITING window becomes CLOSED and nothing else changes; a DECODE still queued, or held
back, is withdrawn: the window closes, a decode miss is counted and DECODE_MISS warned for both lines; a DECODING window
whose job has started, a READY, a QUIET_NOTED, a CLOSED and a DIRECT window stay. An ENCODE still queued at its start
deadline is withdrawn with an encode miss and ENCODE_MISS; no record of it goes out and the encoder state stays; what was
held behind it is released in the same event: a record at once to the Transmit Queue, and the job next in line to the pool
with the encoder state as it is, the rest waiting on. A job still held behind another ENCODE of the channel at its deadline
is withdrawn in the same way, the other held items staying. That a record takes 16 core clocks an octet from its taking is
the model's choice (notes/assumptions/10.md). -/
def Obligations.StartDeadlinesWithdrawUnstartedJobs : Prop :=
  (∀ (c : Chan) (s : State) (a : Active) (comfort : Bool) (expected : BitVec 8) (w : Window), s.life c = .active a →
      a.up.stream = .running comfort expected w → w.deadline ≤ s.time →
      (w.state = .waiting →
        ∃ t, exec (.windowStartDeadline c) s = .next t ∧ s.streamFrame t [c] [] ∧ t.pool = s.pool ∧ t.link = s.link
          ∧ s.sameLines t
          ∧ t.chan c = { s.chan c with life := .active { a with up := { a.up with
              stream := .running comfort expected { w with state := .closed } } } })
      ∧ (∀ f held, w.state = .decoding f held → (held = true ↔ s.queued c .decode = false) →
        (∀ j ∈ s.jobs, j.isOf c .decode = true → j.deadline ≤ s.time) →
        ∀ i, i = .windowStartDeadline c ∨ i = .jobStartDeadline c .decode →
        ∃ t, exec i s = .next t ∧ s.streamFrame t [c] [] ∧ t.link = s.link ∧ s.sameLines t ∧ t.engines = s.engines
          ∧ t.jobs = s.jobs.filter (fun j => !(decide (j.channel = c) && decide (j.kind = .decode)))
          ∧ t.life c = .active { a with up := { a.up with
              stream := .running comfort expected { w with state := .closed } } }
          ∧ (∀ k, (t.chan c).counter k
            = if k = .decodeMisses then saturatingSucc ((s.chan c).counter k) else (s.chan c).counter k)
          ∧ (t.chan c).eventsF = s.warnedFor .F .decodeMiss (s.chan c).eventsF
          ∧ (t.chan c).eventsR = s.warnedFor .R .decodeMiss (s.chan c).eventsR)
      ∧ (∀ f, w.state = .decoding f false → s.queued c .decode = false →
        ∀ i, i = .windowStartDeadline c ∨ i = .jobStartDeadline c .decode →
        ∃ t, exec i s = .next t ∧ s.streamFrame t [] [] ∧ t.pool = s.pool ∧ t.link = s.link ∧ s.sameLines t)
      ∧ ((∃ f block, w.state = .ready f block) ∨ (∃ level, w.state = .quietNoted level) ∨ w.state = .closed
          ∨ (∃ f, w.state = .direct f) →
        ∃ t, exec (.windowStartDeadline c) s = .next t ∧ s.streamFrame t [] [] ∧ t.pool = s.pool ∧ t.link = s.link
          ∧ s.sameLines t))
    ∧ (∀ (c : Chan) (s : State) (a : Active) (j : Job) (first : Option Record) (tail : List Held),
      s.life c = .active a → a.down.held = first.toList.map Held.record ++ tail →
      (tail = [] ∨ ∃ next deadline rest, tail = .job next deadline :: rest ∧ s.time < deadline) →
      (∀ r, first = some r → recordChannel r = c) → j ∈ s.jobs → j.channel = c → j.kind = .encode →
      j.deadline ≤ s.time →
      ∃ t jobs, exec (.jobStartDeadline c .encode) s = .next t ∧ s.streamFrame t [c] []
        ∧ jobs = s.jobs.filter (fun j => !(decide (j.channel = c) && decide (j.kind = .encode)))
        ∧ (tail = [] → t.jobs = jobs ∧ t.engines = s.engines)
        ∧ (∀ next deadline rest, tail = .job next deadline :: rest →
          ({ s with jobs } : State).jobOffered t
            { channel := c
              deadline
              work := .encode next ⟨a.down.predictor, a.down.stepIndex⟩
              discard := false })
        ∧ (first = none → t.link = s.link) ∧ (∀ r, first = some r → s.recordOffered t r)
        ∧ t.life c = .active { a with down := { a.down with held := tail.drop 1 } }
        ∧ (t.chan c).continuity = (s.chan c).continuity
        ∧ (∀ k, (t.chan c).counter k
          = if k = .encodeMisses
              ∨ (first ≠ none ∧ k = (if s.transmit.length < 32 then .framesSent else .transmitDrops)) then
              saturatingSucc ((s.chan c).counter k)
            else (s.chan c).counter k)
        ∧ (t.chan c).eventsF = s.warnedFor .F .encodeMiss (s.chan c).eventsF
        ∧ (t.chan c).eventsR = s.warnedFor .R .encodeMiss (s.chan c).eventsR
        ∧ ∀ l, { s.line l with
            lineEvents :=
              if first ≠ none ∧ 32 ≤ s.transmit.length then
                s.recordedSet l .queueOverflow (s.line l).lineEvents
              else (s.line l).lineEvents }.sameButList (t.line l))
    ∧ ∀ (c : Chan) (s : State) (a : Active) (ahead behind : List Held) (work : EncodeWork) (deadline : Nat),
      s.life c = .active a → a.down.held = ahead ++ .job work deadline :: behind → deadline ≤ s.time →
      (∀ e limit, Held.job e limit ∈ ahead → s.time < limit) → s.inPool c .encode = true →
      (∀ j ∈ s.jobs, j.isOf c .encode = true → s.time < j.deadline) →
      ∃ t, exec (.jobStartDeadline c .encode) s = .next t ∧ s.streamFrame t [c] [] ∧ t.pool = s.pool ∧ t.link = s.link
        ∧ s.sameLines t
        ∧ t.life c = .active { a with down := { a.down with held := ahead ++ behind } }
        ∧ (t.chan c).continuity = (s.chan c).continuity
        ∧ (∀ k, (t.chan c).counter k
          = if k = .encodeMisses then saturatingSucc ((s.chan c).counter k) else (s.chan c).counter k)
        ∧ (t.chan c).eventsF = s.warnedFor .F .encodeMiss (s.chan c).eventsF
        ∧ (t.chan c).eventsR = s.warnedFor .R .encodeMiss (s.chan c).eventsR

/-- The completion of an ENCODE: the engine becomes FREE, or OUT from DRAINING, and the end state becomes the channel's
encoder state. The SPEECH record is offered to the Transmit Queue: it goes straight to an idle transmitter or is appended,
and is counted as sent, or is dropped at a queue of 32 with a transmit drop and QUEUE_OVERFLOW for both lines. A record held
behind the job follows its own record. A job held behind it is offered next with the end state, what is held after that
waiting on (that it is offered before the arbiter acts is the model's reading, notes/assumptions/9.md). An engine left FREE,
with no other FREE, takes the head of the Job Queue at once. That the completion brings the core clock to its end, and the
exact end of a record sent, are the model's choice (notes/assumptions/3.md, 10.md). -/
def Obligations.EncodeCompletionSendsTheRecord : Prop :=
  ∀ (e : Fin 4) (s : State) (j : Job) (ends : Nat) (left : Engine) (work : EncodeWork) (start last : Speech.Coder)
    (c : Chan) (payload body : List Octet) (a : Active),
    ((s.engines[e.val] = .busy j ends ∧ left = .free) ∨ (s.engines[e.val] = .draining j ends ∧ left = .out)) →
    j.work = .encode work start → j.discard = false → j.channel = c → s.life c = .active a →
    (ends ≤ s.clock ∨ (s.outstanding = false ∧ s.nothingEndsBefore ends = true)) →
    Speech.encodeFrame work.mode start work.samples = (payload, last) →
    body = [BitVec.ofNat 8 (64 + 16 * work.mode.code), BitVec.ofNat 8 c.val, work.sequence,
      (BitVec.ofInt 16 start.predictor).extractLsb' 8 8, (BitVec.ofInt 16 start.predictor).extractLsb' 0 8,
      BitVec.ofNat 8 start.stepIndex] ++ payload →
    (a.down.held = [] ∨ (∃ next deadline rest, a.down.held = .job next deadline :: rest ∧ s.time < deadline) →
      ∃ t, exec (.jobCompletion e) s = .next t ∧ s.streamFrame { t with clock := s.clock } [c] []
        ∧ t.clock = max s.clock ends ∧ s.recordCounted t c (body ++ Checks.crc16Octets body)
        ∧ t.life c = .active { a with down := { a.down with
            predictor := last.predictor, stepIndex := last.stepIndex, held := a.down.held.drop 1 } }
        ∧ (t.chan c).continuity = (s.chan c).continuity ∧ (t.chan c).eventsF = (s.chan c).eventsF
        ∧ (t.chan c).eventsR = (s.chan c).eventsR
        ∧ (a.down.held = [] → s.engineLeft t e left s.jobs)
        ∧ ∀ next deadline rest, a.down.held = .job next deadline :: rest →
          s.offeredBehind t e left { channel := c, deadline, work := .encode next last, discard := false })
    ∧ ∀ r, a.down.held = [.record r] → recordChannel r = c →
      ∃ t u, exec (.jobCompletion e) s = .next t ∧ s.streamFrame { t with clock := s.clock } [c] []
        ∧ t.clock = max s.clock ends ∧ s.engineLeft t e left s.jobs
        ∧ u.clock = t.clock ∧ s.recordCounted u c (body ++ Checks.crc16Octets body) ∧ u.recordCounted t c r
        ∧ t.life c = .active { a with down := { a.down with
            predictor := last.predictor, stepIndex := last.stepIndex, held := [] } }
        ∧ (t.chan c).continuity = (s.chan c).continuity ∧ (t.chan c).eventsF = (s.chan c).eventsF
        ∧ (t.chan c).eventsR = (s.chan c).eventsR

/-- The completion of a DECODE whose window waits for it: the window becomes READY with the decoded block. The engine
becomes FREE, or OUT from DRAINING; one left FREE, with no other FREE, takes the head of the Job Queue at once for the
clocks of its mode. The completion of a job marked for discard, with nothing waiting for it, does the same to the engine and
the queue, and changes no channel and nothing of the transmit path. A DECODE held behind a marked one is offered at its
completion, and so is an ENCODE held behind a marked one, with the encoder state as it is (before the arbiter acts, the
model's reading: notes/assumptions/9.md). That a completion brings the core clock to its end is the model's choice
(notes/assumptions/3.md). -/
def Obligations.DecodeAndDiscardCompletions : Prop :=
  ∀ (e : Fin 4) (s : State) (j : Job) (ends : Nat) (left : Engine),
    ((s.engines[e.val] = .busy j ends ∧ left = .free) ∨ (s.engines[e.val] = .draining j ends ∧ left = .out)) →
    (ends ≤ s.clock ∨ (s.outstanding = false ∧ s.nothingEndsBefore ends = true)) →
    (∀ (deadline : Nat) (f : SpeechFrame) (a : Active) (comfort : Bool) (expected : BitVec 8), j.work = .decode f →
      j.discard = false → s.life j.channel = .active a →
      a.up.stream = .running comfort expected { deadline, state := .decoding f false } →
      ∃ t, exec (.jobCompletion e) s = .next t ∧ s.streamFrame { t with clock := s.clock } [j.channel] []
        ∧ t.clock = max s.clock ends ∧ t.link = s.link ∧ s.sameLines t ∧ s.engineLeft t e left s.jobs
        ∧ t.chan j.channel = { s.chan j.channel with life := .active { a with up := { a.up with
            stream := .running comfort expected
              { deadline, state := .ready f (Speech.decodeFrame f.mode ⟨f.predictor, f.stepIndex⟩ f.payload) } } } })
    ∧ (j.discard = true → s.heldItems j.channel = [] →
      (∀ w f, s.window? j.channel = some w → w.state ≠ .decoding f true) →
      ∃ t, exec (.jobCompletion e) s = .next t ∧ s.streamFrame { t with clock := s.clock } [] []
        ∧ t.clock = max s.clock ends ∧ t.link = s.link ∧ s.sameLines t ∧ s.engineLeft t e left s.jobs)
    ∧ (∀ (deadline : Nat) (f : SpeechFrame) (a : Active) (comfort : Bool) (expected : BitVec 8), j.kind = .decode →
      j.discard = true → s.life j.channel = .active a →
      a.up.stream = .running comfort expected { deadline, state := .decoding f true } → s.time < deadline →
      ({ s with engines := s.engines.set e.val left } : State).inPool j.channel .decode = false →
      ∃ t, exec (.jobCompletion e) s = .next t ∧ s.streamFrame { t with clock := s.clock } [j.channel] []
        ∧ t.clock = max s.clock ends ∧ t.link = s.link ∧ s.sameLines t
        ∧ s.offeredBehind t e left { channel := j.channel, deadline, work := .decode f, discard := false }
        ∧ t.chan j.channel = { s.chan j.channel with life := .active { a with up := { a.up with
            stream := .running comfort expected { deadline, state := .decoding f false } } } })
    ∧ ∀ (a : Active) (next : EncodeWork) (deadline : Nat) (rest : List Held), j.kind = .encode → j.discard = true →
      s.life j.channel = .active a → a.down.held = .job next deadline :: rest → s.time < deadline →
      ∃ t, exec (.jobCompletion e) s = .next t ∧ s.streamFrame { t with clock := s.clock } [j.channel] []
        ∧ t.clock = max s.clock ends ∧ t.link = s.link ∧ s.sameLines t
        ∧ s.offeredBehind t e left
          { channel := j.channel
            deadline
            work := .encode next ⟨a.down.predictor, a.down.stepIndex⟩
            discard := false }
        ∧ t.chan j.channel = { s.chan j.channel with
            life := .active { a with down := { a.down with held := rest } } }

/-- RECORD_START of a READY part begins a record, at most two being begun at once (the model's choice,
notes/assumptions/13.md). RECORD_TRANSMITTED ends the record being sent; the transmitter takes the oldest queued record at
once, for 16 core clocks an octet, or falls idle. That it brings the core clock to the record's end is the model's choice
(notes/assumptions/3.md), and so are the exact clocks of a record from its taking (notes/assumptions/10.md). -/
def Obligations.RecordsBeginAndAreSent : Prop :=
  (∀ s : State, s.run = .ready → exec .recordStart s = .next { s with begun := min 2 (s.begun + 1) })
    ∧ (∀ s : State, s.run ≠ .ready → exec .recordStart s = .next s)
    ∧ ∀ (s : State) (r : Record) (ends : Nat), s.sending = some (r, ends) →
      (ends ≤ s.clock ∨ (s.outstanding = false ∧ s.nothingEndsBefore ends = true)) →
      (s.transmit = [] → exec .recordTransmitted s = .next { s with clock := max s.clock ends, sending := none })
        ∧ ∀ next rest, s.transmit = next :: rest →
          exec .recordTransmitted s
            = .next { s with
                clock := max s.clock ends, transmit := rest
                sending := some (next, max s.clock ends + 16 * next.length) }

/-- The end of a received record that is no frame of an ACTIVE channel. A record is readable where its length is the implied
one, or one of four where none is implied, and its last two octets are the CRC-16 of the others; else it is unreadable and
counts against the device alone. A readable one naming a channel that is not ACTIVE is stray. One with a bad kind, mode
code, mode, start predictor or start step index counts as bad on its channel alone, and no other header is bad. -/
def Obligations.ArrivalsThatAreNoFramesAreCounted : Prop :=
  ∀ (octets r : List Octet) (c : Chan) (s : State), s.run = .ready → 0 < s.begun → r = recordOctets octets →
    c = recordChannel r →
    (readable r = true ↔ lengthAllowed r ∧ ∃ body, r = withCheck body)
    ∧ (∀ modeSet, goodFrame modeSet r = none ↔ badFor modeSet r)
    ∧ (readable r = false →
      exec (.recordArrival octets) s
        = .next { s with begun := s.begun - 1, unreadable := saturatingSucc s.unreadable })
    ∧ (readable r = true → (s.life c).lifecycle ≠ .active →
      exec (.recordArrival octets) s = .next { s with begun := s.begun - 1, stray := saturatingSucc s.stray })
    ∧ ∀ a, readable r = true → s.life c = .active a → badFor a.radio.modeSet r →
      ∃ t, exec (.recordArrival octets) s = .next t ∧ s.streamFrame { t with begun := s.begun } [c] []
        ∧ t.begun = s.begun - 1 ∧ t.pool = s.pool ∧ t.link = s.link ∧ t.lineF = s.lineF ∧ t.lineR = s.lineR
        ∧ t.life c = s.life c ∧ (t.chan c).continuity = (s.chan c).continuity
        ∧ (t.chan c).eventsF = (s.chan c).eventsF ∧ (t.chan c).eventsR = (s.chan c).eventsR
        ∧ ∀ k, (t.chan c).counter k
          = if k = .framesBad then saturatingSucc ((s.chan c).counter k) else (s.chan c).counter k

/-- The classification of a frame against its reference, the head's of PRIMING or the expected sequence: −32..−1 late; in
the window ahead a duplicate where its sequence is queued, inserted in ascending distance with room, decided at a full queue
by its distance; anything further a resync, which withdraws the queued DECODE of the channel, marks a running one, and keeps
the last good block, the comfort level and the noise register. A late, a duplicate and an inserted frame record no event. -/
def Obligations.ArrivedFramesAreClassified : Prop :=
  ∀ (octets r : List Octet) (c : Chan) (s : State) (a : Active) (f : Frame) (reference : BitVec 8) (least d : Int),
    s.run = .ready → 0 < s.begun → r = recordOctets octets → readable r = true → c = recordChannel r →
    s.life c = .active a → goodFrame a.radio.modeSet r = some f → a.up.queueOk →
    (((∃ count, a.up.stream = .priming (some reference) count) ∧ a.up.queue ≠ [] ∧ least = 0)
      ∨ ((∃ comfort w, a.up.stream = .running comfort reference w) ∧ least = 1)) →
    d = distance f.sequence reference →
    ∃ t b, exec (.recordArrival octets) s = .next t ∧ s.streamFrame { t with begun := s.begun } [c] []
      ∧ t.begun = s.begun - 1 ∧ t.link = s.link ∧ s.sameLines t ∧ t.life c = .active b ∧ b.fixed = a.fixed
      ∧ b.radio = a.radio ∧ b.down = a.down
      ∧ (t.chan c).continuity = (s.chan c).continuity
      ∧ (-32 ≤ d ∧ d ≤ -1 → b = a ∧ t.pool = s.pool
        ∧ (t.chan c).eventsF = (s.chan c).eventsF ∧ (t.chan c).eventsR = (s.chan c).eventsR
        ∧ ∀ k, (t.chan c).counter k
          = if k = .framesLate then saturatingSucc ((s.chan c).counter k) else (s.chan c).counter k)
      ∧ (least ≤ d ∧ d ≤ 15 → (∃ g ∈ a.up.queue, g.sequence = f.sequence) → b = a ∧ t.pool = s.pool
        ∧ (t.chan c).eventsF = (s.chan c).eventsF ∧ (t.chan c).eventsR = (s.chan c).eventsR
        ∧ ∀ k, (t.chan c).counter k
          = if k = .framesDuplicate then saturatingSucc ((s.chan c).counter k) else (s.chan c).counter k)
      ∧ (least ≤ d ∧ d ≤ 15 → (∀ g ∈ a.up.queue, g.sequence ≠ f.sequence) → a.up.queue.length < 6 →
        t.pool = s.pool ∧ (∃ before after, a.up.queue = before ++ after
          ∧ b = { a with up := { a.up with queue := before ++ f :: after } }
          ∧ (∀ g ∈ before, distance g.sequence reference < d) ∧ ∀ g ∈ after, d < distance g.sequence reference)
        ∧ (t.chan c).eventsF = (s.chan c).eventsF ∧ (t.chan c).eventsR = (s.chan c).eventsR
        ∧ ∀ k, (t.chan c).counter k
          = if k = .framesAccepted then saturatingSucc ((s.chan c).counter k) else (s.chan c).counter k)
      ∧ (least ≤ d ∧ d ≤ 15 → a.up.queue.length = 6 → (∀ g ∈ a.up.queue, distance g.sequence reference < d) →
        t.pool = s.pool ∧ b = { a with up := { a.up with queue := a.up.queue.drop 1 ++ [f] } }
        ∧ (t.chan c).eventsF = s.warnedFor .F .overflow (s.chan c).eventsF
        ∧ (t.chan c).eventsR = s.warnedFor .R .overflow (s.chan c).eventsR
        ∧ ∀ k, (t.chan c).counter k
          = if k = .framesAccepted ∨ k = .overflowDrops then saturatingSucc ((s.chan c).counter k)
            else (s.chan c).counter k)
      ∧ (least ≤ d ∧ d ≤ 15 → a.up.queue.length = 6 → (∀ g ∈ a.up.queue, g.sequence ≠ f.sequence) →
        (∃ g ∈ a.up.queue, d < distance g.sequence reference) → b = a ∧ t.pool = s.pool
        ∧ (t.chan c).eventsF = s.warnedFor .F .overflow (s.chan c).eventsF
        ∧ (t.chan c).eventsR = s.warnedFor .R .overflow (s.chan c).eventsR
        ∧ ∀ k, (t.chan c).counter k
          = if k = .overflowDrops then saturatingSucc ((s.chan c).counter k) else (s.chan c).counter k)
      ∧ (d < -32 ∨ 15 < d →
        b = { a with up := { a.up with queue := [f], stream := .priming (some f.sequence) 0, lossRun := 0 } }
        ∧ t.jobs = s.jobs.filter (fun j => !(decide (j.channel = c) && decide (j.kind = .decode)))
        ∧ (∀ e : Fin 4, t.engines[e.val] = (s.engines[e.val]).mapJob fun j =>
          if j.channel = c ∧ j.kind = .decode then { j with discard := true } else j)
        ∧ (t.chan c).eventsF = s.warnedFor .F .resync (s.chan c).eventsF
        ∧ (t.chan c).eventsR = s.warnedFor .R .resync (s.chan c).eventsR
        ∧ ∀ k, (t.chan c).counter k
          = if k = .resyncs then saturatingSucc ((s.chan c).counter k) else (s.chan c).counter k)

/-- The first frame of an empty queue in PRIMING is accepted and becomes the reference. A frame at distance 0 is late for a
CLOSED window, a duplicate for one that has its frame, and accepted by a WAITING one: it notes a QUIET frame's level; a
SPEECH frame has its DECODE offered, or stands DIRECT where the channel is spliced to one that admits it. A DECODE withdrawn
in its offer closes the window and counts as a decode miss with DECODE_MISS for both lines. -/
def Obligations.FramesForTheWindowAreDecided : Prop :=
  ∀ (octets r : List Octet) (c : Chan) (s : State) (a : Active) (f : Frame),
    s.run = .ready → 0 < s.begun → r = recordOctets octets → readable r = true → c = recordChannel r →
    s.life c = .active a → goodFrame a.radio.modeSet r = some f →
    ∃ t b, exec (.recordArrival octets) s = .next t ∧ s.streamFrame { t with begun := s.begun } [c] []
      ∧ t.begun = s.begun - 1 ∧ t.life c = .active b
      ∧ (∀ reference count, a.up.stream = .priming reference count → a.up.queue = [] →
        b = { a with up := { a.up with queue := [f], stream := .priming (some f.sequence) count } }
        ∧ t.pool = s.pool ∧ t.link = s.link
        ∧ ∀ k, (t.chan c).counter k
          = if k = .framesAccepted then saturatingSucc ((s.chan c).counter k) else (s.chan c).counter k)
      ∧ ∀ comfort w, a.up.stream = .running comfort f.sequence w → t.link = s.link
        ∧ (w.state = .closed → b = a ∧ t.pool = s.pool
          ∧ ∀ k, (t.chan c).counter k
            = if k = .framesLate then saturatingSucc ((s.chan c).counter k) else (s.chan c).counter k)
        ∧ (w.state ≠ .closed → w.state ≠ .waiting → b = a ∧ t.pool = s.pool
          ∧ ∀ k, (t.chan c).counter k
            = if k = .framesDuplicate then saturatingSucc ((s.chan c).counter k) else (s.chan c).counter k)
        ∧ (w.state = .waiting → ∀ partner : Option Active,
          ((a.partner = none ∧ partner = none)
            ∨ ∃ d y, a.partner = some d ∧ s.life d = .active y ∧ partner = some y) →
          ∃ next, b = { a with up := { a.up with stream := .running comfort f.sequence { w with state := next } } }
            ∧ s.windowTakes t c partner f w.deadline next
            ∧ (∀ l, (t.chan c).events l
              = if next = .closed then s.warnedFor l .decodeMiss ((s.chan c).events l) else (s.chan c).events l)
            ∧ ∀ k, (t.chan c).counter k
              = if k = .framesAccepted ∨ (k = .decodeMisses ∧ next = .closed) then
                  saturatingSucc ((s.chan c).counter k)
                else (s.chan c).counter k)

/-! ### Timers -/

/-- A half-wait timer at its expiry frees the channel as a release by its holding line would, and HALF_EXPIRED is recorded
for that line: a HALF_F channel's timeslot is freed and a RUNNING check ends ABORTED; a row latched to the channel is
emptied; the counters stay. -/
def Obligations.HalfWaitExpiryFreesTheChannel : Prop :=
  ∀ (c : Chan) (s : State) (tm : Timer), s.rowsOk → tm.expiry ≤ s.time →
    (∀ h, s.life c = .halfF h → h.timer = some tm →
      ∃ t, exec (.halfWaitExpiry c) s = .next t ∧ s.streamFrame t [c] [h.fixed.timeslot] ∧ t.pool = s.pool
        ∧ t.link = s.link
        ∧ { s.lineF with row :=
            if s.lineF.row.latched = some c then { latched := none, slots := [], pending := false }
            else s.lineF.row }.sameButList t.lineF
        ∧ s.lineR.sameButList t.lineR
        ∧ t.slot h.fixed.timeslot = { s.slot h.fixed.timeslot with entry := .free, source := .idle }
        ∧ t.chan c = { s.chan c with
            life := .free
            continuity := if h.check = none then (s.chan c).continuity else { result := .aborted, delay := 0 }
            eventsF := s.recordedFor .F .halfExpired
              (if h.check = none then (s.chan c).eventsF
              else s.recordedFor .F .continuityDone (s.chan c).eventsF) })
    ∧ ∀ h, s.life c = .halfR h → h.timer = some tm →
      ∃ t, exec (.halfWaitExpiry c) s = .next t ∧ s.streamFrame t [c] [] ∧ t.pool = s.pool ∧ t.link = s.link
        ∧ { s.lineR with row :=
            if s.lineR.row.latched = some c then { latched := none, slots := [], pending := false }
            else s.lineR.row }.sameButList t.lineR
        ∧ s.lineF.sameButList t.lineF
        ∧ t.chan c = { s.chan c with
            life := .free, eventsR := s.recordedFor .R .halfExpired (s.chan c).eventsR }

/-- A watchdog at its expiry makes its line SILENT with no expiry held and records PARTNER_SILENT for the other line. With
the INFORM action nothing else changes. With the RELEASE action the line's row is EMPTY, a PENDING one lost with COMMIT_LOST
and its reservation freed; a half state the line holds becomes FREE, a HALF_F channel's timeslot is freed and its RUNNING
check ends ABORTED; an ACTIVE channel becomes the other line's half state, with PEER_RELEASED, SPLICE_ENDED where it was
spliced, its queued jobs withdrawn, its running ones marked, and its timeslot freed or left IDLE; a row of the other line
PENDING on it applies to that half, item by item. The counters stay. That the loss in this event obeys the line's own event
mask is the model's reading (notes/assumptions/14.md). -/
def Obligations.WatchdogExpirySilencesTheLine : Prop :=
  ∀ (l : Line) (s : State) (tm : Timer), s.rowsOk → (s.line l).silent = false → (s.line l).expiry = some tm →
    tm.expiry ≤ s.time →
    ∃ t, exec (.watchdogExpiry l) s = .next t ∧ t.device = s.device ∧ t.link = s.link
      ∧ { s.line (otherLine l) with
          lineEvents := s.recordedSet (otherLine l) .partnerSilent (s.line (otherLine l)).lineEvents
          row := (t.line (otherLine l)).row }.sameButList (t.line (otherLine l))
      ∧ { s.line l with silent := true, expiry := none, row := (t.line l).row }.sameButList (t.line l)
      ∧ ((s.line l).settings.releaseAction = false →
        s.streamFrame t [] [] ∧ t.pool = s.pool ∧ ∀ k, (t.line k).row = (s.line k).row)
      ∧ ((s.line l).settings.releaseAction = true →
        (t.line l).row = { latched := none, slots := [], pending := false }
        ∧ t.jobs = s.jobs.filter (fun j => decide ((s.life j.channel).lifecycle ≠ .active))
        ∧ (∀ e : Fin 4, t.engines[e.val] = (s.engines[e.val]).mapJob fun j =>
          if (s.life j.channel).lifecycle = .active then { j with discard := true } else j)
        ∧ (∀ c, ((s.life c).holds l = false → t.chan c = s.chan c)
          ∧ (∀ k, (t.chan c).counter k = (s.chan c).counter k)
          ∧ ((s.life c).holdingLine? = some l → t.life c = .free)
          ∧ (∀ h, l = .F → s.life c = .halfF h →
            t.slot h.fixed.timeslot = { s.slot h.fixed.timeslot with entry := .free, source := .idle }
            ∧ (t.chan c).continuity
              = (if h.check = none then (s.chan c).continuity else { result := .aborted, delay := 0 })
            ∧ (h.check ≠ none → s.lineF.settings.eventMask.getLsbD Kind.continuityDone.bit = true →
              (t.chan c).eventsF.kinds.getLsbD Kind.continuityDone.bit = true))
          ∧ (s.pendingOn l c = true → (s.life c).holds l = true →
            ((s.line l).settings.eventMask.getLsbD Kind.commitLost.bit = true →
              ((t.chan c).events l).kinds.getLsbD Kind.commitLost.bit = true)
            ∧ ∀ x, l = .F → s.lineF.row.timeslot? = some x → (s.slot x).entry = .reserved c → (t.slot x).entry = .free)
          ∧ ∀ a, s.life c = .active a →
            ((s.line (otherLine l)).settings.eventMask.getLsbD Kind.peerReleased.bit = true →
              ((t.chan c).events (otherLine l)).kinds.getLsbD Kind.peerReleased.bit = true)
            ∧ (a.partner ≠ none → s.lineF.settings.eventMask.getLsbD Kind.spliceEnded.bit = true →
              (t.chan c).eventsF.kinds.getLsbD Kind.spliceEnded.bit = true)
            ∧ (l = .F → t.slot a.fixed.timeslot = { s.slot a.fixed.timeslot with entry := .free, source := .idle })
            ∧ (s.pendingOn (otherLine l) c = true →
              (t.line (otherLine l)).row = { latched := none, slots := [], pending := false }
              ∧ ((s.line (otherLine l)).settings.eventMask.getLsbD Kind.commitApplied.bit = true →
                ((t.chan c).events (otherLine l)).kinds.getLsbD Kind.commitApplied.bit = true)
              ∧ s.leftWithRow t l c a)
            ∧ (s.pendingOn (otherLine l) c = false →
              (l = .F → t.life c = .halfR { tag := a.tag, timer := s.startedTimer .R, radio := { a.radio with
                  active := Mode.derive a.radio.modeSet a.radio.requested .m32 } })
              ∧ (l = .R → t.life c = .halfF
                { tag := a.tag, fixed := a.fixed, timer := s.startedTimer .F, check := none })))
        ∧ ((∀ c, s.pendingOn (otherLine l) c = false) →
          (t.line (otherLine l)).row = (s.line (otherLine l)).row
          ∧ (∀ x, (∀ c f, (s.life c).fixed? = some f → f.timeslot ≠ x) → (∀ c, (s.slot x).entry ≠ .reserved c) →
            t.slot x = s.slot x)
          ∧ ∀ c a, l = .R → s.life c = .active a →
            t.slot a.fixed.timeslot = { s.slot a.fixed.timeslot with source := .idle }))

/-! ### Exchanges and orders in general -/

/-- The three spoiled exchanges set the line's order-error flag in a READY part and change nothing else but the reply, which
the first two do not form. An order that names another node is not taken: no reply, and nothing else changes. A broadcast of
any verb but NOP, RESTART and CLEAR_LINE_EVENTS, or of one of these with bit 7 of octet 1 set, is not carried out: it acts
on the line as any taken order does, forms no reply and keeps the flag. A part that is not READY sees no exchange. -/
def Obligations.ExchangesNotCarriedOutChangeNothing : Prop :=
  (∀ (l : Line) (s : State),
      (∀ i, i = .earlySelectRise l ∨ i = .orderCrcMismatch l →
        (s.run = .ready → ∃ t, exec i s = .next t ∧ { t with lineF := s.lineF, lineR := s.lineR } = s
          ∧ t.line l = { s.line l with orderError := true, reply := none }
          ∧ t.line (otherLine l) = s.line (otherLine l))
        ∧ (s.run ≠ .ready → exec i s = .next s))
      ∧ (s.run = .ready → ∃ t, exec (.extraClock l) s = .next t ∧ { t with lineF := s.lineF, lineR := s.lineR } = s
          ∧ t.line l = { s.line l with orderError := true } ∧ t.line (otherLine l) = s.line (otherLine l))
      ∧ (s.run ≠ .ready → exec (.extraClock l) s = .next s))
    ∧ ∀ (i : Instr) (o : Order) (s : State), i.order? = some o →
      (s.run ≠ .ready → exec i s = .next s)
      ∧ (s.run = .ready → o.node ≠ 7 → o.node ≠ (s.line o.line).node →
        ∃ t, exec i s = .next t ∧ { t with lineF := s.lineF, lineR := s.lineR } = s
          ∧ t.line o.line = { s.line o.line with reply := none }
          ∧ t.line (otherLine o.line) = s.line (otherLine o.line))
      ∧ (s.run = .ready → o.node = 7 → i.isBroadcastVerb = false ∨ o.bit7 = true →
        ∃ t, exec i s = .next t ∧ { t with lineF := s.lineF, lineR := s.lineR } = s
          ∧ t.line (otherLine o.line) = s.line (otherLine o.line)
          ∧ t.line o.line = { s.line o.line with
              reply := none, silent := false
              lineEvents :=
                if (s.line o.line).silent = true then
                  s.recordedSet o.line .watchdogExpired (s.line o.line).lineEvents
                else (s.line o.line).lineEvents
              expiry :=
                if (s.line o.line).settings.watchdogLimit = 0 then none
                else some
                  { expiry := s.time + (s.line o.line).settings.watchdogLimit * 800, since := s.clock } })

/-- Every order that names this part is answered: the reply carries the node, the order-error flag, which it clears, and the
line's attention as the order left it. Bit 7 set is BAD_ARGUMENT; a verb of the other line is then NOT_OWNER. The line is
ALIVE and its watchdog's expiry is set anew. -/
def Obligations.TakenOrdersAreAnswered : Prop :=
  ∀ (i : Instr) (o : Order) (s : State), i.wellFormed = true → i.order? = some o → s.run = .ready → o.node ≠ 7 →
    o.node = (s.line o.line).node →
    ∃ t p, exec i s = .next t ∧ (t.line o.line).reply = some p ∧ p.node = o.node
      ∧ p.previousError = (s.line o.line).orderError ∧ (t.line o.line).orderError = false
      ∧ (p.attention = true ↔ (t.line o.line).events ≠ [] ∨ (t.line o.line).lineEvents ≠ 0)
      ∧ (o.bit7 = true → p.result = .badArgument)
      ∧ (o.bit7 = false → i.belongsTo o.line = false → p.result = .notOwner)
      ∧ (t.line o.line).silent = false
      ∧ (t.line o.line).expiry
        = (if (t.line o.line).settings.watchdogLimit = 0 then none
          else some { expiry := s.time + (t.line o.line).settings.watchdogLimit * 800, since := s.clock })

/-- A refused order changes no state but the Line Unit's own handling: the watchdog, the return to ALIVE, the flag and the
reply, whose data is 0. -/
def Obligations.RefusedOrdersChangeNothing : Prop :=
  ∀ (i : Instr) (o : Order) (s t : State) (p : Reply), i.order? = some o → s.run = .ready → o.node ≠ 7 →
    o.node = (s.line o.line).node → exec i s = .next t → (t.line o.line).reply = some p →
    p.result.carriedOut = false →
    p.data = 0 ∧ s.orderFrame t o [] [] ∧ t.pool = s.pool ∧ t.link = s.link
      ∧ (t.line o.line).events = (s.line o.line).events
      ∧ t.line (otherLine o.line) = s.line (otherLine o.line)
      ∧ (t.line o.line).lineEvents
        = (if (s.line o.line).silent = true then s.recordedSet o.line .watchdogExpired (s.line o.line).lineEvents
          else (s.line o.line).lineEvents)

/-- NOP is answered DONE, under broadcast carried out without a reply, and an unknown verb BAD_ARGUMENT; neither changes
anything but what taking an order does. -/
def Obligations.NopAndUnknownVerbsDoNothing : Prop :=
  ∀ (o : Order) (s : State),
    (s.reachedBy o → ∃ t, exec (.nop o) s = .next t ∧ s.orderFrame t o [] [] ∧ t.pool = s.pool ∧ t.link = s.link
      ∧ (o.node ≠ 7 → t.answered o .done o.echoed 0))
    ∧ ∀ code, s.addressed o →
      ∃ t, exec (.unknownVerb o code) s = .next t ∧ s.orderFrame t o [] [] ∧ t.pool = s.pool ∧ t.link = s.link
        ∧ t.answered o .badArgument o.echoed 0

/-! ### Orders on channels -/

/-- BIND of a FREE channel to a FREE timeslot with a VALID profile: HALF_F with the profile's copies, the F line's half-wait
timer, counters 0 and the continuity record NONE; the timeslot BOUND and IDLE. BIND of a HALF_R channel with its tag makes
it ACTIVE: the profile's copies, the streams at their entry values, the radio half kept with the active mode derived under
the profile's cap, PEER_ATTACHED for the R line; the counters and the continuity record stay. Else BIND is refused by the
first check that fails: NOT_OWNER on the R line, WRONG_STATE in HALF_F and ACTIVE, TAG_MISMATCH, TAKEN, PROFILE_UNUSABLE. -/
def Obligations.BindMakesTheFixedHalf : Prop :=
  (∀ (o : Order) (x : Slot) (p : Fin 8) (tag : BitVec 14) (s : State) (cap : Mode), s.addressed o → o.line = .F →
      s.life o.channel = .free → (s.slot x).entry = .free → (s.profiles[p.val]).state = .valid →
      Mode.ofCode (s.profiles[p.val]).cap = some cap →
      ∃ t, exec (.bind o x p tag) s = .next t ∧ t.answered o .done o.echoed 0 ∧ s.orderFrame t o [o.channel] [x]
        ∧ t.pool = s.pool ∧ t.link = s.link
        ∧ t.slot x = { s.slot x with entry := .bound o.channel, source := .idle }
        ∧ (∀ k, (t.chan o.channel).counter k = 0)
        ∧ (t.chan o.channel).continuity = { result := .none, delay := 0 }
        ∧ (t.chan o.channel).eventsF = (s.chan o.channel).eventsF
        ∧ (t.chan o.channel).eventsR = (s.chan o.channel).eventsR
        ∧ t.life o.channel = .halfF
          { tag
            timer := s.startedTimer .F
            check := none
            fixed :=
              { timeslot := x, feed := x, profile := p, cap
                primingDepth := (s.profiles[p.val]).primingDepth
                hangover := (s.profiles[p.val]).hangover
                quietInterval := 4 * 2 ^ (s.profiles[p.val]).quietCode
                lossToMute := (s.profiles[p.val]).lossToMute
                gainToFixed := (s.profiles[p.val]).gainToFixed
                gainToRadio := (s.profiles[p.val]).gainToRadio
                quietThreshold := (s.profiles[p.val]).quietThreshold } })
    ∧ (∀ (o : Order) (x : Slot) (p : Fin 8) (h : HalfR) (s : State) (cap : Mode), s.cycle < 160 → s.addressed o →
      o.line = .F → s.life o.channel = .halfR h → (s.slot x).entry = .free → (s.profiles[p.val]).state = .valid →
      Mode.ofCode (s.profiles[p.val]).cap = some cap →
      ∃ t a, exec (.bind o x p h.tag) s = .next t ∧ t.answered o .done o.echoed 0
        ∧ s.orderFrame t o [o.channel] [x] ∧ t.pool = s.pool ∧ t.link = s.link
        ∧ t.slot x = { s.slot x with entry := .bound o.channel, source := .idle }
        ∧ t.chan o.channel = { s.chan o.channel with
            life := .active a, eventsR := s.recordedFor .R .peerAttached (s.chan o.channel).eventsR }
        ∧ a.atEntry s o.channel ∧ a.tag = h.tag
        ∧ a.fixed =
          { timeslot := x, feed := x, profile := p, cap
            primingDepth := (s.profiles[p.val]).primingDepth
            hangover := (s.profiles[p.val]).hangover
            quietInterval := 4 * 2 ^ (s.profiles[p.val]).quietCode
            lossToMute := (s.profiles[p.val]).lossToMute
            gainToFixed := (s.profiles[p.val]).gainToFixed
            gainToRadio := (s.profiles[p.val]).gainToRadio
            quietThreshold := (s.profiles[p.val]).quietThreshold }
        ∧ a.radio = { h.radio with active := Mode.derive h.radio.modeSet h.radio.requested cap })
    ∧ ∀ (o : Order) (x : Slot) (p : Fin 8) (tag : BitVec 14) (s : State), s.addressed o →
      (o.line = .R → s.refuses (.bind o x p tag) o .notOwner o.echoed)
      ∧ (o.line = .F →
        ((s.life o.channel).holds .F = true → s.refuses (.bind o x p tag) o .wrongState o.echoed)
        ∧ (∀ h, s.life o.channel = .halfR h → tag ≠ h.tag → s.refuses (.bind o x p tag) o .tagMismatch o.echoed)
        ∧ (s.life o.channel = .free ∨ (∃ h, s.life o.channel = .halfR h ∧ tag = h.tag) →
          ((s.slot x).entry ≠ .free → s.refuses (.bind o x p tag) o .taken o.echoed)
          ∧ ((s.slot x).entry = .free → (s.profiles[p.val]).state ≠ .valid →
            s.refuses (.bind o x p tag) o .profileUnusable o.echoed)))

/-- ATTACH of a FREE channel makes it HALF_R, and of a HALF_F channel with its tag ACTIVE, with DTX off and offset 0; the
data is the active mode's code. Attached to a HALF_F channel, a RUNNING check ends ABORTED with its timeslot IDLE, and
PEER_ATTACHED is recorded for the F line. Else ATTACH is refused by the first check that fails: NOT_OWNER on the F line,
WRONG_STATE in HALF_R and ACTIVE, BAD_ARGUMENT for a mode set without mode 16 or a requested mode of code 0, TAG_MISMATCH. -/
def Obligations.AttachMakesTheRadioHalf : Prop :=
  (∀ (o : Order) (modeSet : BitVec 3) (requested : BitVec 2) (m : Mode) (s : State), s.addressed o → o.line = .R →
    Mode.ofCode requested.toNat = some m → modeSet.getLsbD 0 = true →
    (∀ tag, s.life o.channel = .free →
      ∃ t, exec (.attach o modeSet requested tag) s = .next t ∧ s.orderFrame t o [o.channel] []
        ∧ t.answered o .done o.echoed (BitVec.ofNat 24 (Mode.derive modeSet m .m32).code)
        ∧ t.pool = s.pool ∧ t.link = s.link ∧ (∀ k, (t.chan o.channel).counter k = 0)
        ∧ (t.chan o.channel).continuity = { result := .none, delay := 0 }
        ∧ (t.chan o.channel).eventsF = (s.chan o.channel).eventsF
        ∧ (t.chan o.channel).eventsR = (s.chan o.channel).eventsR
        ∧ t.life o.channel = .halfR
          { tag, timer := s.startedTimer .R
            radio := { modeSet, requested := m, dtx := false, offset := 0, active := Mode.derive modeSet m .m32 } })
    ∧ ∀ h, s.cycle < 160 → s.life o.channel = .halfF h →
      ∃ t a, exec (.attach o modeSet requested h.tag) s = .next t
        ∧ s.orderFrame t o [o.channel] [h.fixed.timeslot]
        ∧ t.answered o .done o.echoed (BitVec.ofNat 24 (Mode.derive modeSet m h.fixed.cap).code)
        ∧ t.pool = s.pool ∧ t.link = s.link ∧ a.atEntry s o.channel ∧ a.tag = h.tag ∧ a.fixed = h.fixed
        ∧ a.radio =
          { modeSet, requested := m, dtx := false, offset := 0, active := Mode.derive modeSet m h.fixed.cap }
        ∧ (h.check = none → t.slot h.fixed.timeslot = s.slot h.fixed.timeslot
          ∧ t.chan o.channel = { s.chan o.channel with
              life := .active a
              eventsF := s.recordedFor .F .peerAttached (s.chan o.channel).eventsF })
        ∧ (h.check ≠ none → t.slot h.fixed.timeslot = { s.slot h.fixed.timeslot with source := .idle }
          ∧ t.chan o.channel = { s.chan o.channel with
              life := .active a
              continuity := { result := .aborted, delay := 0 }
              eventsF := s.recordedFor .F .peerAttached
                (s.recordedFor .F .continuityDone (s.chan o.channel).eventsF) }))
    ∧ ∀ (o : Order) (modeSet : BitVec 3) (requested : BitVec 2) (tag : BitVec 14) (s : State), s.addressed o →
      (o.line = .F → s.refuses (.attach o modeSet requested tag) o .notOwner o.echoed)
      ∧ (o.line = .R →
        ((s.life o.channel).holds .R = true → s.refuses (.attach o modeSet requested tag) o .wrongState o.echoed)
        ∧ ((s.life o.channel).holds .R = false → modeSet.getLsbD 0 = false ∨ requested = 0 →
          s.refuses (.attach o modeSet requested tag) o .badArgument o.echoed)
        ∧ ∀ h, s.life o.channel = .halfF h → modeSet.getLsbD 0 = true → requested ≠ 0 → tag ≠ h.tag →
          s.refuses (.attach o modeSet requested tag) o .tagMismatch o.echoed)

/-- RELEASE of a half state by its holding line frees the channel: no PEER_RELEASED, the counters kept; a HALF_F channel's
timeslot is freed and its RUNNING check ends ABORTED; a row of the line latched to the channel is emptied. RELEASE by a line
that holds no half of the channel is refused WRONG_STATE. -/
def Obligations.ReleaseFreesAHalfState : Prop :=
  (∀ (o : Order) (s : State) (row : Row), s.addressed o → s.rowsOk →
    row = (if (s.line o.line).row.latched = some o.channel then { latched := none, slots := [], pending := false }
      else (s.line o.line).row) →
    (∀ h, o.line = .F → s.life o.channel = .halfF h →
      ∃ t, exec (.release o) s = .next t ∧ t.answered o .done o.echoed 0
        ∧ s.orderFrameTo t o [o.channel] [h.fixed.timeslot] { s.line o.line with row }
        ∧ t.pool = s.pool ∧ t.link = s.link
        ∧ t.slot h.fixed.timeslot = { s.slot h.fixed.timeslot with entry := .free, source := .idle }
        ∧ t.chan o.channel = { s.chan o.channel with
            life := .free
            continuity :=
              if h.check = none then (s.chan o.channel).continuity else { result := .aborted, delay := 0 }
            eventsF :=
              if h.check = none then (s.chan o.channel).eventsF
              else s.recordedFor .F .continuityDone (s.chan o.channel).eventsF })
    ∧ ∀ h, o.line = .R → s.life o.channel = .halfR h →
      ∃ t, exec (.release o) s = .next t ∧ t.answered o .done o.echoed 0
        ∧ s.orderFrameTo t o [o.channel] [] { s.line o.line with row } ∧ t.pool = s.pool ∧ t.link = s.link
        ∧ t.chan o.channel = { s.chan o.channel with life := .free })
    ∧ ∀ (o : Order) (s : State), s.addressed o → (s.life o.channel).holds o.line = false →
      s.refuses (.release o) o .wrongState o.echoed

/-- RELEASE of an ACTIVE channel, whatever rows are PENDING on it: its queued jobs are withdrawn and its running ones marked;
released by F it becomes HALF_R with its timeslot freed and the mode derived under cap 32, released by R HALF_F with its
timeslot IDLE; the other line's timer starts and PEER_RELEASED is recorded for that line; the counters and the continuity
record stay. The issuing line's row latched to it is EMPTY afterwards, with COMMIT_LOST if it was PENDING and a reservation
of its timeslot freed; the other line's PENDING row is EMPTY too, with COMMIT_APPLIED. If the channel was spliced, the splice
ends: SPLICE_ENDED is recorded for the F line on both channels, and the partner stays ACTIVE without a partner, its ring
zeros and its next boundary at the first later sample time whose cycle value is its downlink phase. A DIRECT window of the
partner becomes DECODING, its DECODE offered to the pool as the withdrawals and marks leave it, or is held; a DECODE
withdrawn in the offer, as a miss, leaves the window CLOSED. The half that remains under a PENDING row of the other line is
stated in ReleaseLosesAndAppliesPendingRows. -/
def Obligations.ReleaseLeavesTheOtherHalf : Prop :=
  ∀ (o : Order) (s : State) (a : Active) (d : Chan) (y : Active) (l : Line), s.rowsOk → s.addressed o →
    s.life o.channel = .active a → l = otherLine o.line →
    (a.partner = none ∨ (a.partner = some d ∧ d ≠ o.channel ∧ s.life d = .active y ∧ s.phasesOk)) →
    ∃ (t u : State) (e : Line → EventRecord), exec (.release o) s = .next t ∧ t.answered o .done o.echoed 0
      ∧ (s.withRowsOf t).orderFrame t o (o.channel :: a.partner.toList)
        (a.fixed.timeslot :: if s.pendingOn .F o.channel = true then s.lineF.row.timeslot?.toList else [])
      ∧ (t.line o.line).row
        = (if (s.line o.line).row.latched = some o.channel then { latched := none, slots := [], pending := false }
          else (s.line o.line).row)
      ∧ (t.line l).row = (if s.pendingOn l o.channel = true then { latched := none, slots := [], pending := false }
        else (s.line l).row)
      ∧ t.link = s.link ∧ u.device = s.device ∧ u.jobs = s.jobs.filter (fun j => decide (j.channel ≠ o.channel))
      ∧ (∀ e : Fin 4, u.engines[e.val]
        = (s.engines[e.val]).mapJob fun j => if j.channel = o.channel then { j with discard := true } else j)
      ∧ (a.partner = none ∨ s.directFrame d = none → t.pool = u.pool)
      ∧ (∀ k, (t.chan o.channel).counter k = (s.chan o.channel).counter k)
      ∧ (t.chan o.channel).continuity = (s.chan o.channel).continuity
      ∧ (∀ k, e k = if k = .F ∧ a.partner ≠ none then s.recordedFor .F .spliceEnded (s.chan o.channel).eventsF
        else (s.chan o.channel).events k)
      ∧ (t.chan o.channel).events o.line
        = (if s.pendingOn o.line o.channel = true then s.recordedFor o.line .commitLost (e o.line) else e o.line)
      ∧ (t.chan o.channel).events l
        = (if s.pendingOn l o.channel = true then s.recordedFor l .commitApplied (s.recordedFor l .peerReleased (e l))
          else s.recordedFor l .peerReleased (e l))
      ∧ (o.line = .F →
        t.slot a.fixed.timeslot = { s.slot a.fixed.timeslot with entry := .free, source := .idle }
        ∧ (∀ x, s.pendingOn .F o.channel = true → s.lineF.row.timeslot? = some x → x ≠ a.fixed.timeslot →
          t.slot x
            = if (s.slot x).entry = .reserved o.channel then { s.slot x with entry := .free } else s.slot x)
        ∧ (s.pendingOn .R o.channel = false → t.life o.channel = .halfR
          { tag := a.tag, timer := s.startedTimer .R
            radio := { a.radio with active := Mode.derive a.radio.modeSet a.radio.requested .m32 } }))
      ∧ (o.line = .R → s.pendingOn .F o.channel = false →
        t.slot a.fixed.timeslot = { s.slot a.fixed.timeslot with source := .idle }
        ∧ t.life o.channel = .halfF { tag := a.tag, fixed := a.fixed, timer := s.startedTimer .F, check := none })
      ∧ (a.partner = some d →
        ∃ n y', s.time < n ∧ n ≤ s.time + 160 ∧ (s.cycle + (n - s.time)) % 160 = y.down.phase
          ∧ y' = { y with
              partner := none
              down := { y.down with boundary := some n, ring := List.replicate 320 0, collecting := false } }
          ∧ (s.directFrame d = none →
            t.chan d = { s.chan d with
              life := .active y', eventsF := s.recordedFor .F .spliceEnded (s.chan d).eventsF })
          ∧ ∀ f deadline, s.directFrame d = some (f, deadline) →
            ∃ w, u.decodeOffered t d f deadline w ∧ s.unspliced t d y' w)

/-- RELEASE of an ACTIVE channel, spliced or not, loses the issuing line's PENDING row, with COMMIT_LOST for that line and a
reservation it held freed, and applies the other line's, with COMMIT_APPLIED for that line, to the half that remains. On the
HALF_R channel that a release by F leaves, MODE, MODE_SET, DTX and the ALIGN offset follow their items, and the active mode
is the one derived under cap 32; the timeslot is freed. On the HALF_F channel that a release by R leaves, the gains and the
threshold follow theirs, and a TIMESLOT moves the binding; the old timeslot is FREE and IDLE. PEER_RELEASED is recorded for
the line of the half that remains, its half-wait timer starts, and no job of the channel is left queued or unmarked; the
exact pool, the event records, the counters and a splice partner are as ReleaseLeavesTheOtherHalf states, with rows PENDING
too. -/
def Obligations.ReleaseLosesAndAppliesPendingRows : Prop :=
  ∀ (o : Order) (s : State) (a : Active), s.addressed o → s.life o.channel = .active a → s.rowsOk → s.mapOk →
    ∃ t, exec (.release o) s = .next t ∧ t.device = s.device
      ∧ (s.pendingOn o.line o.channel = true →
        (t.line o.line).row = { latched := none, slots := [], pending := false }
        ∧ ((s.line o.line).settings.eventMask.getLsbD Kind.commitLost.bit = true →
          ((t.chan o.channel).events o.line).kinds.getLsbD Kind.commitLost.bit = true)
        ∧ ∀ x, (s.slot x).entry = .reserved o.channel → o.line = .F → (t.slot x).entry = .free)
      ∧ (s.pendingOn (otherLine o.line) o.channel = true →
        (t.line (otherLine o.line)).row = { latched := none, slots := [], pending := false }
        ∧ ((s.line (otherLine o.line)).settings.eventMask.getLsbD Kind.commitApplied.bit = true →
          ((t.chan o.channel).events (otherLine o.line)).kinds.getLsbD Kind.commitApplied.bit = true)
        ∧ ((s.line (otherLine o.line)).settings.eventMask.getLsbD Kind.peerReleased.bit = true →
          ((t.chan o.channel).events (otherLine o.line)).kinds.getLsbD Kind.peerReleased.bit = true)
        ∧ (a.partner ≠ some o.channel →
          (∀ j ∈ t.jobs, j.channel ≠ o.channel)
            ∧ ∀ (e : Fin 4) j, (t.engines[e.val]).job? = some j → j.channel = o.channel → j.discard = true)
        ∧ (o.line = .F →
          t.slot a.fixed.timeslot = { s.slot a.fixed.timeslot with entry := .free, source := .idle })
        ∧ s.leftWithRow t o.line o.channel a)

/-- HANDOVER of an ACTIVE channel starts its playout anew: the queue empty, PRIMING from no reference, the last good block
zeros, the loss run 0, the queued DECODE withdrawn and a running one marked; the comfort level, the noise register, the
downlink, the block in play, the event records and every counter stay. On any other channel it is WRONG_STATE and nothing
changes. -/
def Obligations.HandoverPrimesAnew : Prop :=
  ∀ (o : Order) (s : State), s.addressed o → o.line = .R →
    ((s.life o.channel).lifecycle ≠ .active →
      ∃ t, exec (.handover o) s = .next t ∧ t.answered o .wrongState o.echoed 0 ∧ s.orderFrame t o [] []
        ∧ t.pool = s.pool ∧ t.link = s.link)
    ∧ ∀ a, s.life o.channel = .active a →
      ∃ t, exec (.handover o) s = .next t ∧ t.answered o .done o.echoed 0 ∧ s.orderFrame t o [o.channel] []
        ∧ t.link = s.link ∧ (∀ k, (t.line k).events = (s.line k).events)
        ∧ t.jobs = s.jobs.filter (fun j => !(decide (j.channel = o.channel) && decide (j.kind = .decode)))
        ∧ (∀ e : Fin 4, t.engines[e.val] = (s.engines[e.val]).mapJob fun j =>
          if j.channel = o.channel ∧ j.kind = .decode then { j with discard := true } else j)
        ∧ t.chan o.channel = { s.chan o.channel with life := .active { a with up := { a.up with
            queue := [], stream := .priming none 0, lastGood := List.replicate 160 0, lossRun := 0 } } }

/-- CHECK: WRONG_STATE on a channel that is not HALF_F, WRONG_STATE with its record RUNNING, BAD_ARGUMENT with a mask of 0,
in that order, and nothing changes; NOT_OWNER on the R line. Otherwise DONE: the record RUNNING with delay 0, an empty
window from the next sample time on, and the pattern handed to the timeslot; no event is recorded. A check runs only on a
HALF_F channel. -/
def Obligations.CheckStartsWithTheNextSampleTime : Prop :=
  (∀ (o : Order) (s : State), s.addressed o →
    ((o.line = .R ∨ (s.life o.channel).lifecycle ≠ .halfF ∨ (s.chan o.channel).continuity.result = .running
        ∨ s.mask = 0) →
      ∃ t, exec (.check o) s = .next t ∧ s.orderFrame t o [] [] ∧ t.pool = s.pool ∧ t.link = s.link
        ∧ t.answered o (if o.line = .R then .notOwner
          else if (s.life o.channel).lifecycle ≠ .halfF ∨ (s.chan o.channel).continuity.result = .running then
            .wrongState
          else .badArgument) o.echoed 0)
    ∧ ∀ h, o.line = .F → s.life o.channel = .halfF h → (s.chan o.channel).continuity.result ≠ .running → s.mask ≠ 0 →
      ∃ t, exec (.check o) s = .next t ∧ t.answered o .done o.echoed 0
        ∧ s.orderFrame t o [o.channel] [h.fixed.timeslot] ∧ t.pool = s.pool ∧ t.link = s.link
        ∧ (∀ k, (t.line k).events = (s.line k).events)
        ∧ t.slot h.fixed.timeslot = { s.slot h.fixed.timeslot with source := .pattern s.pattern.toList }
        ∧ t.chan o.channel = { s.chan o.channel with
            life := .halfF { h with check := some { start := s.time + 1, window := [] } }
            continuity := { result := .running, delay := 0 } })
    ∧ ∀ (s : State) (c : Chan) (k : Check), (s.life c).check? = some k → ∃ h, s.life c = .halfF h

/-- SPLICE of two ACTIVE channels without a partner: each becomes the other's partner, with its boundaries suspended, its
activity TALK with its counts cleared, and its timeslot IDLE; everything else of both stays. On the R line it is refused
NOT_OWNER; naming one channel twice, a channel that is not ACTIVE or one already spliced, WRONG_STATE. -/
def Obligations.SpliceJoinsTwoChannels : Prop :=
  (∀ (o : Order) (b : Chan) (s : State) (x y : Active), s.addressed o → o.line = .F → o.channel ≠ b →
    s.life o.channel = .active x → s.life b = .active y → x.partner = none → y.partner = none →
    ∃ t, exec (.splice o b) s = .next t ∧ t.answered o .done o.echoed 0
      ∧ s.orderFrame t o [o.channel, b] [x.fixed.timeslot, y.fixed.timeslot] ∧ t.pool = s.pool ∧ t.link = s.link
      ∧ t.slot x.fixed.timeslot = { s.slot x.fixed.timeslot with source := .idle }
      ∧ t.slot y.fixed.timeslot = { s.slot y.fixed.timeslot with source := .idle }
      ∧ t.chan o.channel = { s.chan o.channel with life := .active { x with
          partner := some b
          down := { x.down with
            boundary := none, activity := .talk, lowRun := 0, weakOnset := false, quietCount := 0 } } }
      ∧ t.chan b = { s.chan b with life := .active { y with
          partner := some o.channel
          down := { y.down with
            boundary := none, activity := .talk, lowRun := 0, weakOnset := false, quietCount := 0 } } })
    ∧ ∀ (o : Order) (b : Chan) (s : State), s.addressed o →
      (o.line = .R → s.refuses (.splice o b) o .notOwner o.echoed)
      ∧ (o.line = .F →
        o.channel = b ∨ (s.life o.channel).lifecycle ≠ .active ∨ (s.life b).lifecycle ≠ .active
          ∨ (s.life o.channel).partner? ≠ none ∨ (s.life b).partner? ≠ none →
        s.refuses (.splice o b) o .wrongState o.echoed)

/-- UNSPLICE of either channel of a splice: on both channels the partner is gone, the ring is zeros, the next boundary falls
at the first later sample time whose cycle value is the downlink phase, and SPLICE_ENDED is recorded for the F line. A
DIRECT window becomes DECODING with its DECODE offered, or held; a DECODE withdrawn in the offer, as a miss, leaves the
window CLOSED. With both windows DIRECT the two are offered one after the other, in the order of the Job Queue (the model's
reading: notes/assumptions/9.md). On the R line UNSPLICE is refused NOT_OWNER, on a channel that is not spliced WRONG_STATE. -/
def Obligations.UnspliceResumesBothDownlinks : Prop :=
  (∀ (o : Order) (b : Chan) (s : State) (x y : Active), s.phasesOk → s.addressed o → o.line = .F → o.channel ≠ b →
    s.life o.channel = .active x → s.life b = .active y → x.partner = some b → y.partner = some o.channel →
    ∃ t m n x' y', exec (.unsplice o) s = .next t ∧ t.answered o .done o.echoed 0
      ∧ s.orderFrame t o [o.channel, b] [] ∧ t.link = s.link
      ∧ (s.time < m ∧ m ≤ s.time + 160 ∧ (s.cycle + (m - s.time)) % 160 = x.down.phase)
      ∧ (s.time < n ∧ n ≤ s.time + 160 ∧ (s.cycle + (n - s.time)) % 160 = y.down.phase)
      ∧ x' = { x with
          partner := none
          down := { x.down with boundary := some m, ring := List.replicate 320 0, collecting := false } }
      ∧ y' = { y with
          partner := none
          down := { y.down with boundary := some n, ring := List.replicate 320 0, collecting := false } }
      ∧ (s.directFrame o.channel = none →
        t.chan o.channel = { s.chan o.channel with
          life := .active x', eventsF := s.recordedFor .F .spliceEnded (s.chan o.channel).eventsF })
      ∧ (s.directFrame b = none →
        t.chan b = { s.chan b with
          life := .active y', eventsF := s.recordedFor .F .spliceEnded (s.chan b).eventsF })
      ∧ (s.directFrame o.channel = none → s.directFrame b = none → t.pool = s.pool)
      ∧ (∀ (k d : Chan) (z : Active) (deadline : Nat) (f : SpeechFrame),
        (k = o.channel ∧ d = b ∧ z = x') ∨ (k = b ∧ d = o.channel ∧ z = y') → s.directFrame d = none →
        s.directFrame k = some (f, deadline) →
        ∃ w, s.decodeOffered t k f deadline w ∧ s.unspliced t k z w)
      ∧ ∀ (f g : SpeechFrame) (p q : Nat), s.directFrame o.channel = some (f, p) → s.directFrame b = some (g, q) →
        ∃ u w w', u.device = s.device ∧ s.unspliced t o.channel x' w ∧ s.unspliced t b y' w'
          ∧ (p < q ∨ (p = q ∧ o.channel < b) → s.decodeOffered u o.channel f p w ∧ u.decodeOffered t b g q w')
          ∧ (q < p ∨ (p = q ∧ b < o.channel) → s.decodeOffered u b g q w' ∧ u.decodeOffered t o.channel f p w))
    ∧ ∀ (o : Order) (s : State), s.addressed o →
      (o.line = .R → s.refuses (.unsplice o) o .notOwner o.echoed)
      ∧ (o.line = .F → (s.life o.channel).partner? = none → s.refuses (.unsplice o) o .wrongState o.echoed)

/-! ### Staging orders -/

/-- STAGE of an item of the issuing line into a row that is EMPTY or OPEN for the channel: the row is latched to the channel
and holds the item with the value as staged, clamped where the item's range clamps; every other item of the row stays. Else
STAGE is refused by the first check that fails: NOT_OWNER for an item of the other line, BUSY with the row PENDING,
WRONG_STATE where the channel does not hold the line's half, WRONG_ROW with the row latched to another channel, BAD_ARGUMENT
for a value that the item refuses, TAKEN for a timeslot of another channel. -/
def Obligations.StageHoldsTheItem : Prop :=
  (∀ (o : Order) (item : Item) (value v : BitVec 16) (s : State), s.addressed o → item.line = o.line →
    (s.line o.line).row.pending = false → (s.life o.channel).holds o.line = true →
    ((s.line o.line).row.latched = none ∨ (s.line o.line).row.latched = some o.channel) →
    ((item = .timeslot ∧ v = value ∧ ∃ x : Slot, value = BitVec.ofNat 16 x.val
        ∧ ((s.slot x).entry = .free ∨ (s.slot x).entry = .bound o.channel
          ∨ (s.slot x).entry = .reserved o.channel))
      ∨ ((item = .gainToFixed ∨ item = .gainToRadio) ∧ v.toNat = min value.toNat 1023)
      ∨ (item = .quietThreshold ∧ v.toNat = min value.toNat 2047)
      ∨ (item = .mode ∧ 1 ≤ value.toNat ∧ value.toNat ≤ 3 ∧ v = value)
      ∨ (item = .modeSet ∧ value.toNat ≤ 7 ∧ value.getLsbD 0 = true ∧ v = value)
      ∨ (item = .align ∧ v.toInt = max (-40) (min 40 value.toInt))
      ∨ (item = .dtx ∧ value.toNat ≤ 1 ∧ v = value)) →
    ∃ t row, exec (.stage o item value) s = .next t
      ∧ t.answered o (if v = value then .done else .clamped) o.echoed (v.setWidth 24)
      ∧ s.orderFrameTo t o [] [] { s.line o.line with row } ∧ t.pool = s.pool ∧ t.link = s.link
      ∧ row.latched = some o.channel ∧ row.pending = false
      ∧ ∀ p, p ∈ row.slots ↔ (p = (item, v) ∨ (p ∈ (s.line o.line).row.slots ∧ p.1 ≠ item)))
    ∧ ∀ (o : Order) (item : Item) (value : BitVec 16) (s : State), s.addressed o →
      (item.line ≠ o.line → s.refuses (.stage o item value) o .notOwner o.echoed)
      ∧ (item.line = o.line →
        ((s.line o.line).row.pending = true → s.refuses (.stage o item value) o .busy o.echoed)
        ∧ ((s.line o.line).row.pending = false →
          ((s.life o.channel).holds o.line = false → s.refuses (.stage o item value) o .wrongState o.echoed)
          ∧ ((s.life o.channel).holds o.line = true →
            (∀ c, (s.line o.line).row.latched = some c → c ≠ o.channel →
              s.refuses (.stage o item value) o .wrongRow o.echoed)
            ∧ ((s.line o.line).row.latched = none ∨ (s.line o.line).row.latched = some o.channel →
              ((item = .timeslot ∧ 127 < value.toNat)
                  ∨ (item = .mode ∧ (value.toNat = 0 ∨ 3 < value.toNat))
                  ∨ (item = .modeSet ∧ (7 < value.toNat ∨ value.getLsbD 0 = false))
                  ∨ (item = .dtx ∧ 1 < value.toNat) →
                s.refuses (.stage o item value) o .badArgument o.echoed)
              ∧ ∀ x : Slot, item = .timeslot → value.toNat = x.val → (s.slot x).entry ≠ .free →
                (s.slot x).entry ≠ .bound o.channel → (s.slot x).entry ≠ .reserved o.channel →
                s.refuses (.stage o item value) o .taken o.echoed))))

/-- COMMIT of an OPEN row latched to an ACTIVE channel makes it PENDING, answered PENDING with the latched channel, and a
FREE timeslot it names is reserved. On a channel in a half state it applies the row in the order, whatever items it holds
together: the row is EMPTY and COMMIT_APPLIED recorded, each staged gain, threshold, mode set, mode, offset or DTX is written
and no other field, and a HALF_R channel's active mode follows a staged MODE or MODE_SET. A TIMESLOT moves the binding and
the source of a HALF_F channel, the old timeslot left FREE and IDLE; its own timeslot changes nothing. That the entries
change in the COMMIT itself, the octets moving with the next sample time, is the model's reading (notes/assumptions/7.md).
COMMIT of an EMPTY row is refused BAD_ARGUMENT with channel 0, of a PENDING one BUSY, and with a timeslot of another channel
TAKEN (the channel fields of refused orders: notes/assumptions/8.md). -/
def Obligations.CommitWaitsOrApplies : Prop :=
  (∀ (o : Order) (s : State) (c : Chan), s.addressed o → (s.line o.line).row.latched = some c →
      (s.line o.line).row.pending = false → (s.life c).lifecycle = .active →
      ((s.line o.line).row.timeslot? = none →
        ∃ t, exec (.commit o) s = .next t ∧ t.answered o .pending (BitVec.ofNat 7 c.val) 0
          ∧ s.orderFrameTo t o [] [] { s.line o.line with row := { (s.line o.line).row with pending := true } }
          ∧ t.pool = s.pool ∧ t.link = s.link)
      ∧ ∀ x, (s.line o.line).row.timeslot? = some x → (s.slot x).entry = .free ∨ (s.slot x).entry = .bound c →
        ∃ t, exec (.commit o) s = .next t ∧ t.answered o .pending (BitVec.ofNat 7 c.val) 0
          ∧ s.orderFrameTo t o [] [x] { s.line o.line with row := { (s.line o.line).row with pending := true } }
          ∧ t.pool = s.pool ∧ t.link = s.link
          ∧ t.slot x = (if (s.slot x).entry = .free then { s.slot x with entry := .reserved c } else s.slot x))
    ∧ (∀ (o : Order) (s : State) (c : Chan), s.addressed o → (s.line o.line).row.latched = some c →
      (s.line o.line).row.pending = false →
      (∀ h, o.line = .F → s.rowsOk → s.life c = .halfF h →
        (∀ x, s.lineF.row.timeslot? = some x →
          (s.slot x).entry = .bound c
            ∨ (x ≠ h.fixed.timeslot ∧ ((s.slot x).entry = .free ∨ (s.slot x).entry = .reserved c))) →
        ∃ t fixed, exec (.commit o) s = .next t ∧ t.answered o .done (BitVec.ofNat 7 c.val) 0
          ∧ s.orderFrameTo t o [c] (h.fixed.timeslot :: s.lineF.row.timeslot?.toList)
            { s.line o.line with row := { latched := none, slots := [], pending := false } }
          ∧ t.pool = s.pool ∧ t.link = s.link
          ∧ t.chan c = { s.chan c with
              life := .halfF { h with fixed }, eventsF := s.recordedFor .F .commitApplied (s.chan c).eventsF }
          ∧ s.lineF.row.setsFixed h.fixed fixed ∧ fixed.feed = h.fixed.feed
          ∧ (s.lineF.row.timeslot? = none ∨ s.lineF.row.timeslot? = some h.fixed.timeslot →
            fixed.timeslot = h.fixed.timeslot ∧ t.slot h.fixed.timeslot = s.slot h.fixed.timeslot)
          ∧ ∀ x, s.lineF.row.timeslot? = some x → x ≠ h.fixed.timeslot →
            fixed.timeslot = x
              ∧ t.slot x = { s.slot x with entry := .bound c, source := (s.slot h.fixed.timeslot).source }
              ∧ t.slot h.fixed.timeslot = { s.slot h.fixed.timeslot with entry := .free, source := .idle })
      ∧ ∀ h, o.line = .R → s.rowsOk → s.life c = .halfR h →
        ∃ t radio, exec (.commit o) s = .next t ∧ t.answered o .done (BitVec.ofNat 7 c.val) 0
          ∧ s.orderFrameTo t o [c] []
            { s.line o.line with row := { latched := none, slots := [], pending := false } }
          ∧ t.pool = s.pool ∧ t.link = s.link
          ∧ t.chan c = { s.chan c with
              life := .halfR { h with radio }, eventsR := s.recordedFor .R .commitApplied (s.chan c).eventsR }
          ∧ s.lineR.row.setsRadio .m32 h.radio radio)
    ∧ ∀ (o : Order) (s : State), s.addressed o →
      ((s.line o.line).row.latched = none → s.refuses (.commit o) o .badArgument 0)
      ∧ ∀ c, (s.line o.line).row.latched = some c →
        ((s.line o.line).row.pending = true → s.refuses (.commit o) o .busy (BitVec.ofNat 7 c.val))
        ∧ ∀ x, (s.line o.line).row.pending = false → (s.line o.line).row.timeslot? = some x →
          (s.slot x).entry ≠ .free → (s.slot x).entry ≠ .bound c → (s.slot x).entry ≠ .reserved c →
          s.refuses (.commit o) o .taken (BitVec.ofNat 7 c.val)

/-- CANCEL of an OPEN or EMPTY row is answered DONE and leaves the row EMPTY; of a PENDING row it is answered BUSY and the
row waits on. No event is recorded and no timeslot freed, and the channel octet is not used. -/
def Obligations.CancelEmptiesTheRow : Prop :=
  ∀ (o : Order) (s : State), s.addressed o →
    ∃ t, exec (.cancel o) s = .next t ∧ t.pool = s.pool ∧ t.link = s.link
      ∧ (∀ k, (t.line k).events = (s.line k).events)
      ∧ ((s.line o.line).row.pending = false → t.answered o .done o.echoed 0
        ∧ s.orderFrameTo t o [] [] { s.line o.line with row := { latched := none, slots := [], pending := false } })
      ∧ ((s.line o.line).row.pending = true → t.answered o .busy o.echoed 0 ∧ s.orderFrame t o [] [])

/-! ### Orders that read and clear -/

/-- READ_CHANNEL gives the summary, a counter or the continuity record, and changes nothing but, for the summary of an
ACTIVE channel, the reading line's reported copy; an aspect above 12 is BAD_ARGUMENT. -/
def Obligations.ReadChannelShowsTheContext : Prop :=
  ∀ (o : Order) (aspect : Fin 16) (s : State), s.addressed o →
    ∃ t data result, exec (.readChannel o aspect) s = .next t ∧ t.answered o result o.echoed data
      ∧ t.pool = s.pool ∧ t.link = s.link ∧ result = (if aspect.val ≤ 12 then .done else .badArgument)
      ∧ (aspect.val ≠ 0 → s.orderFrame t o [] [])
      ∧ (∀ k : Counter, aspect.val = k.index.val + 1 → data = ((s.chan o.channel).counter k).setWidth 24)
      ∧ (aspect.val = 12 → data = BitVec.ofNat 24
        ((s.chan o.channel).continuity.result.code * 65536 + (s.chan o.channel).continuity.delay))
      ∧ (aspect.val = 0 → s.life o.channel = .free → data = 0 ∧ s.orderFrame t o [] [])
      ∧ (∀ h, aspect.val = 0 → s.life o.channel = .halfF h → s.orderFrame t o [] []
        ∧ data = (1#2 ++ 0#2 ++ BitVec.ofBool h.timer.isSome ++ BitVec.ofNat 3 h.fixed.profile.val ++ 0#2 ++ h.tag))
      ∧ (∀ h, aspect.val = 0 → s.life o.channel = .halfR h → s.orderFrame t o [] []
        ∧ data = (2#2 ++ 0#2 ++ BitVec.ofBool h.timer.isSome ++ 0#3 ++ BitVec.ofNat 2 h.radio.active.code ++ h.tag))
      ∧ ∀ a, aspect.val = 0 → s.life o.channel = .active a → s.orderFrame t o [o.channel] []
        ∧ data = (3#2 ++ BitVec.ofBool (decide (a.down.activity = .quiet)) ++ BitVec.ofBool a.partner.isSome ++ 0#1
          ++ BitVec.ofNat 3 a.fixed.profile.val ++ BitVec.ofNat 2 a.radio.active.code ++ a.tag)
        ∧ (o.line = .F → t.chan o.channel
          = { s.chan o.channel with life := .active { a with copyF := a.down.activity } })
        ∧ (o.line = .R → t.chan o.channel
          = { s.chan o.channel with life := .active { a with copyR := a.down.activity } })

/-- NEXT_EVENT shows the head channel of the line's event list with its kinds and causes, or zeros for an empty list, and
the line's event set, as the order finds them; on a SILENT line it finds WATCHDOG_EXPIRED recorded in the set. It changes
nothing of its own. -/
def Obligations.NextEventShowsTheHead : Prop :=
  ∀ (o : Order) (s : State) (found : BitVec 5), s.addressed o →
    found = (if (s.line o.line).silent = true then s.recordedSet o.line .watchdogExpired (s.line o.line).lineEvents
      else (s.line o.line).lineEvents) →
    ∃ t, exec (.nextEvent o) s = .next t ∧ s.orderFrame t o [] [] ∧ t.pool = s.pool ∧ t.link = s.link
      ∧ (t.line o.line).events = (s.line o.line).events ∧ (t.line o.line).lineEvents = found
      ∧ ((s.line o.line).events = [] → t.answered o .done 0 (0#5 ++ found ++ 0#14))
      ∧ ∀ c rest, (s.line o.line).events = c :: rest →
        t.answered o .done (BitVec.ofNat 7 c.val)
          (0#5 ++ found ++ ((s.chan c).events o.line).causes ++ ((s.chan c).events o.line).kinds)

/-- CLEAR_EVENTS removes the kinds named from the channel's record for the line, every cause with STREAM_WARNING; the
channel leaves the list where no kind remains, and the other line's record and list stay. CLEAR_LINE_EVENTS removes the
kinds named from the line's event set, under broadcast too; on a SILENT line WATCHDOG_EXPIRED is recorded in the set first,
and is removed where it is named. The replies show what remains. -/
def Obligations.ClearsRemoveTheKindsNamed : Prop :=
  ∀ (o : Order) (s : State),
    (∀ (kinds : BitVec 9) (e : EventRecord), s.addressed o → s.eventsOk →
      e.kinds = ((s.chan o.channel).events o.line).kinds &&& ~~~kinds →
      e.causes = (if kinds.getLsbD 4 then 0 else ((s.chan o.channel).events o.line).causes) →
      ∃ t, exec (.clearEvents o kinds) s = .next t ∧ s.orderFrame t o [o.channel] [] ∧ t.pool = s.pool
        ∧ t.link = s.link ∧ t.answered o .done o.echoed (0#10 ++ e.causes ++ e.kinds)
        ∧ t.chan o.channel = (s.chan o.channel).setEvents o.line e
        ∧ (t.line o.line).events
          = (if e.kinds = 0 then (s.line o.line).events.filter (fun c => decide (c ≠ o.channel))
            else (s.line o.line).events)
        ∧ (t.line (otherLine o.line)).events = (s.line (otherLine o.line)).events)
    ∧ ∀ kinds found : BitVec 5, s.reachedBy o →
      found = (if (s.line o.line).silent = true then s.recordedSet o.line .watchdogExpired (s.line o.line).lineEvents
        else (s.line o.line).lineEvents) →
      ∃ t, exec (.clearLineEvents o kinds) s = .next t ∧ s.orderFrame t o [] [] ∧ t.pool = s.pool ∧ t.link = s.link
        ∧ (t.line o.line).events = (s.line o.line).events
        ∧ (t.line o.line).lineEvents = found &&& ~~~kinds
        ∧ (o.node ≠ 7 → t.answered o .done o.echoed ((found &&& ~~~kinds).setWidth 24))

/-- SELECT_ITEM sets the pointer to an index of the space, and refuses one above the last (with the index in the channel
field, the model's reading: notes/assumptions/8.md). READ_ITEM returns the value at the pointer and moves it on by one, from
the last index of the space to 0: profile fields and check values with their states, the pattern and the mask, the settings
of both lines, and the values of the DEVICE space. A line reads its own watchdog as ALIVE, since the order itself returns it
to ALIVE. -/
def Obligations.ItemsAreSelectedAndRead : Prop :=
  ∀ (o : Order) (s : State), s.addressed o →
    (∀ (space : Space) (index : Fin 128),
      ∃ t, exec (.selectItem o space index) s = .next t ∧ t.pool = s.pool ∧ t.link = s.link
        ∧ (index.val ≤ space.last →
          t.answered o .done (BitVec.ofNat 7 index.val) (BitVec.ofNat 24 (256 * space.code + index.val))
          ∧ s.orderFrameTo t o [] [] { s.line o.line with space, index := index.val })
        ∧ (space.last < index.val →
          t.answered o .badArgument (BitVec.ofNat 7 index.val) 0 ∧ s.orderFrame t o [] []))
    ∧ ∃ t v, exec (.readItem o) s = .next t ∧ t.pool = s.pool ∧ t.link = s.link
      ∧ t.answered o .done (BitVec.ofNat 7 (s.line o.line).index) (BitVec.ofNat 24 v)
      ∧ s.orderFrameTo t o [] [] { s.line o.line with index :=
          if (s.line o.line).index < (s.line o.line).space.last then (s.line o.line).index + 1 else 0 }
      ∧ (∀ (p f : Fin 8), (s.line o.line).space = .profile → (s.line o.line).index = 9 * p.val + f.val →
        v = (s.profiles[p.val]).field f.val)
      ∧ (∀ p : Fin 8, (s.line o.line).space = .profile → (s.line o.line).index = 9 * p.val + 8 →
        v = (s.profiles[p.val]).checkValue
          + 256 * (match (s.profiles[p.val]).state with | .unchecked => 0 | .valid => 1 | .invalid => 2))
      ∧ (∀ j : Fin 16, (s.line o.line).space = .pattern → (s.line o.line).index = j.val →
        v = (s.pattern[j.val]).toNat)
      ∧ ((s.line o.line).space = .pattern → (s.line o.line).index = 16 → v = s.mask.toNat)
      ∧ (∀ (l : Line) (offset : Fin 4), (s.line o.line).space = .line →
        (s.line o.line).index = (if l = .F then 0 else 4) + offset.val →
        (offset.val = 0 → v = (s.line l).settings.watchdogLimit)
        ∧ (offset.val = 1 → v = if (s.line l).settings.releaseAction = true then 1 else 0)
        ∧ (offset.val = 2 → v = (s.line l).settings.halfWaitLimit)
        ∧ (offset.val = 3 → v = (s.line l).settings.eventMask.toNat))
      ∧ ((s.line o.line).space = .device →
        ((s.line o.line).index = 0 → v = 0x0A3C) ∧ ((s.line o.line).index = 1 → v = 0x4128)
        ∧ ((s.line o.line).index = 2 → v = 1)
        ∧ ((s.line o.line).index = 3 →
          v = match s.cause with | .powerOn => 0 | .resetPin => 1 | .joint => 2 | .solo => 3)
        ∧ (∀ e : Fin 4, (s.line o.line).index = 4 + e.val →
          v = match s.engines[e.val] with | .free => 0 | .busy _ _ => 1 | .draining _ _ => 2 | .out => 3)
        ∧ ((s.line o.line).index = 8 → v = s.unreadable.toNat) ∧ ((s.line o.line).index = 9 → v = s.stray.toNat)
        ∧ ((s.line o.line).index = 10 → v = s.lineF.node.toNat)
        ∧ ((s.line o.line).index = 11 → v = s.lineR.node.toNat)
        ∧ ((s.line o.line).index = 12 → v = if o.line = .R ∧ s.lineF.silent = true then 1 else 0)
        ∧ ((s.line o.line).index = 13 → v = if o.line = .F ∧ s.lineR.silent = true then 1 else 0))

/-- WRITE_ITEM by the F line into the PROFILE space: a field is stored as the nearest value of its range, CLAMPED where that
differs, and the profile becomes UNCHECKED; a check value makes it VALID exactly where the CRC-8 of its fields equals it,
the reply showing the check value and that state. Into the PATTERN space, with no check RUNNING, an octet or the mask is
replaced; with a check RUNNING on any channel the write is refused BUSY (with the pointer's index in the channel field, the
model's reading: notes/assumptions/8.md). -/
def Obligations.ProfilesAndPatternAreWritten : Prop :=
  ∀ (o : Order) (value : BitVec 16) (s : State) (u : LineUnit), s.addressed o → o.line = .F →
    u = { s.lineF with index := if s.lineF.index < s.lineF.space.last then s.lineF.index + 1 else 0 } →
    (∀ (p f : Fin 8) (v : Nat), s.lineF.space = .profile → s.lineF.index = 9 * p.val + f.val →
      v = max (profileRange f.val).1 (min (profileRange f.val).2 value.toNat) →
      ∃ t, exec (.writeItem o value) s = .next t ∧ s.orderFrameTo { t with profiles := s.profiles } o [] [] u
        ∧ t.answered o (if v = value.toNat then .done else .clamped) (BitVec.ofNat 7 s.lineF.index)
          (BitVec.ofNat 24 v)
        ∧ t.pool = s.pool ∧ t.link = s.link ∧ (∀ q : Fin 8, q ≠ p → t.profiles[q.val] = s.profiles[q.val])
        ∧ (t.profiles[p.val]).field f.val = v ∧ (t.profiles[p.val]).state = .unchecked
        ∧ (t.profiles[p.val]).checkValue = (s.profiles[p.val]).checkValue
        ∧ ∀ g : Fin 8, g ≠ f → (t.profiles[p.val]).field g.val = (s.profiles[p.val]).field g.val)
    ∧ (∀ (p : Fin 8) (v : Nat), s.lineF.space = .profile → s.lineF.index = 9 * p.val + 8 → v = min 255 value.toNat →
      ∃ t, exec (.writeItem o value) s = .next t ∧ s.orderFrameTo { t with profiles := s.profiles } o [] [] u
        ∧ t.answered o (if v = value.toNat then .done else .clamped) (BitVec.ofNat 7 s.lineF.index)
          (BitVec.ofNat 24 (v + 256 * if (Checks.crc8 (s.profiles[p.val]).octets).toNat = v then 1 else 2))
        ∧ t.pool = s.pool ∧ t.link = s.link ∧ (∀ q : Fin 8, q ≠ p → t.profiles[q.val] = s.profiles[q.val])
        ∧ t.profiles[p.val] = { s.profiles[p.val] with
            checkValue := v
            state := if (Checks.crc8 (s.profiles[p.val]).octets).toNat = v then .valid else .invalid })
    ∧ (∀ (j : Fin 16) (v : Nat), s.lineF.space = .pattern → s.lineF.index = j.val →
      (∀ c, (s.chan c).continuity.result ≠ .running) → v = min value.toNat 255 →
      ∃ t, exec (.writeItem o value) s = .next t ∧ s.orderFrameTo { t with pattern := s.pattern } o [] [] u
        ∧ t.answered o (if v = value.toNat then .done else .clamped) (BitVec.ofNat 7 j.val) (BitVec.ofNat 24 v)
        ∧ t.pool = s.pool ∧ t.link = s.link ∧ t.pattern = s.pattern.set j.val (BitVec.ofNat 8 v))
    ∧ (s.lineF.space = .pattern → s.lineF.index = 16 → (∀ c, (s.chan c).continuity.result ≠ .running) →
      ∃ t, exec (.writeItem o value) s = .next t ∧ s.orderFrameTo { t with mask := s.mask } o [] [] u
        ∧ t.answered o .done 16 (value.setWidth 24) ∧ t.pool = s.pool ∧ t.link = s.link ∧ t.mask = value)
    ∧ (s.lineF.space = .pattern → (∃ c, (s.chan c).continuity.result = .running) →
      s.refuses (.writeItem o value) o .busy (BitVec.ofNat 7 s.lineF.index))

/-- WRITE_ITEM into a line's own LINE settings: the watchdog and half-wait limits are stored as the nearest value of their
ranges, the action takes 0 or 1 and refuses any other value BAD_ARGUMENT, the event mask drops bits 15–14; CLAMPED shows a
changed value. The other settings stay. A new watchdog limit sets the expiry from itself, and 0 removes it. An item of the
other line, an item of the PROFILE or PATTERN space written by the R line, and any DEVICE item, is NOT_OWNER (with the
pointer's index in the channel field, the model's reading: notes/assumptions/8.md). -/
def Obligations.LineSettingsAreWrittenByTheirLine : Prop :=
  ∀ (o : Order) (value : BitVec 16) (s : State) (offset : Fin 4), s.addressed o →
    ((s.line o.line).space = .line → (s.line o.line).index = (if o.line = .F then 0 else 4) + offset.val →
      (offset.val = 1 → value.toNat ≤ 1) →
      ∃ t settings v, exec (.writeItem o value) s = .next t ∧ t.pool = s.pool ∧ t.link = s.link
        ∧ s.orderFrameTo t o [] [] { s.line o.line with
            settings, index := if (s.line o.line).index < 7 then (s.line o.line).index + 1 else 0 }
        ∧ t.answered o (if v = value.toNat then .done else .clamped) (BitVec.ofNat 7 (s.line o.line).index)
          (BitVec.ofNat 24 v)
        ∧ (t.line o.line).expiry = (if settings.watchdogLimit = 0 then none
          else some { expiry := s.time + settings.watchdogLimit * 800, since := s.clock })
        ∧ (offset.val = 0 → v = min value.toNat 63
          ∧ settings = { (s.line o.line).settings with watchdogLimit := v })
        ∧ (offset.val = 1 → v = value.toNat
          ∧ settings = { (s.line o.line).settings with releaseAction := decide (v = 1) })
        ∧ (offset.val = 2 → v = min value.toNat 255
          ∧ settings = { (s.line o.line).settings with halfWaitLimit := v })
        ∧ (offset.val = 3 → v = value.toNat % 16384
          ∧ settings = { (s.line o.line).settings with eventMask := value.setWidth 14 }))
    ∧ ((s.line o.line).space = .line → (s.line o.line).index = (if o.line = .F then 1 else 5) → 1 < value.toNat →
      s.refuses (.writeItem o value) o .badArgument (BitVec.ofNat 7 (s.line o.line).index))
    ∧ ((s.line o.line).space = .device
        ∨ (o.line = .R ∧ ((s.line o.line).space = .profile ∨ (s.line o.line).space = .pattern))
        ∨ ((s.line o.line).space = .line ∧ (s.line o.line).index = (if o.line = .F then 4 else 0) + offset.val) →
      s.refuses (.writeItem o value) o .notOwner (BitVec.ofNat 7 (s.line o.line).index))

/-! ### Engine service and restart -/

/-- ENGINE_SERVICE OUT: FREE becomes OUT, BUSY becomes DRAINING with its job running on, DRAINING and OUT stay, and the
queue is not touched. ENGINE_SERVICE IN: DRAINING becomes BUSY with its job running on, FREE and BUSY stay, and OUT becomes
FREE and takes the head of the Job Queue in the order itself. The data is the engine's state after the order. -/
def Obligations.EngineServiceTakesEnginesOutAndIn : Prop :=
  (∀ (o : Order) (e : Fin 4) (s : State), s.addressed o → o.line = .F →
      ∃ t g, exec (.engineServiceOut o e) s = .next t ∧ s.orderFrame t o [] [] ∧ t.link = s.link ∧ t.jobs = s.jobs
        ∧ t.engines = s.engines.set e.val g
        ∧ (s.engines[e.val] = .free ∨ s.engines[e.val] = .out → g = .out ∧ t.answered o .done o.echoed 3)
        ∧ ∀ j ends, s.engines[e.val] = .busy j ends ∨ s.engines[e.val] = .draining j ends →
          g = .draining j ends ∧ t.answered o .done o.echoed 2)
    ∧ ∀ (o : Order) (e : Fin 4) (s : State), s.arbiterOk → s.addressed o → o.line = .F →
      ∃ t, exec (.engineServiceIn o e) s = .next t ∧ s.orderFrame t o [] [] ∧ t.link = s.link
        ∧ (s.engines[e.val] = .free → t.pool = s.pool ∧ t.answered o .done o.echoed 0)
        ∧ (∀ j ends, s.engines[e.val] = .busy j ends ∨ s.engines[e.val] = .draining j ends →
          t.jobs = s.jobs ∧ t.engines = s.engines.set e.val (.busy j ends) ∧ t.answered o .done o.echoed 1)
        ∧ (s.engines[e.val] = .out → s.jobs = [] →
          t.jobs = [] ∧ t.engines = s.engines.set e.val .free ∧ t.answered o .done o.echoed 0)
        ∧ ∀ head rest, s.engines[e.val] = .out → s.jobs = head :: rest →
          t.jobs = rest
            ∧ t.engines = s.engines.set e.val (.busy head (s.clock + (320 + 1280 * (head.mode.bits + 2))))
            ∧ t.answered o .done o.echoed 1

/-- RESTART, under broadcast too, joins the other line's pending request, restarts solo against a SILENT line without one,
and else becomes a request that lapses 16,000 sample times on, with RESTART_REQUESTED for the other line. RESTART_LAPSE
removes the request and records RESTART_EXPIRED for its line. That a restart answered DONE takes the place of one already
due is the model's choice (notes/assumptions/16.md). -/
def Obligations.RestartIsAskedForAndLapses : Prop :=
  (∀ (o : Order) (s : State) (other : LineUnit), s.reachedBy o → other = s.line (otherLine o.line) →
    ∃ t, exec (.restart o) s = .next t ∧ t.pool = s.pool ∧ t.link = s.link
      ∧ (other.request ≠ none →
        s.orderFrame { t with restartDue := s.restartDue } o [] [] ∧ t.restartDue = some (o.line, .joint)
        ∧ (o.node ≠ 7 → t.answered o .done o.echoed 0))
      ∧ (other.request = none → other.silent = true →
        s.orderFrame { t with restartDue := s.restartDue } o [] [] ∧ t.restartDue = some (o.line, .solo)
        ∧ (o.node ≠ 7 → t.answered o .done o.echoed 0))
      ∧ (other.request = none → other.silent = false →
        t.device = s.device ∧ s.sameChannels t [] ∧ s.sameSlots t []
        ∧ { s.line o.line with
            request := some { expiry := s.time + 16000, since := s.clock } }.sameButTaking (t.line o.line)
        ∧ t.line (otherLine o.line)
          = { other with lineEvents := s.recordedSet (otherLine o.line) .restartRequested other.lineEvents }
        ∧ (o.node ≠ 7 → t.answered o .pending o.echoed 0)))
    ∧ ∀ (l : Line) (s : State) (tm : Timer), (s.line l).request = some tm → tm.expiry ≤ s.time →
      ∃ t, exec (.restartLapse l) s = .next t ∧ { t with lineF := s.lineF, lineR := s.lineR } = s
        ∧ t.line (otherLine l) = s.line (otherLine l)
        ∧ t.line l = { s.line l with
            request := none, lineEvents := s.recordedSet l .restartExpired (s.line l).lineEvents }

/-- The end of the exchange that restarts the part: every context and event as after power-on, every timeslot FREE and IDLE
from the next sample time on, the pool and the transmit path empty, the device counters 0, both Line Units ALIVE with
expiries set from now and nothing pending; the cycle, the node addresses, the settings, the profiles, the pattern and the
mask stay, and the cause reads JOINT or SOLO. That the command without a due restart changes nothing is the model's choice
(notes/assumptions/3.md), and so is the core clock at which the cut of a record being sent drops both transmit levels, this
very one, where R79 waits for the next transmit clock (notes/assumptions/10.md). -/
def Obligations.RestartExecutionKeepsTheSettings : Prop :=
  (∀ s : State, s.restartDue = none → exec .restartExecution s = .next s)
    ∧ ∀ (l : Line) (cause : RestartCause) (s : State), s.restartDue = some (l, cause) →
      ∃ t, exec .restartExecution s = .next t ∧ t.cause = cause ∧ t.run = s.run ∧ t.restartDue = none
        ∧ (∀ c, (t.chan c).cleared)
        ∧ (∀ x, t.slot x = { s.slot x with entry := .free, source := .idle })
        ∧ (∀ e : Fin 4, t.engines[e.val] = .free) ∧ t.jobs = [] ∧ t.transmit = [] ∧ t.sending = none
        ∧ t.unreadable = 0 ∧ t.stray = 0 ∧ t.begun = 0 ∧ t.cycle = s.cycle ∧ t.time = s.time ∧ t.clock = s.clock
        ∧ t.syncClock = s.syncClock ∧ t.profiles = s.profiles ∧ t.pattern = s.pattern ∧ t.mask = s.mask
        ∧ t.pending = s.pending
        ∧ ∀ k, t.line k =
          { node := (s.line k).node, orderError := false, space := .profile, index := 0, silent := false
            settings := (s.line k).settings, events := [], lineEvents := 0, request := none
            reply := (s.line k).reply, row := { latched := none, slots := [], pending := false }
            expiry :=
              if (s.line k).settings.watchdogLimit = 0 then none
              else some { expiry := s.time + (s.line k).settings.watchdogLimit * 800, since := s.clock } }

/-! ### Encodings -/

/-- Every well-formed order is read back from its six octets on its line. -/
def Obligations.OrdersAreReadBack : Prop :=
  ∀ (i : Instr) (o : Order), i.wellFormed = true → i.order? = some o →
    ∃ octets, encodeOrder i = some octets ∧ octets.length = 6 ∧ decodeOrder o.line octets = some i

/-- A SPEECH record of a mode in the receiving channel's set, and a QUIET record, formed as the layout states with their
CRC-16, are readable, taken to their implied length whatever follows, and give back the channel and the frame. -/
def Obligations.FormedRecordsAreReadBack : Prop :=
  ∀ (c : Chan) (sequence level : Octet) (m : Mode) (predictor : BitVec 16) (stepIndex : Octet)
    (payload after body quiet : List Octet) (modeSet : BitVec 3), m.inSet modeSet = true →
    -8192 ≤ predictor.toInt → predictor.toInt ≤ 8191 → stepIndex.toNat ≤ 63 → payload.length = 20 * (m.code + 1) →
    body = [BitVec.ofNat 8 (64 + 16 * m.code), BitVec.ofNat 8 c.val, sequence, predictor.extractLsb' 8 8,
      predictor.extractLsb' 0 8, stepIndex] ++ payload →
    quiet = [0x80, BitVec.ofNat 8 c.val, sequence, level] →
    (recordOctets (sealRecord body ++ after) = sealRecord body ∧ readable (sealRecord body) = true
      ∧ recordChannel (sealRecord body) = c
      ∧ goodFrame modeSet (sealRecord body)
        = some (.speech
          { sequence, mode := m, predictor := predictor.toInt, stepIndex := stepIndex.toNat, payload }))
    ∧ recordOctets (sealRecord quiet ++ after) = sealRecord quiet ∧ readable (sealRecord quiet) = true
    ∧ recordChannel (sealRecord quiet) = c ∧ goodFrame modeSet (sealRecord quiet) = some (.quiet sequence level)

/-! ### Relations that every step keeps -/

/-- The relations hold of the part right after reset. -/
def Obligations.ResetMeetsEveryRelation : Prop :=
  State.reset.transmitOk ∧ State.reset.arbiterOk ∧ State.reset.jobsOrdered ∧ State.reset.spliceOk
    ∧ State.reset.eventsOk ∧ State.reset.checksOk ∧ State.reset.modesOk ∧ State.reset.phasesOk
    ∧ State.reset.queuesOk ∧ State.reset.rowsOk ∧ State.reset.mapOk ∧ State.reset.rangesOk
    ∧ State.reset.profilesOk ∧ State.reset.oneJobEach

/-- Either no engine is FREE or the Job Queue is empty; the queue stands in key order; at most one job of each channel and
kind is in the pool, queued or running; the Transmit Queue holds at most 32 records and waits only behind a record being
sent. -/
def Obligations.StepKeepsTheQueuesServed : Prop :=
  ∀ s t : State, s.arbiterOk → s.jobsOrdered → s.oneJobEach → s.transmitOk → step s = .next t →
    t.arbiterOk ∧ t.jobsOrdered ∧ t.oneJobEach ∧ t.transmitOk

/-- The splice partner relation stays symmetric and irreflexive and joins only ACTIVE channels; only SPLICE sets a partner
field; none is present after power-on, after the rise of RESET and after a restart. -/
def Obligations.StepKeepsSplicesSymmetric : Prop :=
  (∀ s t : State, s.spliceOk → step s = .next t → t.spliceOk)
    ∧ (∀ (i : Instr) (s t : State) (a b : Chan), exec i s = .next t → (t.life a).partner? = some b →
      (s.life a).partner? = some b ∨ ∃ o d, i = .splice o d ∧ ((a = o.channel ∧ b = d) ∨ (a = d ∧ b = o.channel)))
    ∧ (∀ (s : State) (a b : Chan), (s.life a).partner? = some b → ∃ x, s.life a = .active x)
    ∧ ∀ (s t : State), exec .powerOn s = .next t ∨ exec .resetLow s = .next t
      ∨ (s.run = .resetLow ∧ exec .resetRise s = .next t)
      ∨ (s.restartDue ≠ none ∧ exec .restartExecution s = .next t) → ∀ c, (t.life c).partner? = none

/-- A channel stands in a line's event list at most once, and exactly while it holds a recorded flag for that line. -/
def Obligations.StepKeepsEventListsExact : Prop := ∀ s t : State, s.eventsOk → step s = .next t → t.eventsOk

/-- A continuity record reads RUNNING exactly while a check runs, which it does on a HALF_F channel only; and every active
mode is the one R5 derives. -/
def Obligations.StepKeepsChecksAndModes : Prop :=
  ∀ s t : State, s.checksOk → s.modesOk → step s = .next t → t.checksOk ∧ t.modesOk

/-- Every Receive Queue holds at most 6 frames in ascending distance from its reference, and the cycle and every phase stay
in 0..159. -/
def Obligations.StepKeepsReceiveQueuesOrdered : Prop :=
  ∀ s t : State, s.queuesOk → s.phasesOk → step s = .next t → t.queuesOk ∧ t.phasesOk

/-- The staging rows stay EMPTY, OPEN or PENDING on a channel that holds the line's half, and the timeslot map is BOUND
exactly where a fixed half names the timeslot and RESERVED exactly for a pending move. -/
def Obligations.StepKeepsRowsAndMap : Prop :=
  ∀ s t : State, s.rowsOk → s.mapOk → step s = .next t → t.rowsOk ∧ t.mapOk

/-- Every linear sample, block, predictor and step index stays in its range, and so does every field of every profile. -/
def Obligations.StepKeepsValuesInRange : Prop :=
  ∀ s t : State, s.rangesOk → s.profilesOk → step s = .next t → t.rangesOk ∧ t.profilesOk
end

