-- ==== Sys2Proof/Laws/State.lean ====
section
/-! SUPPORT. One lemma per field per update of the state: what an update leaves, and what it sets. -/

namespace Sys2Proof.Machine

/-! ### setChan -/

@[simp] theorem State.setChan_run (s : State) (c : Chan) (ch : Channel) : (s.setChan c ch).run = s.run := rfl
@[simp] theorem State.setChan_startKind (s : State) (c : Chan) (ch : Channel) : (s.setChan c ch).startKind = s.startKind := rfl
@[simp] theorem State.setChan_cause (s : State) (c : Chan) (ch : Channel) : (s.setChan c ch).cause = s.cause := rfl
@[simp] theorem State.setChan_cycle (s : State) (c : Chan) (ch : Channel) : (s.setChan c ch).cycle = s.cycle := rfl
@[simp] theorem State.setChan_time (s : State) (c : Chan) (ch : Channel) : (s.setChan c ch).time = s.time := rfl
@[simp] theorem State.setChan_clock (s : State) (c : Chan) (ch : Channel) : (s.setChan c ch).clock = s.clock := rfl
@[simp] theorem State.setChan_syncClock (s : State) (c : Chan) (ch : Channel) : (s.setChan c ch).syncClock = s.syncClock := rfl
@[simp] theorem State.setChan_timeslots (s : State) (c : Chan) (ch : Channel) : (s.setChan c ch).timeslots = s.timeslots := rfl
@[simp] theorem State.setChan_lineF (s : State) (c : Chan) (ch : Channel) : (s.setChan c ch).lineF = s.lineF := rfl
@[simp] theorem State.setChan_lineR (s : State) (c : Chan) (ch : Channel) : (s.setChan c ch).lineR = s.lineR := rfl
@[simp] theorem State.setChan_profiles (s : State) (c : Chan) (ch : Channel) : (s.setChan c ch).profiles = s.profiles := rfl
@[simp] theorem State.setChan_pattern (s : State) (c : Chan) (ch : Channel) : (s.setChan c ch).pattern = s.pattern := rfl
@[simp] theorem State.setChan_mask (s : State) (c : Chan) (ch : Channel) : (s.setChan c ch).mask = s.mask := rfl
@[simp] theorem State.setChan_engines (s : State) (c : Chan) (ch : Channel) : (s.setChan c ch).engines = s.engines := rfl
@[simp] theorem State.setChan_jobs (s : State) (c : Chan) (ch : Channel) : (s.setChan c ch).jobs = s.jobs := rfl
@[simp] theorem State.setChan_transmit (s : State) (c : Chan) (ch : Channel) : (s.setChan c ch).transmit = s.transmit := rfl
@[simp] theorem State.setChan_sending (s : State) (c : Chan) (ch : Channel) : (s.setChan c ch).sending = s.sending := rfl
@[simp] theorem State.setChan_unreadable (s : State) (c : Chan) (ch : Channel) : (s.setChan c ch).unreadable = s.unreadable := rfl
@[simp] theorem State.setChan_stray (s : State) (c : Chan) (ch : Channel) : (s.setChan c ch).stray = s.stray := rfl
@[simp] theorem State.setChan_begun (s : State) (c : Chan) (ch : Channel) : (s.setChan c ch).begun = s.begun := rfl
@[simp] theorem State.setChan_restartDue (s : State) (c : Chan) (ch : Channel) : (s.setChan c ch).restartDue = s.restartDue := rfl
@[simp] theorem State.setChan_pending (s : State) (c : Chan) (ch : Channel) : (s.setChan c ch).pending = s.pending := rfl

/-! ### mapChan -/

@[simp] theorem State.mapChan_run (s : State) (c : Chan) (f : Channel → Channel) : (s.mapChan c f).run = s.run := rfl
@[simp] theorem State.mapChan_startKind (s : State) (c : Chan) (f : Channel → Channel) : (s.mapChan c f).startKind = s.startKind := rfl
@[simp] theorem State.mapChan_cause (s : State) (c : Chan) (f : Channel → Channel) : (s.mapChan c f).cause = s.cause := rfl
@[simp] theorem State.mapChan_cycle (s : State) (c : Chan) (f : Channel → Channel) : (s.mapChan c f).cycle = s.cycle := rfl
@[simp] theorem State.mapChan_time (s : State) (c : Chan) (f : Channel → Channel) : (s.mapChan c f).time = s.time := rfl
@[simp] theorem State.mapChan_clock (s : State) (c : Chan) (f : Channel → Channel) : (s.mapChan c f).clock = s.clock := rfl
@[simp] theorem State.mapChan_syncClock (s : State) (c : Chan) (f : Channel → Channel) : (s.mapChan c f).syncClock = s.syncClock := rfl
@[simp] theorem State.mapChan_timeslots (s : State) (c : Chan) (f : Channel → Channel) : (s.mapChan c f).timeslots = s.timeslots := rfl
@[simp] theorem State.mapChan_lineF (s : State) (c : Chan) (f : Channel → Channel) : (s.mapChan c f).lineF = s.lineF := rfl
@[simp] theorem State.mapChan_lineR (s : State) (c : Chan) (f : Channel → Channel) : (s.mapChan c f).lineR = s.lineR := rfl
@[simp] theorem State.mapChan_profiles (s : State) (c : Chan) (f : Channel → Channel) : (s.mapChan c f).profiles = s.profiles := rfl
@[simp] theorem State.mapChan_pattern (s : State) (c : Chan) (f : Channel → Channel) : (s.mapChan c f).pattern = s.pattern := rfl
@[simp] theorem State.mapChan_mask (s : State) (c : Chan) (f : Channel → Channel) : (s.mapChan c f).mask = s.mask := rfl
@[simp] theorem State.mapChan_engines (s : State) (c : Chan) (f : Channel → Channel) : (s.mapChan c f).engines = s.engines := rfl
@[simp] theorem State.mapChan_jobs (s : State) (c : Chan) (f : Channel → Channel) : (s.mapChan c f).jobs = s.jobs := rfl
@[simp] theorem State.mapChan_transmit (s : State) (c : Chan) (f : Channel → Channel) : (s.mapChan c f).transmit = s.transmit := rfl
@[simp] theorem State.mapChan_sending (s : State) (c : Chan) (f : Channel → Channel) : (s.mapChan c f).sending = s.sending := rfl
@[simp] theorem State.mapChan_unreadable (s : State) (c : Chan) (f : Channel → Channel) : (s.mapChan c f).unreadable = s.unreadable := rfl
@[simp] theorem State.mapChan_stray (s : State) (c : Chan) (f : Channel → Channel) : (s.mapChan c f).stray = s.stray := rfl
@[simp] theorem State.mapChan_begun (s : State) (c : Chan) (f : Channel → Channel) : (s.mapChan c f).begun = s.begun := rfl
@[simp] theorem State.mapChan_restartDue (s : State) (c : Chan) (f : Channel → Channel) : (s.mapChan c f).restartDue = s.restartDue := rfl
@[simp] theorem State.mapChan_pending (s : State) (c : Chan) (f : Channel → Channel) : (s.mapChan c f).pending = s.pending := rfl

/-! ### setLife -/

@[simp] theorem State.setLife_run (s : State) (c : Chan) (l : Life) : (s.setLife c l).run = s.run := rfl
@[simp] theorem State.setLife_startKind (s : State) (c : Chan) (l : Life) : (s.setLife c l).startKind = s.startKind := rfl
@[simp] theorem State.setLife_cause (s : State) (c : Chan) (l : Life) : (s.setLife c l).cause = s.cause := rfl
@[simp] theorem State.setLife_cycle (s : State) (c : Chan) (l : Life) : (s.setLife c l).cycle = s.cycle := rfl
@[simp] theorem State.setLife_time (s : State) (c : Chan) (l : Life) : (s.setLife c l).time = s.time := rfl
@[simp] theorem State.setLife_clock (s : State) (c : Chan) (l : Life) : (s.setLife c l).clock = s.clock := rfl
@[simp] theorem State.setLife_syncClock (s : State) (c : Chan) (l : Life) : (s.setLife c l).syncClock = s.syncClock := rfl
@[simp] theorem State.setLife_timeslots (s : State) (c : Chan) (l : Life) : (s.setLife c l).timeslots = s.timeslots := rfl
@[simp] theorem State.setLife_lineF (s : State) (c : Chan) (l : Life) : (s.setLife c l).lineF = s.lineF := rfl
@[simp] theorem State.setLife_lineR (s : State) (c : Chan) (l : Life) : (s.setLife c l).lineR = s.lineR := rfl
@[simp] theorem State.setLife_profiles (s : State) (c : Chan) (l : Life) : (s.setLife c l).profiles = s.profiles := rfl
@[simp] theorem State.setLife_pattern (s : State) (c : Chan) (l : Life) : (s.setLife c l).pattern = s.pattern := rfl
@[simp] theorem State.setLife_mask (s : State) (c : Chan) (l : Life) : (s.setLife c l).mask = s.mask := rfl
@[simp] theorem State.setLife_engines (s : State) (c : Chan) (l : Life) : (s.setLife c l).engines = s.engines := rfl
@[simp] theorem State.setLife_jobs (s : State) (c : Chan) (l : Life) : (s.setLife c l).jobs = s.jobs := rfl
@[simp] theorem State.setLife_transmit (s : State) (c : Chan) (l : Life) : (s.setLife c l).transmit = s.transmit := rfl
@[simp] theorem State.setLife_sending (s : State) (c : Chan) (l : Life) : (s.setLife c l).sending = s.sending := rfl
@[simp] theorem State.setLife_unreadable (s : State) (c : Chan) (l : Life) : (s.setLife c l).unreadable = s.unreadable := rfl
@[simp] theorem State.setLife_stray (s : State) (c : Chan) (l : Life) : (s.setLife c l).stray = s.stray := rfl
@[simp] theorem State.setLife_begun (s : State) (c : Chan) (l : Life) : (s.setLife c l).begun = s.begun := rfl
@[simp] theorem State.setLife_restartDue (s : State) (c : Chan) (l : Life) : (s.setLife c l).restartDue = s.restartDue := rfl
@[simp] theorem State.setLife_pending (s : State) (c : Chan) (l : Life) : (s.setLife c l).pending = s.pending := rfl

/-! ### mapActive -/

@[simp] theorem State.mapActive_run (s : State) (c : Chan) (f : Active → Active) : (s.mapActive c f).run = s.run := by
  unfold State.mapActive; split <;> rfl
@[simp] theorem State.mapActive_startKind (s : State) (c : Chan) (f : Active → Active) : (s.mapActive c f).startKind = s.startKind := by
  unfold State.mapActive; split <;> rfl
@[simp] theorem State.mapActive_cause (s : State) (c : Chan) (f : Active → Active) : (s.mapActive c f).cause = s.cause := by
  unfold State.mapActive; split <;> rfl
@[simp] theorem State.mapActive_cycle (s : State) (c : Chan) (f : Active → Active) : (s.mapActive c f).cycle = s.cycle := by
  unfold State.mapActive; split <;> rfl
@[simp] theorem State.mapActive_time (s : State) (c : Chan) (f : Active → Active) : (s.mapActive c f).time = s.time := by
  unfold State.mapActive; split <;> rfl
@[simp] theorem State.mapActive_clock (s : State) (c : Chan) (f : Active → Active) : (s.mapActive c f).clock = s.clock := by
  unfold State.mapActive; split <;> rfl
@[simp] theorem State.mapActive_syncClock (s : State) (c : Chan) (f : Active → Active) : (s.mapActive c f).syncClock = s.syncClock := by
  unfold State.mapActive; split <;> rfl
@[simp] theorem State.mapActive_timeslots (s : State) (c : Chan) (f : Active → Active) : (s.mapActive c f).timeslots = s.timeslots := by
  unfold State.mapActive; split <;> rfl
@[simp] theorem State.mapActive_lineF (s : State) (c : Chan) (f : Active → Active) : (s.mapActive c f).lineF = s.lineF := by
  unfold State.mapActive; split <;> rfl
@[simp] theorem State.mapActive_lineR (s : State) (c : Chan) (f : Active → Active) : (s.mapActive c f).lineR = s.lineR := by
  unfold State.mapActive; split <;> rfl
@[simp] theorem State.mapActive_profiles (s : State) (c : Chan) (f : Active → Active) : (s.mapActive c f).profiles = s.profiles := by
  unfold State.mapActive; split <;> rfl
@[simp] theorem State.mapActive_pattern (s : State) (c : Chan) (f : Active → Active) : (s.mapActive c f).pattern = s.pattern := by
  unfold State.mapActive; split <;> rfl
@[simp] theorem State.mapActive_mask (s : State) (c : Chan) (f : Active → Active) : (s.mapActive c f).mask = s.mask := by
  unfold State.mapActive; split <;> rfl
@[simp] theorem State.mapActive_engines (s : State) (c : Chan) (f : Active → Active) : (s.mapActive c f).engines = s.engines := by
  unfold State.mapActive; split <;> rfl
@[simp] theorem State.mapActive_jobs (s : State) (c : Chan) (f : Active → Active) : (s.mapActive c f).jobs = s.jobs := by
  unfold State.mapActive; split <;> rfl
@[simp] theorem State.mapActive_transmit (s : State) (c : Chan) (f : Active → Active) : (s.mapActive c f).transmit = s.transmit := by
  unfold State.mapActive; split <;> rfl
@[simp] theorem State.mapActive_sending (s : State) (c : Chan) (f : Active → Active) : (s.mapActive c f).sending = s.sending := by
  unfold State.mapActive; split <;> rfl
@[simp] theorem State.mapActive_unreadable (s : State) (c : Chan) (f : Active → Active) : (s.mapActive c f).unreadable = s.unreadable := by
  unfold State.mapActive; split <;> rfl
@[simp] theorem State.mapActive_stray (s : State) (c : Chan) (f : Active → Active) : (s.mapActive c f).stray = s.stray := by
  unfold State.mapActive; split <;> rfl
@[simp] theorem State.mapActive_begun (s : State) (c : Chan) (f : Active → Active) : (s.mapActive c f).begun = s.begun := by
  unfold State.mapActive; split <;> rfl
@[simp] theorem State.mapActive_restartDue (s : State) (c : Chan) (f : Active → Active) : (s.mapActive c f).restartDue = s.restartDue := by
  unfold State.mapActive; split <;> rfl
@[simp] theorem State.mapActive_pending (s : State) (c : Chan) (f : Active → Active) : (s.mapActive c f).pending = s.pending := by
  unfold State.mapActive; split <;> rfl

/-! ### setSlot -/

@[simp] theorem State.setSlot_run (s : State) (t : Slot) (ts : Timeslot) : (s.setSlot t ts).run = s.run := rfl
@[simp] theorem State.setSlot_startKind (s : State) (t : Slot) (ts : Timeslot) : (s.setSlot t ts).startKind = s.startKind := rfl
@[simp] theorem State.setSlot_cause (s : State) (t : Slot) (ts : Timeslot) : (s.setSlot t ts).cause = s.cause := rfl
@[simp] theorem State.setSlot_cycle (s : State) (t : Slot) (ts : Timeslot) : (s.setSlot t ts).cycle = s.cycle := rfl
@[simp] theorem State.setSlot_time (s : State) (t : Slot) (ts : Timeslot) : (s.setSlot t ts).time = s.time := rfl
@[simp] theorem State.setSlot_clock (s : State) (t : Slot) (ts : Timeslot) : (s.setSlot t ts).clock = s.clock := rfl
@[simp] theorem State.setSlot_syncClock (s : State) (t : Slot) (ts : Timeslot) : (s.setSlot t ts).syncClock = s.syncClock := rfl
@[simp] theorem State.setSlot_channels (s : State) (t : Slot) (ts : Timeslot) : (s.setSlot t ts).channels = s.channels := rfl
@[simp] theorem State.setSlot_lineF (s : State) (t : Slot) (ts : Timeslot) : (s.setSlot t ts).lineF = s.lineF := rfl
@[simp] theorem State.setSlot_lineR (s : State) (t : Slot) (ts : Timeslot) : (s.setSlot t ts).lineR = s.lineR := rfl
@[simp] theorem State.setSlot_profiles (s : State) (t : Slot) (ts : Timeslot) : (s.setSlot t ts).profiles = s.profiles := rfl
@[simp] theorem State.setSlot_pattern (s : State) (t : Slot) (ts : Timeslot) : (s.setSlot t ts).pattern = s.pattern := rfl
@[simp] theorem State.setSlot_mask (s : State) (t : Slot) (ts : Timeslot) : (s.setSlot t ts).mask = s.mask := rfl
@[simp] theorem State.setSlot_engines (s : State) (t : Slot) (ts : Timeslot) : (s.setSlot t ts).engines = s.engines := rfl
@[simp] theorem State.setSlot_jobs (s : State) (t : Slot) (ts : Timeslot) : (s.setSlot t ts).jobs = s.jobs := rfl
@[simp] theorem State.setSlot_transmit (s : State) (t : Slot) (ts : Timeslot) : (s.setSlot t ts).transmit = s.transmit := rfl
@[simp] theorem State.setSlot_sending (s : State) (t : Slot) (ts : Timeslot) : (s.setSlot t ts).sending = s.sending := rfl
@[simp] theorem State.setSlot_unreadable (s : State) (t : Slot) (ts : Timeslot) : (s.setSlot t ts).unreadable = s.unreadable := rfl
@[simp] theorem State.setSlot_stray (s : State) (t : Slot) (ts : Timeslot) : (s.setSlot t ts).stray = s.stray := rfl
@[simp] theorem State.setSlot_begun (s : State) (t : Slot) (ts : Timeslot) : (s.setSlot t ts).begun = s.begun := rfl
@[simp] theorem State.setSlot_restartDue (s : State) (t : Slot) (ts : Timeslot) : (s.setSlot t ts).restartDue = s.restartDue := rfl
@[simp] theorem State.setSlot_pending (s : State) (t : Slot) (ts : Timeslot) : (s.setSlot t ts).pending = s.pending := rfl

/-! ### mapSlot -/

@[simp] theorem State.mapSlot_run (s : State) (t : Slot) (f : Timeslot → Timeslot) : (s.mapSlot t f).run = s.run := rfl
@[simp] theorem State.mapSlot_startKind (s : State) (t : Slot) (f : Timeslot → Timeslot) : (s.mapSlot t f).startKind = s.startKind := rfl
@[simp] theorem State.mapSlot_cause (s : State) (t : Slot) (f : Timeslot → Timeslot) : (s.mapSlot t f).cause = s.cause := rfl
@[simp] theorem State.mapSlot_cycle (s : State) (t : Slot) (f : Timeslot → Timeslot) : (s.mapSlot t f).cycle = s.cycle := rfl
@[simp] theorem State.mapSlot_time (s : State) (t : Slot) (f : Timeslot → Timeslot) : (s.mapSlot t f).time = s.time := rfl
@[simp] theorem State.mapSlot_clock (s : State) (t : Slot) (f : Timeslot → Timeslot) : (s.mapSlot t f).clock = s.clock := rfl
@[simp] theorem State.mapSlot_syncClock (s : State) (t : Slot) (f : Timeslot → Timeslot) : (s.mapSlot t f).syncClock = s.syncClock := rfl
@[simp] theorem State.mapSlot_channels (s : State) (t : Slot) (f : Timeslot → Timeslot) : (s.mapSlot t f).channels = s.channels := rfl
@[simp] theorem State.mapSlot_lineF (s : State) (t : Slot) (f : Timeslot → Timeslot) : (s.mapSlot t f).lineF = s.lineF := rfl
@[simp] theorem State.mapSlot_lineR (s : State) (t : Slot) (f : Timeslot → Timeslot) : (s.mapSlot t f).lineR = s.lineR := rfl
@[simp] theorem State.mapSlot_profiles (s : State) (t : Slot) (f : Timeslot → Timeslot) : (s.mapSlot t f).profiles = s.profiles := rfl
@[simp] theorem State.mapSlot_pattern (s : State) (t : Slot) (f : Timeslot → Timeslot) : (s.mapSlot t f).pattern = s.pattern := rfl
@[simp] theorem State.mapSlot_mask (s : State) (t : Slot) (f : Timeslot → Timeslot) : (s.mapSlot t f).mask = s.mask := rfl
@[simp] theorem State.mapSlot_engines (s : State) (t : Slot) (f : Timeslot → Timeslot) : (s.mapSlot t f).engines = s.engines := rfl
@[simp] theorem State.mapSlot_jobs (s : State) (t : Slot) (f : Timeslot → Timeslot) : (s.mapSlot t f).jobs = s.jobs := rfl
@[simp] theorem State.mapSlot_transmit (s : State) (t : Slot) (f : Timeslot → Timeslot) : (s.mapSlot t f).transmit = s.transmit := rfl
@[simp] theorem State.mapSlot_sending (s : State) (t : Slot) (f : Timeslot → Timeslot) : (s.mapSlot t f).sending = s.sending := rfl
@[simp] theorem State.mapSlot_unreadable (s : State) (t : Slot) (f : Timeslot → Timeslot) : (s.mapSlot t f).unreadable = s.unreadable := rfl
@[simp] theorem State.mapSlot_stray (s : State) (t : Slot) (f : Timeslot → Timeslot) : (s.mapSlot t f).stray = s.stray := rfl
@[simp] theorem State.mapSlot_begun (s : State) (t : Slot) (f : Timeslot → Timeslot) : (s.mapSlot t f).begun = s.begun := rfl
@[simp] theorem State.mapSlot_restartDue (s : State) (t : Slot) (f : Timeslot → Timeslot) : (s.mapSlot t f).restartDue = s.restartDue := rfl
@[simp] theorem State.mapSlot_pending (s : State) (t : Slot) (f : Timeslot → Timeslot) : (s.mapSlot t f).pending = s.pending := rfl

/-! ### setLine -/

@[simp] theorem State.setLine_run (s : State) (l : Line) (u : LineUnit) : (s.setLine l u).run = s.run := by cases l <;> rfl
@[simp] theorem State.setLine_startKind (s : State) (l : Line) (u : LineUnit) : (s.setLine l u).startKind = s.startKind := by cases l <;> rfl
@[simp] theorem State.setLine_cause (s : State) (l : Line) (u : LineUnit) : (s.setLine l u).cause = s.cause := by cases l <;> rfl
@[simp] theorem State.setLine_cycle (s : State) (l : Line) (u : LineUnit) : (s.setLine l u).cycle = s.cycle := by cases l <;> rfl
@[simp] theorem State.setLine_time (s : State) (l : Line) (u : LineUnit) : (s.setLine l u).time = s.time := by cases l <;> rfl
@[simp] theorem State.setLine_clock (s : State) (l : Line) (u : LineUnit) : (s.setLine l u).clock = s.clock := by cases l <;> rfl
@[simp] theorem State.setLine_syncClock (s : State) (l : Line) (u : LineUnit) : (s.setLine l u).syncClock = s.syncClock := by cases l <;> rfl
@[simp] theorem State.setLine_channels (s : State) (l : Line) (u : LineUnit) : (s.setLine l u).channels = s.channels := by cases l <;> rfl
@[simp] theorem State.setLine_timeslots (s : State) (l : Line) (u : LineUnit) : (s.setLine l u).timeslots = s.timeslots := by cases l <;> rfl
@[simp] theorem State.setLine_profiles (s : State) (l : Line) (u : LineUnit) : (s.setLine l u).profiles = s.profiles := by cases l <;> rfl
@[simp] theorem State.setLine_pattern (s : State) (l : Line) (u : LineUnit) : (s.setLine l u).pattern = s.pattern := by cases l <;> rfl
@[simp] theorem State.setLine_mask (s : State) (l : Line) (u : LineUnit) : (s.setLine l u).mask = s.mask := by cases l <;> rfl
@[simp] theorem State.setLine_engines (s : State) (l : Line) (u : LineUnit) : (s.setLine l u).engines = s.engines := by cases l <;> rfl
@[simp] theorem State.setLine_jobs (s : State) (l : Line) (u : LineUnit) : (s.setLine l u).jobs = s.jobs := by cases l <;> rfl
@[simp] theorem State.setLine_transmit (s : State) (l : Line) (u : LineUnit) : (s.setLine l u).transmit = s.transmit := by cases l <;> rfl
@[simp] theorem State.setLine_sending (s : State) (l : Line) (u : LineUnit) : (s.setLine l u).sending = s.sending := by cases l <;> rfl
@[simp] theorem State.setLine_unreadable (s : State) (l : Line) (u : LineUnit) : (s.setLine l u).unreadable = s.unreadable := by cases l <;> rfl
@[simp] theorem State.setLine_stray (s : State) (l : Line) (u : LineUnit) : (s.setLine l u).stray = s.stray := by cases l <;> rfl
@[simp] theorem State.setLine_begun (s : State) (l : Line) (u : LineUnit) : (s.setLine l u).begun = s.begun := by cases l <;> rfl
@[simp] theorem State.setLine_restartDue (s : State) (l : Line) (u : LineUnit) : (s.setLine l u).restartDue = s.restartDue := by cases l <;> rfl
@[simp] theorem State.setLine_pending (s : State) (l : Line) (u : LineUnit) : (s.setLine l u).pending = s.pending := by cases l <;> rfl

/-! ### mapLine -/

@[simp] theorem State.mapLine_run (s : State) (l : Line) (f : LineUnit → LineUnit) : (s.mapLine l f).run = s.run := by cases l <;> rfl
@[simp] theorem State.mapLine_startKind (s : State) (l : Line) (f : LineUnit → LineUnit) : (s.mapLine l f).startKind = s.startKind := by cases l <;> rfl
@[simp] theorem State.mapLine_cause (s : State) (l : Line) (f : LineUnit → LineUnit) : (s.mapLine l f).cause = s.cause := by cases l <;> rfl
@[simp] theorem State.mapLine_cycle (s : State) (l : Line) (f : LineUnit → LineUnit) : (s.mapLine l f).cycle = s.cycle := by cases l <;> rfl
@[simp] theorem State.mapLine_time (s : State) (l : Line) (f : LineUnit → LineUnit) : (s.mapLine l f).time = s.time := by cases l <;> rfl
@[simp] theorem State.mapLine_clock (s : State) (l : Line) (f : LineUnit → LineUnit) : (s.mapLine l f).clock = s.clock := by cases l <;> rfl
@[simp] theorem State.mapLine_syncClock (s : State) (l : Line) (f : LineUnit → LineUnit) : (s.mapLine l f).syncClock = s.syncClock := by cases l <;> rfl
@[simp] theorem State.mapLine_channels (s : State) (l : Line) (f : LineUnit → LineUnit) : (s.mapLine l f).channels = s.channels := by cases l <;> rfl
@[simp] theorem State.mapLine_timeslots (s : State) (l : Line) (f : LineUnit → LineUnit) : (s.mapLine l f).timeslots = s.timeslots := by cases l <;> rfl
@[simp] theorem State.mapLine_profiles (s : State) (l : Line) (f : LineUnit → LineUnit) : (s.mapLine l f).profiles = s.profiles := by cases l <;> rfl
@[simp] theorem State.mapLine_pattern (s : State) (l : Line) (f : LineUnit → LineUnit) : (s.mapLine l f).pattern = s.pattern := by cases l <;> rfl
@[simp] theorem State.mapLine_mask (s : State) (l : Line) (f : LineUnit → LineUnit) : (s.mapLine l f).mask = s.mask := by cases l <;> rfl
@[simp] theorem State.mapLine_engines (s : State) (l : Line) (f : LineUnit → LineUnit) : (s.mapLine l f).engines = s.engines := by cases l <;> rfl
@[simp] theorem State.mapLine_jobs (s : State) (l : Line) (f : LineUnit → LineUnit) : (s.mapLine l f).jobs = s.jobs := by cases l <;> rfl
@[simp] theorem State.mapLine_transmit (s : State) (l : Line) (f : LineUnit → LineUnit) : (s.mapLine l f).transmit = s.transmit := by cases l <;> rfl
@[simp] theorem State.mapLine_sending (s : State) (l : Line) (f : LineUnit → LineUnit) : (s.mapLine l f).sending = s.sending := by cases l <;> rfl
@[simp] theorem State.mapLine_unreadable (s : State) (l : Line) (f : LineUnit → LineUnit) : (s.mapLine l f).unreadable = s.unreadable := by cases l <;> rfl
@[simp] theorem State.mapLine_stray (s : State) (l : Line) (f : LineUnit → LineUnit) : (s.mapLine l f).stray = s.stray := by cases l <;> rfl
@[simp] theorem State.mapLine_begun (s : State) (l : Line) (f : LineUnit → LineUnit) : (s.mapLine l f).begun = s.begun := by cases l <;> rfl
@[simp] theorem State.mapLine_restartDue (s : State) (l : Line) (f : LineUnit → LineUnit) : (s.mapLine l f).restartDue = s.restartDue := by cases l <;> rfl
@[simp] theorem State.mapLine_pending (s : State) (l : Line) (f : LineUnit → LineUnit) : (s.mapLine l f).pending = s.pending := by cases l <;> rfl

end Sys2Proof.Machine
end

