-- ==== Sys2Proof/Laws/Access.lean ====
section
/-! SUPPORT. Reading a channel, a timeslot or a Line Unit after an update of one, and the device, pool and transmit parts
after the plain updates. -/

namespace Sys2Proof.Machine

/-! ### Channels -/

theorem State.chan_setChan (s : State) (c d : Chan) (ch : Channel) :
    (s.setChan c ch).chan d = if c = d then ch else s.chan d := by
  simp only [State.setChan, State.chan, Vector.getElem_set, Fin.ext_iff]

@[simp] theorem State.chan_setChan_self (s : State) (c : Chan) (ch : Channel) : (s.setChan c ch).chan c = ch := by
  simp [State.chan_setChan]

theorem State.chan_setChan_ne (s : State) {c d : Chan} (h : c ≠ d) (ch : Channel) :
    (s.setChan c ch).chan d = s.chan d := by
  simp [State.chan_setChan, h]

theorem State.chan_mapChan (s : State) (c d : Chan) (f : Channel → Channel) :
    (s.mapChan c f).chan d = if c = d then f (s.chan d) else s.chan d := by
  unfold State.mapChan; rw [State.chan_setChan]; split <;> simp_all

@[simp] theorem State.chan_mapChan_self (s : State) (c : Chan) (f : Channel → Channel) :
    (s.mapChan c f).chan c = f (s.chan c) := by
  simp [State.chan_mapChan]

theorem State.chan_mapChan_ne (s : State) {c d : Chan} (h : c ≠ d) (f : Channel → Channel) :
    (s.mapChan c f).chan d = s.chan d := by
  simp [State.chan_mapChan, h]

theorem State.chan_setLife (s : State) (c d : Chan) (l : Life) :
    (s.setLife c l).chan d = if c = d then { s.chan d with life := l } else s.chan d := by
  unfold State.setLife; rw [State.chan_mapChan]

@[simp] theorem State.chan_setLife_self (s : State) (c : Chan) (l : Life) :
    (s.setLife c l).chan c = { s.chan c with life := l } := by
  simp [State.chan_setLife]

/-- A change of an ACTIVE context, which leaves any other context alone. -/
def Channel.mapActive (ch : Channel) (f : Active → Active) : Channel :=
  match ch.life with
  | .active a => { ch with life := .active (f a) }
  | _ => ch

theorem State.chan_mapActive (s : State) (c d : Chan) (f : Active → Active) :
    (s.mapActive c f).chan d = if c = d then (s.chan d).mapActive f else s.chan d := by
  unfold State.mapActive Channel.mapActive State.life
  by_cases h : c = d
  · subst h; cases hl : (s.chan c).life <;> simp
  · cases hl : (s.chan c).life <;> simp [State.chan_setLife, h]

@[simp] theorem State.chan_mapActive_self (s : State) (c : Chan) (f : Active → Active) :
    (s.mapActive c f).chan c = (s.chan c).mapActive f := by
  simp [State.chan_mapActive]

theorem State.chan_mapActive_ne (s : State) {c d : Chan} (h : c ≠ d) (f : Active → Active) :
    (s.mapActive c f).chan d = s.chan d := by
  simp [State.chan_mapActive, h]

@[simp] theorem Channel.mapActive_continuity (ch : Channel) (f : Active → Active) :
    (ch.mapActive f).continuity = ch.continuity := by
  unfold Channel.mapActive; split <;> rfl

@[simp] theorem Channel.mapActive_counters (ch : Channel) (f : Active → Active) :
    (ch.mapActive f).counters = ch.counters := by
  unfold Channel.mapActive; split <;> rfl

@[simp] theorem Channel.mapActive_eventsF (ch : Channel) (f : Active → Active) :
    (ch.mapActive f).eventsF = ch.eventsF := by
  unfold Channel.mapActive; split <;> rfl

@[simp] theorem Channel.mapActive_eventsR (ch : Channel) (f : Active → Active) :
    (ch.mapActive f).eventsR = ch.eventsR := by
  unfold Channel.mapActive; split <;> rfl

theorem Channel.mapActive_of_active {ch : Channel} {a : Active} (h : ch.life = .active a) (f : Active → Active) :
    ch.mapActive f = { ch with life := .active (f a) } := by
  simp [Channel.mapActive, h]

/-! ### Lives -/

theorem State.life_def (s : State) (c : Chan) : s.life c = (s.chan c).life := rfl

theorem State.life_setLife (s : State) (c d : Chan) (l : Life) :
    (s.setLife c l).life d = if c = d then l else s.life d := by
  simp only [State.life_def, State.chan_setLife]; split <;> rfl

@[simp] theorem State.life_setLife_self (s : State) (c : Chan) (l : Life) : (s.setLife c l).life c = l := by
  simp [State.life_setLife]

/-! ### Timeslots -/

theorem State.slot_setSlot (s : State) (t u : Slot) (ts : Timeslot) :
    (s.setSlot t ts).slot u = if t = u then ts else s.slot u := by
  simp only [State.setSlot, State.slot, Vector.getElem_set, Fin.ext_iff]

theorem State.slot_mapSlot (s : State) (t u : Slot) (f : Timeslot → Timeslot) :
    (s.mapSlot t f).slot u = if t = u then f (s.slot u) else s.slot u := by
  unfold State.mapSlot; rw [State.slot_setSlot]; split <;> simp_all

@[simp] theorem State.slot_mapSlot_self (s : State) (t : Slot) (f : Timeslot → Timeslot) :
    (s.mapSlot t f).slot t = f (s.slot t) := by
  simp [State.slot_mapSlot]

/-! ### Line Units -/

theorem State.line_setLine (s : State) (l k : Line) (u : LineUnit) :
    (s.setLine l u).line k = if l = k then u else s.line k := by
  cases l <;> cases k <;> rfl

theorem State.line_mapLine (s : State) (l k : Line) (f : LineUnit → LineUnit) :
    (s.mapLine l f).line k = if l = k then f (s.line k) else s.line k := by
  cases l <;> cases k <;> rfl

@[simp] theorem State.line_mapLine_self (s : State) (l : Line) (f : LineUnit → LineUnit) :
    (s.mapLine l f).line l = f (s.line l) := by
  simp [State.line_mapLine]

@[simp] theorem State.line_setLine_self (s : State) (l : Line) (u : LineUnit) : (s.setLine l u).line l = u := by
  simp [State.line_setLine]

@[simp] theorem otherLine_ne (l : Line) : otherLine l ≠ l := by cases l <;> simp [otherLine]

@[simp] theorem ne_otherLine (l : Line) : l ≠ otherLine l := by cases l <;> simp [otherLine]

/-! ### What the other parts see -/

@[simp] theorem State.slot_setChan (s : State) (c : Chan) (ch : Channel) (x : Slot) : (s.setChan c ch).slot x = s.slot x := by
  simp [State.slot]
@[simp] theorem State.line_setChan (s : State) (c : Chan) (ch : Channel) (k : Line) : (s.setChan c ch).line k = s.line k := by
  cases k <;> simp [State.line]
@[simp] theorem State.device_setChan (s : State) (c : Chan) (ch : Channel) : (s.setChan c ch).device = s.device := by
  simp [State.device]
@[simp] theorem State.pool_setChan (s : State) (c : Chan) (ch : Channel) : (s.setChan c ch).pool = s.pool := by
  simp [State.pool]
@[simp] theorem State.link_setChan (s : State) (c : Chan) (ch : Channel) : (s.setChan c ch).link = s.link := by
  simp [State.link]

@[simp] theorem State.slot_mapChan (s : State) (c : Chan) (f : Channel → Channel) (x : Slot) : (s.mapChan c f).slot x = s.slot x := by
  simp [State.slot]
@[simp] theorem State.line_mapChan (s : State) (c : Chan) (f : Channel → Channel) (k : Line) : (s.mapChan c f).line k = s.line k := by
  cases k <;> simp [State.line]
@[simp] theorem State.device_mapChan (s : State) (c : Chan) (f : Channel → Channel) : (s.mapChan c f).device = s.device := by
  simp [State.device]
@[simp] theorem State.pool_mapChan (s : State) (c : Chan) (f : Channel → Channel) : (s.mapChan c f).pool = s.pool := by
  simp [State.pool]
@[simp] theorem State.link_mapChan (s : State) (c : Chan) (f : Channel → Channel) : (s.mapChan c f).link = s.link := by
  simp [State.link]

@[simp] theorem State.slot_setLife (s : State) (c : Chan) (l : Life) (x : Slot) : (s.setLife c l).slot x = s.slot x := by
  simp [State.slot]
@[simp] theorem State.line_setLife (s : State) (c : Chan) (l : Life) (k : Line) : (s.setLife c l).line k = s.line k := by
  cases k <;> simp [State.line]
@[simp] theorem State.device_setLife (s : State) (c : Chan) (l : Life) : (s.setLife c l).device = s.device := by
  simp [State.device]
@[simp] theorem State.pool_setLife (s : State) (c : Chan) (l : Life) : (s.setLife c l).pool = s.pool := by
  simp [State.pool]
@[simp] theorem State.link_setLife (s : State) (c : Chan) (l : Life) : (s.setLife c l).link = s.link := by
  simp [State.link]

@[simp] theorem State.slot_mapActive (s : State) (c : Chan) (f : Active → Active) (x : Slot) : (s.mapActive c f).slot x = s.slot x := by
  simp [State.slot]
@[simp] theorem State.line_mapActive (s : State) (c : Chan) (f : Active → Active) (k : Line) : (s.mapActive c f).line k = s.line k := by
  cases k <;> simp [State.line]
@[simp] theorem State.device_mapActive (s : State) (c : Chan) (f : Active → Active) : (s.mapActive c f).device = s.device := by
  simp [State.device]
@[simp] theorem State.pool_mapActive (s : State) (c : Chan) (f : Active → Active) : (s.mapActive c f).pool = s.pool := by
  simp [State.pool]
@[simp] theorem State.link_mapActive (s : State) (c : Chan) (f : Active → Active) : (s.mapActive c f).link = s.link := by
  simp [State.link]

@[simp] theorem State.chan_setSlot (s : State) (t : Slot) (ts : Timeslot) (d : Chan) : (s.setSlot t ts).chan d = s.chan d := by
  simp [State.chan]
@[simp] theorem State.life_setSlot (s : State) (t : Slot) (ts : Timeslot) (d : Chan) : (s.setSlot t ts).life d = s.life d := by
  simp [State.life]
@[simp] theorem State.line_setSlot (s : State) (t : Slot) (ts : Timeslot) (k : Line) : (s.setSlot t ts).line k = s.line k := by
  cases k <;> simp [State.line]
@[simp] theorem State.device_setSlot (s : State) (t : Slot) (ts : Timeslot) : (s.setSlot t ts).device = s.device := by
  simp [State.device]
@[simp] theorem State.pool_setSlot (s : State) (t : Slot) (ts : Timeslot) : (s.setSlot t ts).pool = s.pool := by
  simp [State.pool]
@[simp] theorem State.link_setSlot (s : State) (t : Slot) (ts : Timeslot) : (s.setSlot t ts).link = s.link := by
  simp [State.link]

@[simp] theorem State.chan_mapSlot (s : State) (t : Slot) (f : Timeslot → Timeslot) (d : Chan) : (s.mapSlot t f).chan d = s.chan d := by
  simp [State.chan]
@[simp] theorem State.life_mapSlot (s : State) (t : Slot) (f : Timeslot → Timeslot) (d : Chan) : (s.mapSlot t f).life d = s.life d := by
  simp [State.life]
@[simp] theorem State.line_mapSlot (s : State) (t : Slot) (f : Timeslot → Timeslot) (k : Line) : (s.mapSlot t f).line k = s.line k := by
  cases k <;> simp [State.line]
@[simp] theorem State.device_mapSlot (s : State) (t : Slot) (f : Timeslot → Timeslot) : (s.mapSlot t f).device = s.device := by
  simp [State.device]
@[simp] theorem State.pool_mapSlot (s : State) (t : Slot) (f : Timeslot → Timeslot) : (s.mapSlot t f).pool = s.pool := by
  simp [State.pool]
@[simp] theorem State.link_mapSlot (s : State) (t : Slot) (f : Timeslot → Timeslot) : (s.mapSlot t f).link = s.link := by
  simp [State.link]

@[simp] theorem State.chan_setLine (s : State) (l : Line) (u : LineUnit) (d : Chan) : (s.setLine l u).chan d = s.chan d := by
  simp [State.chan]
@[simp] theorem State.life_setLine (s : State) (l : Line) (u : LineUnit) (d : Chan) : (s.setLine l u).life d = s.life d := by
  simp [State.life]
@[simp] theorem State.slot_setLine (s : State) (l : Line) (u : LineUnit) (x : Slot) : (s.setLine l u).slot x = s.slot x := by
  simp [State.slot]
@[simp] theorem State.device_setLine (s : State) (l : Line) (u : LineUnit) : (s.setLine l u).device = s.device := by
  simp [State.device]
@[simp] theorem State.pool_setLine (s : State) (l : Line) (u : LineUnit) : (s.setLine l u).pool = s.pool := by
  simp [State.pool]
@[simp] theorem State.link_setLine (s : State) (l : Line) (u : LineUnit) : (s.setLine l u).link = s.link := by
  simp [State.link]

@[simp] theorem State.chan_mapLine (s : State) (l : Line) (f : LineUnit → LineUnit) (d : Chan) : (s.mapLine l f).chan d = s.chan d := by
  simp [State.chan]
@[simp] theorem State.life_mapLine (s : State) (l : Line) (f : LineUnit → LineUnit) (d : Chan) : (s.mapLine l f).life d = s.life d := by
  simp [State.life]
@[simp] theorem State.slot_mapLine (s : State) (l : Line) (f : LineUnit → LineUnit) (x : Slot) : (s.mapLine l f).slot x = s.slot x := by
  simp [State.slot]
@[simp] theorem State.device_mapLine (s : State) (l : Line) (f : LineUnit → LineUnit) : (s.mapLine l f).device = s.device := by
  simp [State.device]
@[simp] theorem State.pool_mapLine (s : State) (l : Line) (f : LineUnit → LineUnit) : (s.mapLine l f).pool = s.pool := by
  simp [State.pool]
@[simp] theorem State.link_mapLine (s : State) (l : Line) (f : LineUnit → LineUnit) : (s.mapLine l f).link = s.link := by
  simp [State.link]

end Sys2Proof.Machine
end

