-- ==== Sys2Proof/Laws/Frames.lean ====
section
/-! SUPPORT. What each named operation leaves alone: the device part, the pool, the transmit path, the channels, the
timeslots, the Line Units. -/

namespace Sys2Proof.Machine

/-- A view of the state that one pass leaves alone is left alone by the whole fold. -/
theorem foldl_keeps {β γ : Type} (v : State → γ) (f : State → β → State) (h : ∀ s b, v (f s b) = v s) (l : List β)
    (s : State) : v (l.foldl f s) = v s := by
  induction l generalizing s with
  | nil => rfl
  | cons b l ih => simp [ih, h]

@[simp] theorem device_with_pool (s : State) (js : List Job) (es : Vector Engine 4) :
    ({ s with jobs := js, engines := es } : State).device = s.device := rfl
/-! ### count -/

@[simp] theorem State.device_count (s : State) (c : Chan) (k0 : Counter) : (s.count c k0).device = s.device := by
  simp [State.count]
@[simp] theorem State.pool_count (s : State) (c : Chan) (k0 : Counter) : (s.count c k0).pool = s.pool := by
  simp [State.count]
@[simp] theorem State.link_count (s : State) (c : Chan) (k0 : Counter) : (s.count c k0).link = s.link := by
  simp [State.count]
@[simp] theorem State.slot_count (s : State) (c : Chan) (k0 : Counter) (x : Slot) : (s.count c k0).slot x = s.slot x := by
  simp [State.count]
@[simp] theorem State.line_count (s : State) (c : Chan) (k0 : Counter) (k : Line) : (s.count c k0).line k = s.line k := by
  simp [State.count]

/-! ### record -/

@[simp] theorem State.device_record (s : State) (c : Chan) (l : Line) (k0 : Kind) : (s.record c l k0).device = s.device := by
  simp [State.record]
@[simp] theorem State.pool_record (s : State) (c : Chan) (l : Line) (k0 : Kind) : (s.record c l k0).pool = s.pool := by
  simp [State.record]
@[simp] theorem State.link_record (s : State) (c : Chan) (l : Line) (k0 : Kind) : (s.record c l k0).link = s.link := by
  simp [State.record]
@[simp] theorem State.slot_record (s : State) (c : Chan) (l : Line) (k0 : Kind) (x : Slot) : (s.record c l k0).slot x = s.slot x := by
  simp [State.record]
@[simp] theorem State.line_record (s : State) (c : Chan) (l : Line) (k0 : Kind) (k : Line) : (s.record c l k0).line k = s.line k := by
  simp [State.record]

/-! ### warn -/

@[simp] theorem State.device_warn (s : State) (c : Chan) (k0 : Cause) : (s.warn c k0).device = s.device := by
  simp [State.warn]
@[simp] theorem State.pool_warn (s : State) (c : Chan) (k0 : Cause) : (s.warn c k0).pool = s.pool := by
  simp [State.warn]
@[simp] theorem State.link_warn (s : State) (c : Chan) (k0 : Cause) : (s.warn c k0).link = s.link := by
  simp [State.warn]
@[simp] theorem State.slot_warn (s : State) (c : Chan) (k0 : Cause) (x : Slot) : (s.warn c k0).slot x = s.slot x := by
  simp [State.warn]
@[simp] theorem State.line_warn (s : State) (c : Chan) (k0 : Cause) (k : Line) : (s.warn c k0).line k = s.line k := by
  simp [State.warn]

/-! ### recordLine -/

@[simp] theorem State.device_recordLine (s : State) (l : Line) (k0 : LineKind) : (s.recordLine l k0).device = s.device := by
  unfold State.recordLine; simp
@[simp] theorem State.pool_recordLine (s : State) (l : Line) (k0 : LineKind) : (s.recordLine l k0).pool = s.pool := by
  unfold State.recordLine; simp
@[simp] theorem State.link_recordLine (s : State) (l : Line) (k0 : LineKind) : (s.recordLine l k0).link = s.link := by
  unfold State.recordLine; simp
@[simp] theorem State.chan_recordLine (s : State) (l : Line) (k0 : LineKind) (d : Chan) : (s.recordLine l k0).chan d = s.chan d := by
  unfold State.recordLine; simp
@[simp] theorem State.life_recordLine (s : State) (l : Line) (k0 : LineKind) (d : Chan) : (s.recordLine l k0).life d = s.life d := by
  unfold State.recordLine; simp
@[simp] theorem State.slot_recordLine (s : State) (l : Line) (k0 : LineKind) (x : Slot) : (s.recordLine l k0).slot x = s.slot x := by
  unfold State.recordLine; simp

/-! ### settle -/

@[simp] theorem State.device_settle (s : State)  : s.settle.device = s.device := rfl
@[simp] theorem State.pool_settle (s : State)  : s.settle.pool = s.pool := rfl
@[simp] theorem State.link_settle (s : State)  : s.settle.link = s.link := rfl
@[simp] theorem State.chan_settle (s : State)  (d : Chan) : s.settle.chan d = s.chan d := rfl
@[simp] theorem State.life_settle (s : State)  (d : Chan) : s.settle.life d = s.life d := rfl
@[simp] theorem State.slot_settle (s : State)  (x : Slot) : s.settle.slot x = s.slot x := rfl

/-! ### startTransmit -/

@[simp] theorem State.device_startTransmit (s : State)  : s.startTransmit.device = s.device := by
  unfold State.startTransmit; split <;> rfl
@[simp] theorem State.pool_startTransmit (s : State)  : s.startTransmit.pool = s.pool := by
  unfold State.startTransmit; split <;> rfl
@[simp] theorem State.chan_startTransmit (s : State)  (d : Chan) : s.startTransmit.chan d = s.chan d := by
  unfold State.startTransmit; split <;> rfl
@[simp] theorem State.life_startTransmit (s : State)  (d : Chan) : s.startTransmit.life d = s.life d := by
  unfold State.startTransmit; split <;> rfl
@[simp] theorem State.slot_startTransmit (s : State)  (x : Slot) : s.startTransmit.slot x = s.slot x := by
  unfold State.startTransmit; split <;> rfl
@[simp] theorem State.line_startTransmit (s : State)  (k : Line) : s.startTransmit.line k = s.line k := by
  unfold State.startTransmit; split <;> rfl

/-! ### offerRecord -/

@[simp] theorem State.device_offerRecord (s : State) (r : Record) : (s.offerRecord r).device = s.device := by
  unfold State.offerRecord; split
  · simp; rfl
  · simp
@[simp] theorem State.pool_offerRecord (s : State) (r : Record) : (s.offerRecord r).pool = s.pool := by
  unfold State.offerRecord; split
  · simp; rfl
  · simp
@[simp] theorem State.slot_offerRecord (s : State) (r : Record) (x : Slot) : (s.offerRecord r).slot x = s.slot x := by
  unfold State.offerRecord; split
  · simp; rfl
  · simp

/-! ### startHead -/

@[simp] theorem State.device_startHead (s : State)  : s.startHead.device = s.device := by
  unfold State.startHead; split <;> rfl
@[simp] theorem State.link_startHead (s : State)  : s.startHead.link = s.link := by
  unfold State.startHead; split <;> rfl
@[simp] theorem State.chan_startHead (s : State)  (d : Chan) : s.startHead.chan d = s.chan d := by
  unfold State.startHead; split <;> rfl
@[simp] theorem State.life_startHead (s : State)  (d : Chan) : s.startHead.life d = s.life d := by
  unfold State.startHead; split <;> rfl
@[simp] theorem State.slot_startHead (s : State)  (x : Slot) : s.startHead.slot x = s.slot x := by
  unfold State.startHead; split <;> rfl
@[simp] theorem State.line_startHead (s : State)  (k : Line) : s.startHead.line k = s.line k := by
  unfold State.startHead; split <;> rfl

/-! ### arbitrate -/

@[simp] theorem State.device_arbitrate (s : State)  : s.arbitrate.device = s.device := by
  simp [State.arbitrate]
@[simp] theorem State.link_arbitrate (s : State)  : s.arbitrate.link = s.link := by
  simp [State.arbitrate]
@[simp] theorem State.chan_arbitrate (s : State)  (d : Chan) : s.arbitrate.chan d = s.chan d := by
  simp [State.arbitrate]
@[simp] theorem State.life_arbitrate (s : State)  (d : Chan) : s.arbitrate.life d = s.life d := by
  simp [State.arbitrate]
@[simp] theorem State.slot_arbitrate (s : State)  (x : Slot) : s.arbitrate.slot x = s.slot x := by
  simp [State.arbitrate]
@[simp] theorem State.line_arbitrate (s : State)  (k : Line) : s.arbitrate.line k = s.line k := by
  simp [State.arbitrate]

/-! ### unqueue -/

@[simp] theorem State.device_unqueue (s : State) (c : Chan) (k0 : JobKind) : (s.unqueue c k0).device = s.device := rfl
@[simp] theorem State.link_unqueue (s : State) (c : Chan) (k0 : JobKind) : (s.unqueue c k0).link = s.link := rfl
@[simp] theorem State.chan_unqueue (s : State) (c : Chan) (k0 : JobKind) (d : Chan) : (s.unqueue c k0).chan d = s.chan d := rfl
@[simp] theorem State.life_unqueue (s : State) (c : Chan) (k0 : JobKind) (d : Chan) : (s.unqueue c k0).life d = s.life d := rfl
@[simp] theorem State.slot_unqueue (s : State) (c : Chan) (k0 : JobKind) (x : Slot) : (s.unqueue c k0).slot x = s.slot x := rfl
@[simp] theorem State.line_unqueue (s : State) (c : Chan) (k0 : JobKind) (k : Line) : (s.unqueue c k0).line k = s.line k := rfl

/-! ### abandonJob -/

@[simp] theorem State.device_abandonJob (s : State) (c : Chan) (k0 : JobKind) : (s.abandonJob c k0).device = s.device := rfl
@[simp] theorem State.link_abandonJob (s : State) (c : Chan) (k0 : JobKind) : (s.abandonJob c k0).link = s.link := rfl
@[simp] theorem State.chan_abandonJob (s : State) (c : Chan) (k0 : JobKind) (d : Chan) : (s.abandonJob c k0).chan d = s.chan d := rfl
@[simp] theorem State.life_abandonJob (s : State) (c : Chan) (k0 : JobKind) (d : Chan) : (s.abandonJob c k0).life d = s.life d := rfl
@[simp] theorem State.slot_abandonJob (s : State) (c : Chan) (k0 : JobKind) (x : Slot) : (s.abandonJob c k0).slot x = s.slot x := rfl
@[simp] theorem State.line_abandonJob (s : State) (c : Chan) (k0 : JobKind) (k : Line) : (s.abandonJob c k0).line k = s.line k := rfl

/-! ### offerJob -/

@[simp] theorem State.device_offerJob (s : State) (j : Job) : (s.offerJob j).1.device = s.device := by
  unfold State.offerJob; split
  · rfl
  · dsimp only; split <;> simp
@[simp] theorem State.link_offerJob (s : State) (j : Job) : (s.offerJob j).1.link = s.link := by
  unfold State.offerJob; split
  · rfl
  · dsimp only; split <;> simp <;> rfl
@[simp] theorem State.chan_offerJob (s : State) (j : Job) (d : Chan) : (s.offerJob j).1.chan d = s.chan d := by
  unfold State.offerJob; split
  · rfl
  · dsimp only; split <;> simp <;> rfl
@[simp] theorem State.life_offerJob (s : State) (j : Job) (d : Chan) : (s.offerJob j).1.life d = s.life d := by
  unfold State.offerJob; split
  · rfl
  · dsimp only; split <;> simp <;> rfl
@[simp] theorem State.slot_offerJob (s : State) (j : Job) (x : Slot) : (s.offerJob j).1.slot x = s.slot x := by
  unfold State.offerJob; split
  · rfl
  · dsimp only; split <;> simp <;> rfl
@[simp] theorem State.line_offerJob (s : State) (j : Job) (k : Line) : (s.offerJob j).1.line k = s.line k := by
  unfold State.offerJob; split
  · rfl
  · dsimp only; split <;> simp <;> rfl

/-! ### setWindow -/

@[simp] theorem State.device_setWindow (s : State) (c : Chan) (w : WindowState) : (s.setWindow c w).device = s.device := by
  simp [State.setWindow]
@[simp] theorem State.pool_setWindow (s : State) (c : Chan) (w : WindowState) : (s.setWindow c w).pool = s.pool := by
  simp [State.setWindow]
@[simp] theorem State.link_setWindow (s : State) (c : Chan) (w : WindowState) : (s.setWindow c w).link = s.link := by
  simp [State.setWindow]
@[simp] theorem State.slot_setWindow (s : State) (c : Chan) (w : WindowState) (x : Slot) : (s.setWindow c w).slot x = s.slot x := by
  simp [State.setWindow]
@[simp] theorem State.line_setWindow (s : State) (c : Chan) (w : WindowState) (k : Line) : (s.setWindow c w).line k = s.line k := by
  simp [State.setWindow]

/-! ### decodeMiss -/

@[simp] theorem State.device_decodeMiss (s : State) (c : Chan) : (s.decodeMiss c).device = s.device := by
  simp [State.decodeMiss]
@[simp] theorem State.pool_decodeMiss (s : State) (c : Chan) : (s.decodeMiss c).pool = s.pool := by
  simp [State.decodeMiss]
@[simp] theorem State.link_decodeMiss (s : State) (c : Chan) : (s.decodeMiss c).link = s.link := by
  simp [State.decodeMiss]
@[simp] theorem State.slot_decodeMiss (s : State) (c : Chan) (x : Slot) : (s.decodeMiss c).slot x = s.slot x := by
  simp [State.decodeMiss]
@[simp] theorem State.line_decodeMiss (s : State) (c : Chan) (k : Line) : (s.decodeMiss c).line k = s.line k := by
  simp [State.decodeMiss]

/-! ### encodeMiss -/

@[simp] theorem State.device_encodeMiss (s : State) (c : Chan) : (s.encodeMiss c).device = s.device := by
  simp [State.encodeMiss]
@[simp] theorem State.pool_encodeMiss (s : State) (c : Chan) : (s.encodeMiss c).pool = s.pool := by
  simp [State.encodeMiss]
@[simp] theorem State.link_encodeMiss (s : State) (c : Chan) : (s.encodeMiss c).link = s.link := by
  simp [State.encodeMiss]
@[simp] theorem State.slot_encodeMiss (s : State) (c : Chan) (x : Slot) : (s.encodeMiss c).slot x = s.slot x := by
  simp [State.encodeMiss]
@[simp] theorem State.line_encodeMiss (s : State) (c : Chan) (k : Line) : (s.encodeMiss c).line k = s.line k := by
  simp [State.encodeMiss]

/-! ### setHeld -/

@[simp] theorem State.device_setHeld (s : State) (c : Chan) (items : List Held) : (s.setHeld c items).device = s.device := by
  simp [State.setHeld]
@[simp] theorem State.pool_setHeld (s : State) (c : Chan) (items : List Held) : (s.setHeld c items).pool = s.pool := by
  simp [State.setHeld]
@[simp] theorem State.link_setHeld (s : State) (c : Chan) (items : List Held) : (s.setHeld c items).link = s.link := by
  simp [State.setHeld]
@[simp] theorem State.slot_setHeld (s : State) (c : Chan) (items : List Held) (x : Slot) : (s.setHeld c items).slot x = s.slot x := by
  simp [State.setHeld]
@[simp] theorem State.line_setHeld (s : State) (c : Chan) (items : List Held) (k : Line) : (s.setHeld c items).line k = s.line k := by
  simp [State.setHeld]

/-! ### offerEncode -/

@[simp] theorem State.device_offerEncode (s : State) (c : Chan) (e : EncodeWork) (n : Nat) : (s.offerEncode c e n).1.device = s.device := by
  unfold State.offerEncode; split <;> simp
@[simp] theorem State.link_offerEncode (s : State) (c : Chan) (e : EncodeWork) (n : Nat) : (s.offerEncode c e n).1.link = s.link := by
  unfold State.offerEncode; split <;> simp
@[simp] theorem State.chan_offerEncode (s : State) (c : Chan) (e : EncodeWork) (n : Nat) (d : Chan) : (s.offerEncode c e n).1.chan d = s.chan d := by
  unfold State.offerEncode; split <;> simp
@[simp] theorem State.life_offerEncode (s : State) (c : Chan) (e : EncodeWork) (n : Nat) (d : Chan) : (s.offerEncode c e n).1.life d = s.life d := by
  unfold State.offerEncode; split <;> simp
@[simp] theorem State.slot_offerEncode (s : State) (c : Chan) (e : EncodeWork) (n : Nat) (x : Slot) : (s.offerEncode c e n).1.slot x = s.slot x := by
  unfold State.offerEncode; split <;> simp
@[simp] theorem State.line_offerEncode (s : State) (c : Chan) (e : EncodeWork) (n : Nat) (k : Line) : (s.offerEncode c e n).1.line k = s.line k := by
  unfold State.offerEncode; split <;> simp

@[simp] theorem State.device_releaseItems (s : State) (c : Chan) (items : List Held)  :
    (State.releaseItems c items s).device = s.device := by
  induction items generalizing s with
  | nil => simp [State.releaseItems]
  | cons i rest ih =>
    cases i with
    | record r => simp [State.releaseItems, ih]
    | job e n =>
      have h := State.device_offerEncode s c e n 
      simp only [State.releaseItems]
      split <;> rename_i q <;> rw [q] at h <;> simp_all
@[simp] theorem State.slot_releaseItems (s : State) (c : Chan) (items : List Held) (x : Slot) :
    (State.releaseItems c items s).slot x = s.slot x := by
  induction items generalizing s with
  | nil => simp [State.releaseItems]
  | cons i rest ih =>
    cases i with
    | record r => simp [State.releaseItems, ih]
    | job e n =>
      have h := State.slot_offerEncode s c e n  x
      simp only [State.releaseItems]
      split <;> rename_i q <;> rw [q] at h <;> simp_all

/-! ### releaseHeld -/

@[simp] theorem State.device_releaseHeld (s : State) (c : Chan) : (s.releaseHeld c).device = s.device := by
  simp [State.releaseHeld]
@[simp] theorem State.slot_releaseHeld (s : State) (c : Chan) (x : Slot) : (s.releaseHeld c).slot x = s.slot x := by
  simp [State.releaseHeld]

/-! ### handOn -/

@[simp] theorem State.device_handOn (s : State) (c : Chan) (i : Held) : (s.handOn c i).device = s.device := by
  unfold State.handOn; split <;> simp
@[simp] theorem State.slot_handOn (s : State) (c : Chan) (i : Held) (x : Slot) : (s.handOn c i).slot x = s.slot x := by
  unfold State.handOn; split <;> simp

/-! ### offerDecode -/

@[simp] theorem State.device_offerDecode (s : State) (c : Chan) (f : SpeechFrame) (n : Nat) : (s.offerDecode c f n).device = s.device := by
  unfold State.offerDecode
  split
  · simp
  · have h := State.device_offerJob (s.setWindow c (.decoding f false))
      { channel := c, deadline := n, work := .decode f, discard := false }
    split <;> rename_i q <;> rw [q] at h <;> simp_all
@[simp] theorem State.link_offerDecode (s : State) (c : Chan) (f : SpeechFrame) (n : Nat) : (s.offerDecode c f n).link = s.link := by
  unfold State.offerDecode
  split
  · simp
  · have h := State.link_offerJob (s.setWindow c (.decoding f false))
      { channel := c, deadline := n, work := .decode f, discard := false }
    split <;> rename_i q <;> rw [q] at h <;> simp_all
@[simp] theorem State.slot_offerDecode (s : State) (c : Chan) (f : SpeechFrame) (n : Nat) (x : Slot) : (s.offerDecode c f n).slot x = s.slot x := by
  unfold State.offerDecode
  split
  · simp
  · have h := State.slot_offerJob (s.setWindow c (.decoding f false))
      { channel := c, deadline := n, work := .decode f, discard := false } x
    split <;> rename_i q <;> rw [q] at h <;> simp_all
@[simp] theorem State.line_offerDecode (s : State) (c : Chan) (f : SpeechFrame) (n : Nat) (k : Line) : (s.offerDecode c f n).line k = s.line k := by
  unfold State.offerDecode
  split
  · simp
  · have h := State.line_offerJob (s.setWindow c (.decoding f false))
      { channel := c, deadline := n, work := .decode f, discard := false } k
    split <;> rename_i q <;> rw [q] at h <;> simp_all

/-! ### takeFrame -/

@[simp] theorem State.device_takeFrame (s : State) (c : Chan) (f : Frame) (n : Nat) : (s.takeFrame c f n).device = s.device := by
  unfold State.takeFrame
  repeat' (first | split | dsimp only)
  all_goals simp
@[simp] theorem State.link_takeFrame (s : State) (c : Chan) (f : Frame) (n : Nat) : (s.takeFrame c f n).link = s.link := by
  unfold State.takeFrame
  repeat' (first | split | dsimp only)
  all_goals simp
@[simp] theorem State.slot_takeFrame (s : State) (c : Chan) (f : Frame) (n : Nat) (x : Slot) : (s.takeFrame c f n).slot x = s.slot x := by
  unfold State.takeFrame
  repeat' (first | split | dsimp only)
  all_goals simp
@[simp] theorem State.line_takeFrame (s : State) (c : Chan) (f : Frame) (n : Nat) (k : Line) : (s.takeFrame c f n).line k = s.line k := by
  unfold State.takeFrame
  repeat' (first | split | dsimp only)
  all_goals simp

/-! ### setUp -/

@[simp] theorem State.device_setUp (s : State) (c : Chan) (u : UplinkFields) : (s.setUp c u).device = s.device := by
  simp [State.setUp]
@[simp] theorem State.pool_setUp (s : State) (c : Chan) (u : UplinkFields) : (s.setUp c u).pool = s.pool := by
  simp [State.setUp]
@[simp] theorem State.link_setUp (s : State) (c : Chan) (u : UplinkFields) : (s.setUp c u).link = s.link := by
  simp [State.setUp]
@[simp] theorem State.slot_setUp (s : State) (c : Chan) (u : UplinkFields) (x : Slot) : (s.setUp c u).slot x = s.slot x := by
  simp [State.setUp]
@[simp] theorem State.line_setUp (s : State) (c : Chan) (u : UplinkFields) (k : Line) : (s.setUp c u).line k = s.line k := by
  simp [State.setUp]

/-! ### insertArrival -/

@[simp] theorem State.device_insertArrival (s : State) (c : Chan) (u : UplinkFields) (n : BitVec 8) (f : Frame) : (s.insertArrival c u n f).device = s.device := by
  unfold State.insertArrival; split <;> (try split) <;> simp
@[simp] theorem State.pool_insertArrival (s : State) (c : Chan) (u : UplinkFields) (n : BitVec 8) (f : Frame) : (s.insertArrival c u n f).pool = s.pool := by
  unfold State.insertArrival; split <;> (try split) <;> simp
@[simp] theorem State.link_insertArrival (s : State) (c : Chan) (u : UplinkFields) (n : BitVec 8) (f : Frame) : (s.insertArrival c u n f).link = s.link := by
  unfold State.insertArrival; split <;> (try split) <;> simp
@[simp] theorem State.slot_insertArrival (s : State) (c : Chan) (u : UplinkFields) (n : BitVec 8) (f : Frame) (x : Slot) : (s.insertArrival c u n f).slot x = s.slot x := by
  unfold State.insertArrival; split <;> (try split) <;> simp
@[simp] theorem State.line_insertArrival (s : State) (c : Chan) (u : UplinkFields) (n : BitVec 8) (f : Frame) (k : Line) : (s.insertArrival c u n f).line k = s.line k := by
  unfold State.insertArrival; split <;> (try split) <;> simp

/-! ### resync -/

@[simp] theorem State.device_resync (s : State) (c : Chan) (u : UplinkFields) (f : Frame) : (s.resync c u f).device = s.device := by
  simp [State.resync]
@[simp] theorem State.link_resync (s : State) (c : Chan) (u : UplinkFields) (f : Frame) : (s.resync c u f).link = s.link := by
  simp [State.resync]
@[simp] theorem State.slot_resync (s : State) (c : Chan) (u : UplinkFields) (f : Frame) (x : Slot) : (s.resync c u f).slot x = s.slot x := by
  simp [State.resync]
@[simp] theorem State.line_resync (s : State) (c : Chan) (u : UplinkFields) (f : Frame) (k : Line) : (s.resync c u f).line k = s.line k := by
  simp [State.resync]

/-! ### windowArrival -/

@[simp] theorem State.device_windowArrival (s : State) (c : Chan) (w : Window) (f : Frame) : (s.windowArrival c w f).device = s.device := by
  unfold State.windowArrival; split <;> simp
@[simp] theorem State.link_windowArrival (s : State) (c : Chan) (w : Window) (f : Frame) : (s.windowArrival c w f).link = s.link := by
  unfold State.windowArrival; split <;> simp
@[simp] theorem State.slot_windowArrival (s : State) (c : Chan) (w : Window) (f : Frame) (x : Slot) : (s.windowArrival c w f).slot x = s.slot x := by
  unfold State.windowArrival; split <;> simp
@[simp] theorem State.line_windowArrival (s : State) (c : Chan) (w : Window) (f : Frame) (k : Line) : (s.windowArrival c w f).line k = s.line k := by
  unfold State.windowArrival; split <;> simp

/-! ### classify -/

@[simp] theorem State.device_classify (s : State) (c : Chan) (a : Active) (f : Frame) : (s.classify c a f).device = s.device := by
  unfold State.classify
  repeat' (first | split | dsimp only)
  all_goals simp
@[simp] theorem State.link_classify (s : State) (c : Chan) (a : Active) (f : Frame) : (s.classify c a f).link = s.link := by
  unfold State.classify
  repeat' (first | split | dsimp only)
  all_goals simp
@[simp] theorem State.slot_classify (s : State) (c : Chan) (a : Active) (f : Frame) (x : Slot) : (s.classify c a f).slot x = s.slot x := by
  unfold State.classify
  repeat' (first | split | dsimp only)
  all_goals simp
@[simp] theorem State.line_classify (s : State) (c : Chan) (a : Active) (f : Frame) (k : Line) : (s.classify c a f).line k = s.line k := by
  unfold State.classify
  repeat' (first | split | dsimp only)
  all_goals simp

/-! ### openWindow -/

@[simp] theorem State.device_openWindow (s : State) (c : Chan) (u : UplinkFields) (b : Bool) (n : BitVec 8) : (s.openWindow c u b n).device = s.device := by
  unfold State.openWindow; split <;> simp
@[simp] theorem State.link_openWindow (s : State) (c : Chan) (u : UplinkFields) (b : Bool) (n : BitVec 8) : (s.openWindow c u b n).link = s.link := by
  unfold State.openWindow; split <;> simp
@[simp] theorem State.slot_openWindow (s : State) (c : Chan) (u : UplinkFields) (b : Bool) (n : BitVec 8) (x : Slot) : (s.openWindow c u b n).slot x = s.slot x := by
  unfold State.openWindow; split <;> simp
@[simp] theorem State.line_openWindow (s : State) (c : Chan) (u : UplinkFields) (b : Bool) (n : BitVec 8) (k : Line) : (s.openWindow c u b n).line k = s.line k := by
  unfold State.openWindow; split <;> simp

/-! ### primingInstant -/

@[simp] theorem State.device_primingInstant (s : State) (c : Chan) (a : Active) (r : Option (BitVec 8)) (n : Nat) : (s.primingInstant c a r n).device = s.device := by
  unfold State.primingInstant
  repeat' (first | split | dsimp only)
  all_goals simp
@[simp] theorem State.link_primingInstant (s : State) (c : Chan) (a : Active) (r : Option (BitVec 8)) (n : Nat) : (s.primingInstant c a r n).link = s.link := by
  unfold State.primingInstant
  repeat' (first | split | dsimp only)
  all_goals simp
@[simp] theorem State.slot_primingInstant (s : State) (c : Chan) (a : Active) (r : Option (BitVec 8)) (n : Nat) (x : Slot) : (s.primingInstant c a r n).slot x = s.slot x := by
  unfold State.primingInstant
  repeat' (first | split | dsimp only)
  all_goals simp
@[simp] theorem State.line_primingInstant (s : State) (c : Chan) (a : Active) (r : Option (BitVec 8)) (n : Nat) (k : Line) : (s.primingInstant c a r n).line k = s.line k := by
  unfold State.primingInstant
  repeat' (first | split | dsimp only)
  all_goals simp

/-! ### concealed -/

@[simp] theorem State.device_concealed (s : State) (c : Chan) (a : Active) (n : Nat) : (s.concealed c a n).device = s.device := by
  unfold State.concealed; split <;> simp
@[simp] theorem State.pool_concealed (s : State) (c : Chan) (a : Active) (n : Nat) : (s.concealed c a n).pool = s.pool := by
  unfold State.concealed; split <;> simp
@[simp] theorem State.link_concealed (s : State) (c : Chan) (a : Active) (n : Nat) : (s.concealed c a n).link = s.link := by
  unfold State.concealed; split <;> simp
@[simp] theorem State.slot_concealed (s : State) (c : Chan) (a : Active) (n : Nat) (x : Slot) : (s.concealed c a n).slot x = s.slot x := by
  unfold State.concealed; split <;> simp
@[simp] theorem State.line_concealed (s : State) (c : Chan) (a : Active) (n : Nat) (k : Line) : (s.concealed c a n).line k = s.line k := by
  unfold State.concealed; split <;> simp

/-! ### playBlock -/

@[simp] theorem State.device_playBlock (s : State) (a : Active) (b : Block) : (s.playBlock a b).device = s.device := by
  simp [State.playBlock]
@[simp] theorem State.pool_playBlock (s : State) (a : Active) (b : Block) : (s.playBlock a b).pool = s.pool := by
  simp [State.playBlock]
@[simp] theorem State.link_playBlock (s : State) (a : Active) (b : Block) : (s.playBlock a b).link = s.link := by
  simp [State.playBlock]
@[simp] theorem State.chan_playBlock (s : State) (a : Active) (b : Block) (d : Chan) : (s.playBlock a b).chan d = s.chan d := by
  simp [State.playBlock]
@[simp] theorem State.life_playBlock (s : State) (a : Active) (b : Block) (d : Chan) : (s.playBlock a b).life d = s.life d := by
  simp [State.playBlock]
@[simp] theorem State.line_playBlock (s : State) (a : Active) (b : Block) (k : Line) : (s.playBlock a b).line k = s.line k := by
  simp [State.playBlock]

/-! ### runningInstant -/

@[simp] theorem State.device_runningInstant (s : State) (c : Chan) (a : Active) (b : Bool) (n : BitVec 8) (w : Window) : (s.runningInstant c a b n w).device = s.device := by
  unfold State.runningInstant; split <;> (try split) <;> simp
@[simp] theorem State.link_runningInstant (s : State) (c : Chan) (a : Active) (b : Bool) (n : BitVec 8) (w : Window) : (s.runningInstant c a b n w).link = s.link := by
  unfold State.runningInstant; split <;> (try split) <;> simp
@[simp] theorem State.line_runningInstant (s : State) (c : Chan) (a : Active) (b : Bool) (n : BitVec 8) (w : Window) (k : Line) : (s.runningInstant c a b n w).line k = s.line k := by
  unfold State.runningInstant; split <;> (try split) <;> simp

/-! ### sendToward -/

@[simp] theorem State.device_sendToward (s : State) (b : Chan) (a : Active) (m : Sent) : (s.sendToward b a m).device = s.device := by
  unfold State.sendToward; split <;> simp
@[simp] theorem State.slot_sendToward (s : State) (b : Chan) (a : Active) (m : Sent) (x : Slot) : (s.sendToward b a m).slot x = s.slot x := by
  unfold State.sendToward; split <;> simp

/-! ### advanceSequence -/

@[simp] theorem State.device_advanceSequence (s : State) (b : Chan) : (s.advanceSequence b).device = s.device := by
  simp [State.advanceSequence]
@[simp] theorem State.pool_advanceSequence (s : State) (b : Chan) : (s.advanceSequence b).pool = s.pool := by
  simp [State.advanceSequence]
@[simp] theorem State.link_advanceSequence (s : State) (b : Chan) : (s.advanceSequence b).link = s.link := by
  simp [State.advanceSequence]
@[simp] theorem State.slot_advanceSequence (s : State) (b : Chan) (x : Slot) : (s.advanceSequence b).slot x = s.slot x := by
  simp [State.advanceSequence]
@[simp] theorem State.line_advanceSequence (s : State) (b : Chan) (k : Line) : (s.advanceSequence b).line k = s.line k := by
  simp [State.advanceSequence]

/-! ### splicedInstant -/

@[simp] theorem State.device_splicedInstant (s : State) (c : Chan) (a : Active) (b : Chan) (e : Active) : (s.splicedInstant c a b e).device = s.device := by
  unfold State.splicedInstant
  repeat' (first | split | dsimp only)
  all_goals simp
@[simp] theorem State.slot_splicedInstant (s : State) (c : Chan) (a : Active) (b : Chan) (e : Active) (x : Slot) : (s.splicedInstant c a b e).slot x = s.slot x := by
  unfold State.splicedInstant
  repeat' (first | split | dsimp only)
  all_goals simp

/-! ### reserve -/

@[simp] theorem State.device_reserve (s : State) (t : Slot) (c : Chan) : (s.reserve t c).device = s.device := by
  simp [State.reserve]
@[simp] theorem State.pool_reserve (s : State) (t : Slot) (c : Chan) : (s.reserve t c).pool = s.pool := by
  simp [State.reserve]
@[simp] theorem State.link_reserve (s : State) (t : Slot) (c : Chan) : (s.reserve t c).link = s.link := by
  simp [State.reserve]
@[simp] theorem State.chan_reserve (s : State) (t : Slot) (c : Chan) (d : Chan) : (s.reserve t c).chan d = s.chan d := by
  simp [State.reserve]
@[simp] theorem State.life_reserve (s : State) (t : Slot) (c : Chan) (d : Chan) : (s.reserve t c).life d = s.life d := by
  simp [State.reserve]
@[simp] theorem State.line_reserve (s : State) (t : Slot) (c : Chan) (k : Line) : (s.reserve t c).line k = s.line k := by
  simp [State.reserve]

/-! ### unreserve -/

@[simp] theorem State.device_unreserve (s : State) (t : Slot) (c : Chan) : (s.unreserve t c).device = s.device := by
  simp [State.unreserve]
@[simp] theorem State.pool_unreserve (s : State) (t : Slot) (c : Chan) : (s.unreserve t c).pool = s.pool := by
  simp [State.unreserve]
@[simp] theorem State.link_unreserve (s : State) (t : Slot) (c : Chan) : (s.unreserve t c).link = s.link := by
  simp [State.unreserve]
@[simp] theorem State.chan_unreserve (s : State) (t : Slot) (c : Chan) (d : Chan) : (s.unreserve t c).chan d = s.chan d := by
  simp [State.unreserve]
@[simp] theorem State.life_unreserve (s : State) (t : Slot) (c : Chan) (d : Chan) : (s.unreserve t c).life d = s.life d := by
  simp [State.unreserve]
@[simp] theorem State.line_unreserve (s : State) (t : Slot) (c : Chan) (k : Line) : (s.unreserve t c).line k = s.line k := by
  simp [State.unreserve]

/-! ### bindSlot -/

@[simp] theorem State.device_bindSlot (s : State) (t : Slot) (c : Chan) : (s.bindSlot t c).device = s.device := by
  simp [State.bindSlot]
@[simp] theorem State.pool_bindSlot (s : State) (t : Slot) (c : Chan) : (s.bindSlot t c).pool = s.pool := by
  simp [State.bindSlot]
@[simp] theorem State.link_bindSlot (s : State) (t : Slot) (c : Chan) : (s.bindSlot t c).link = s.link := by
  simp [State.bindSlot]
@[simp] theorem State.chan_bindSlot (s : State) (t : Slot) (c : Chan) (d : Chan) : (s.bindSlot t c).chan d = s.chan d := by
  simp [State.bindSlot]
@[simp] theorem State.life_bindSlot (s : State) (t : Slot) (c : Chan) (d : Chan) : (s.bindSlot t c).life d = s.life d := by
  simp [State.bindSlot]
@[simp] theorem State.line_bindSlot (s : State) (t : Slot) (c : Chan) (k : Line) : (s.bindSlot t c).line k = s.line k := by
  simp [State.bindSlot]

/-! ### freeSlot -/

@[simp] theorem State.device_freeSlot (s : State) (t : Slot) : (s.freeSlot t).device = s.device := by
  simp [State.freeSlot]
@[simp] theorem State.pool_freeSlot (s : State) (t : Slot) : (s.freeSlot t).pool = s.pool := by
  simp [State.freeSlot]
@[simp] theorem State.link_freeSlot (s : State) (t : Slot) : (s.freeSlot t).link = s.link := by
  simp [State.freeSlot]
@[simp] theorem State.chan_freeSlot (s : State) (t : Slot) (d : Chan) : (s.freeSlot t).chan d = s.chan d := by
  simp [State.freeSlot]
@[simp] theorem State.life_freeSlot (s : State) (t : Slot) (d : Chan) : (s.freeSlot t).life d = s.life d := by
  simp [State.freeSlot]
@[simp] theorem State.line_freeSlot (s : State) (t : Slot) (k : Line) : (s.freeSlot t).line k = s.line k := by
  simp [State.freeSlot]

/-! ### idleSlot -/

@[simp] theorem State.device_idleSlot (s : State) (t : Slot) : (s.idleSlot t).device = s.device := by
  simp [State.idleSlot]
@[simp] theorem State.pool_idleSlot (s : State) (t : Slot) : (s.idleSlot t).pool = s.pool := by
  simp [State.idleSlot]
@[simp] theorem State.link_idleSlot (s : State) (t : Slot) : (s.idleSlot t).link = s.link := by
  simp [State.idleSlot]
@[simp] theorem State.chan_idleSlot (s : State) (t : Slot) (d : Chan) : (s.idleSlot t).chan d = s.chan d := by
  simp [State.idleSlot]
@[simp] theorem State.life_idleSlot (s : State) (t : Slot) (d : Chan) : (s.idleSlot t).life d = s.life d := by
  simp [State.idleSlot]
@[simp] theorem State.line_idleSlot (s : State) (t : Slot) (k : Line) : (s.idleSlot t).line k = s.line k := by
  simp [State.idleSlot]

/-! ### moveTimeslot -/

@[simp] theorem State.device_moveTimeslot (s : State) (c : Chan) (p : Bool) (t : Slot) : (s.moveTimeslot c p t).device = s.device := by
  unfold State.moveTimeslot
  repeat' (first | split | dsimp only)
  all_goals simp
@[simp] theorem State.pool_moveTimeslot (s : State) (c : Chan) (p : Bool) (t : Slot) : (s.moveTimeslot c p t).pool = s.pool := by
  unfold State.moveTimeslot
  repeat' (first | split | dsimp only)
  all_goals simp
@[simp] theorem State.link_moveTimeslot (s : State) (c : Chan) (p : Bool) (t : Slot) : (s.moveTimeslot c p t).link = s.link := by
  unfold State.moveTimeslot
  repeat' (first | split | dsimp only)
  all_goals simp
@[simp] theorem State.line_moveTimeslot (s : State) (c : Chan) (p : Bool) (t : Slot) (k : Line) : (s.moveTimeslot c p t).line k = s.line k := by
  unfold State.moveTimeslot
  repeat' (first | split | dsimp only)
  all_goals simp

/-- A move to the channel's own timeslot changes nothing (R145). -/
theorem State.moveTimeslot_own (s : State) (c : Chan) (p : Bool) (f : FixedHalf) (h : (s.life c).fixed? = some f) :
    s.moveTimeslot c p f.timeslot = s := by
  simp [State.moveTimeslot, h]

/-- The timeslots after a move to another timeslot: the new one BOUND with the old one's source, the old one FREE and IDLE,
every other one as it was; the octets move at once at a point, and with the next sample time elsewhere (R54). -/
theorem State.slot_moveTimeslot (s : State) (c : Chan) (p : Bool) (f : FixedHalf) (new x : Slot)
    (h : (s.life c).fixed? = some f) (hn : f.timeslot ≠ new) :
    (s.moveTimeslot c p new).slot x =
      if x = new then
        { entry := .bound c, source := (s.slot f.timeslot).source
          out := if p then (s.slot f.timeslot).out else (s.slot new).out }
      else if x = f.timeslot then { entry := .free, source := .idle, out := if p then 0 else (s.slot f.timeslot).out }
      else s.slot x := by
  simp only [State.moveTimeslot, h, if_neg hn, State.mapChan, State.slot_setChan, State.slot_mapSlot]
  by_cases h1 : x = new
  · subst h1; simp [hn]
  · by_cases h2 : x = f.timeslot
    · subst h2; simp [h1, Ne.symm hn]
    · simp [h1, h2, Ne.symm h1, Ne.symm h2]

/-- The contexts after a move to another timeslot: the channel's fixed half names it; at a point its octets are the new
timeslot's at once, elsewhere from the next sample time on (R54, R55). -/
theorem State.chan_moveTimeslot (s : State) (c d : Chan) (p : Bool) (f : FixedHalf) (new : Slot)
    (h : (s.life c).fixed? = some f) (hn : f.timeslot ≠ new) :
    (s.moveTimeslot c p new).chan d =
      if c = d then
        { s.chan d with
          life := (s.life d).mapFixed fun f => { f with timeslot := new, feed := if p then new else f.feed } }
      else s.chan d := by
  simp only [State.moveTimeslot, h, if_neg hn, State.chan_mapChan]
  split <;> simp [State.life]

@[simp] theorem State.device_applySlot (s : State) (c : Chan) (p : Bool) (i : Item × BitVec 16)  :
    (State.applySlot c p s i).device = s.device := by
  unfold State.applySlot; split <;> simp
@[simp] theorem State.pool_applySlot (s : State) (c : Chan) (p : Bool) (i : Item × BitVec 16)  :
    (State.applySlot c p s i).pool = s.pool := by
  unfold State.applySlot; split <;> simp
@[simp] theorem State.link_applySlot (s : State) (c : Chan) (p : Bool) (i : Item × BitVec 16)  :
    (State.applySlot c p s i).link = s.link := by
  unfold State.applySlot; split <;> simp
@[simp] theorem State.line_applySlot (s : State) (c : Chan) (p : Bool) (i : Item × BitVec 16) (k : Line) :
    (State.applySlot c p s i).line k = s.line k := by
  unfold State.applySlot; split <;> simp

/-! ### applyRow -/

@[simp] theorem State.device_applyRow (s : State) (l : Line) (p : Bool) : (s.applyRow l p).device = s.device := by
  unfold State.applyRow; dsimp only
  split
  · rfl
  · split <;> simp [foldl_keeps (fun s : State => s.device) _ (fun s i => State.device_applySlot s _ p i)]
@[simp] theorem State.pool_applyRow (s : State) (l : Line) (p : Bool) : (s.applyRow l p).pool = s.pool := by
  unfold State.applyRow; dsimp only
  split
  · rfl
  · split <;> simp [foldl_keeps (fun s : State => s.pool) _ (fun s i => State.pool_applySlot s _ p i)]
@[simp] theorem State.link_applyRow (s : State) (l : Line) (p : Bool) : (s.applyRow l p).link = s.link := by
  unfold State.applyRow; dsimp only
  split
  · rfl
  · split <;> simp [foldl_keeps (fun s : State => s.link) _ (fun s i => State.link_applySlot s _ p i)]

/-! ### applyPending -/

@[simp] theorem State.device_applyPending (s : State) (l : Line) (c : Chan) (p : Bool) : (s.applyPending l c p).device = s.device := by
  unfold State.applyPending; split <;> simp
@[simp] theorem State.pool_applyPending (s : State) (l : Line) (c : Chan) (p : Bool) : (s.applyPending l c p).pool = s.pool := by
  unfold State.applyPending; split <;> simp
@[simp] theorem State.link_applyPending (s : State) (l : Line) (c : Chan) (p : Bool) : (s.applyPending l c p).link = s.link := by
  unfold State.applyPending; split <;> simp

/-! ### applyBoth -/

@[simp] theorem State.device_applyBoth (s : State) (c : Chan) (p : Bool) : (s.applyBoth c p).device = s.device := by
  simp [State.applyBoth]
@[simp] theorem State.pool_applyBoth (s : State) (c : Chan) (p : Bool) : (s.applyBoth c p).pool = s.pool := by
  simp [State.applyBoth]
@[simp] theorem State.link_applyBoth (s : State) (c : Chan) (p : Bool) : (s.applyBoth c p).link = s.link := by
  simp [State.applyBoth]

/-! ### loseRow -/

@[simp] theorem State.device_loseRow (s : State) (l : Line) (c : Chan) : (s.loseRow l c).device = s.device := by
  unfold State.loseRow
  repeat' (first | split | dsimp only)
  all_goals simp
@[simp] theorem State.pool_loseRow (s : State) (l : Line) (c : Chan) : (s.loseRow l c).pool = s.pool := by
  unfold State.loseRow
  repeat' (first | split | dsimp only)
  all_goals simp
@[simp] theorem State.link_loseRow (s : State) (l : Line) (c : Chan) : (s.loseRow l c).link = s.link := by
  unfold State.loseRow
  repeat' (first | split | dsimp only)
  all_goals simp

/-! ### abortCheck -/

@[simp] theorem State.device_abortCheck (s : State) (c : Chan) (h : HalfF) : (s.abortCheck c h).device = s.device := by
  unfold State.abortCheck; split <;> simp
@[simp] theorem State.pool_abortCheck (s : State) (c : Chan) (h : HalfF) : (s.abortCheck c h).pool = s.pool := by
  unfold State.abortCheck; split <;> simp
@[simp] theorem State.link_abortCheck (s : State) (c : Chan) (h : HalfF) : (s.abortCheck c h).link = s.link := by
  unfold State.abortCheck; split <;> simp
@[simp] theorem State.line_abortCheck (s : State) (c : Chan) (h : HalfF) (k : Line) : (s.abortCheck c h).line k = s.line k := by
  unfold State.abortCheck; split <;> simp

/-! ### sever -/

@[simp] theorem State.device_sever (s : State) (c : Chan) : (s.sever c).device = s.device := by
  simp [State.sever]
@[simp] theorem State.pool_sever (s : State) (c : Chan) : (s.sever c).pool = s.pool := by
  simp [State.sever]
@[simp] theorem State.link_sever (s : State) (c : Chan) : (s.sever c).link = s.link := by
  simp [State.sever]
@[simp] theorem State.slot_sever (s : State) (c : Chan) (x : Slot) : (s.sever c).slot x = s.slot x := by
  simp [State.sever]
@[simp] theorem State.line_sever (s : State) (c : Chan) (k : Line) : (s.sever c).line k = s.line k := by
  simp [State.sever]

/-! ### resume -/

@[simp] theorem State.device_resume (s : State) (c : Chan) : (s.resume c).device = s.device := by
  simp [State.resume]
@[simp] theorem State.pool_resume (s : State) (c : Chan) : (s.resume c).pool = s.pool := by
  simp [State.resume]
@[simp] theorem State.link_resume (s : State) (c : Chan) : (s.resume c).link = s.link := by
  simp [State.resume]
@[simp] theorem State.slot_resume (s : State) (c : Chan) (x : Slot) : (s.resume c).slot x = s.slot x := by
  simp [State.resume]
@[simp] theorem State.line_resume (s : State) (c : Chan) (k : Line) : (s.resume c).line k = s.line k := by
  simp [State.resume]

/-! ### redirect -/

@[simp] theorem State.device_redirect (s : State) (c : Chan) : (s.redirect c).device = s.device := by
  unfold State.redirect; split <;> simp
@[simp] theorem State.link_redirect (s : State) (c : Chan) : (s.redirect c).link = s.link := by
  unfold State.redirect; split <;> simp
@[simp] theorem State.slot_redirect (s : State) (c : Chan) (x : Slot) : (s.redirect c).slot x = s.slot x := by
  unfold State.redirect; split <;> simp
@[simp] theorem State.line_redirect (s : State) (c : Chan) (k : Line) : (s.redirect c).line k = s.line k := by
  unfold State.redirect; split <;> simp

/-! ### endSplice -/

@[simp] theorem State.device_endSplice (s : State) (a b : Chan) : (s.endSplice a b).device = s.device := by
  unfold State.endSplice; dsimp only; split <;> simp
@[simp] theorem State.link_endSplice (s : State) (a b : Chan) : (s.endSplice a b).link = s.link := by
  unfold State.endSplice; dsimp only; split <;> simp
@[simp] theorem State.slot_endSplice (s : State) (a b : Chan) (x : Slot) : (s.endSplice a b).slot x = s.slot x := by
  unfold State.endSplice; dsimp only; split <;> simp
@[simp] theorem State.line_endSplice (s : State) (a b : Chan) (k : Line) : (s.endSplice a b).line k = s.line k := by
  unfold State.endSplice; dsimp only; split <;> simp

/-! ### stopStreams -/

@[simp] theorem State.device_stopStreams (s : State) (c : Chan) (a : Active) : (s.stopStreams c a).device = s.device := by
  unfold State.stopStreams; split <;> simp
@[simp] theorem State.link_stopStreams (s : State) (c : Chan) (a : Active) : (s.stopStreams c a).link = s.link := by
  unfold State.stopStreams; split <;> simp
@[simp] theorem State.slot_stopStreams (s : State) (c : Chan) (a : Active) (x : Slot) : (s.stopStreams c a).slot x = s.slot x := by
  unfold State.stopStreams; split <;> simp
@[simp] theorem State.line_stopStreams (s : State) (c : Chan) (a : Active) (k : Line) : (s.stopStreams c a).line k = s.line k := by
  unfold State.stopStreams; split <;> simp

/-! ### releaseHalf -/

@[simp] theorem State.device_releaseHalf (s : State) (l : Line) (c : Chan) : (s.releaseHalf l c).device = s.device := by
  unfold State.releaseHalf; split <;> simp
@[simp] theorem State.link_releaseHalf (s : State) (l : Line) (c : Chan) : (s.releaseHalf l c).link = s.link := by
  unfold State.releaseHalf; split <;> simp

/-! ### reportActivity -/

@[simp] theorem State.device_reportActivity (s : State) (c : Chan) (a : Active) : (s.reportActivity c a).device = s.device := by
  unfold State.reportActivity; split <;> (try split) <;> simp
@[simp] theorem State.pool_reportActivity (s : State) (c : Chan) (a : Active) : (s.reportActivity c a).pool = s.pool := by
  unfold State.reportActivity; split <;> (try split) <;> simp
@[simp] theorem State.link_reportActivity (s : State) (c : Chan) (a : Active) : (s.reportActivity c a).link = s.link := by
  unfold State.reportActivity; split <;> (try split) <;> simp
@[simp] theorem State.slot_reportActivity (s : State) (c : Chan) (a : Active) (x : Slot) : (s.reportActivity c a).slot x = s.slot x := by
  unfold State.reportActivity; split <;> (try split) <;> simp
@[simp] theorem State.line_reportActivity (s : State) (c : Chan) (a : Active) (k : Line) : (s.reportActivity c a).line k = s.line k := by
  unfold State.reportActivity; split <;> (try split) <;> simp

/-! ### boundary -/

@[simp] theorem State.device_boundary (s : State) (c : Chan) (a : Active) : (s.boundary c a).device = s.device := by
  unfold State.boundary; split <;> simp
@[simp] theorem State.slot_boundary (s : State) (c : Chan) (a : Active) (x : Slot) : (s.boundary c a).slot x = s.slot x := by
  unfold State.boundary; split <;> simp

/-! ### takeBoundary -/

@[simp] theorem State.device_takeBoundary (s : State) (c : Chan) : (s.takeBoundary c).device = s.device := by
  unfold State.takeBoundary; dsimp only; split <;> simp

/-! ### plainInstant -/

@[simp] theorem State.device_plainInstant (s : State) (c : Chan) (a : Active) : (s.plainInstant c a).device = s.device := by
  unfold State.plainInstant; split <;> simp
@[simp] theorem State.link_plainInstant (s : State) (c : Chan) (a : Active) : (s.plainInstant c a).link = s.link := by
  unfold State.plainInstant; split <;> simp
@[simp] theorem State.line_plainInstant (s : State) (c : Chan) (a : Active) (k : Line) : (s.plainInstant c a).line k = s.line k := by
  unfold State.plainInstant; split <;> simp

/-! ### takeInstant -/

@[simp] theorem State.device_takeInstant (s : State) (c : Chan) : (s.takeInstant c).device = s.device := by
  unfold State.takeInstant
  repeat' (first | split | dsimp only)
  all_goals simp

/-! ### closeWindow -/

@[simp] theorem State.device_closeWindow (s : State) (c : Chan) (w : Window) : (s.closeWindow c w).device = s.device := by
  unfold State.closeWindow
  repeat' (first | split | dsimp only)
  all_goals simp
@[simp] theorem State.link_closeWindow (s : State) (c : Chan) (w : Window) : (s.closeWindow c w).link = s.link := by
  unfold State.closeWindow
  repeat' (first | split | dsimp only)
  all_goals simp
@[simp] theorem State.slot_closeWindow (s : State) (c : Chan) (w : Window) (x : Slot) : (s.closeWindow c w).slot x = s.slot x := by
  unfold State.closeWindow
  repeat' (first | split | dsimp only)
  all_goals simp
@[simp] theorem State.line_closeWindow (s : State) (c : Chan) (w : Window) (k : Line) : (s.closeWindow c w).line k = s.line k := by
  unfold State.closeWindow
  repeat' (first | split | dsimp only)
  all_goals simp

/-! ### encodeResult -/

@[simp] theorem State.device_encodeResult (s : State) (c : Chan) (e : EncodeWork) (m : Speech.Coder) : (s.encodeResult c e m).device = s.device := by
  simp [State.encodeResult]
@[simp] theorem State.pool_encodeResult (s : State) (c : Chan) (e : EncodeWork) (m : Speech.Coder) : (s.encodeResult c e m).pool = s.pool := by
  simp [State.encodeResult]
@[simp] theorem State.slot_encodeResult (s : State) (c : Chan) (e : EncodeWork) (m : Speech.Coder) (x : Slot) : (s.encodeResult c e m).slot x = s.slot x := by
  simp [State.encodeResult]

/-! ### decodeResult -/

@[simp] theorem State.device_decodeResult (s : State) (c : Chan) (f : SpeechFrame) : (s.decodeResult c f).device = s.device := by
  simp [State.decodeResult]
@[simp] theorem State.pool_decodeResult (s : State) (c : Chan) (f : SpeechFrame) : (s.decodeResult c f).pool = s.pool := by
  simp [State.decodeResult]
@[simp] theorem State.link_decodeResult (s : State) (c : Chan) (f : SpeechFrame) : (s.decodeResult c f).link = s.link := by
  simp [State.decodeResult]
@[simp] theorem State.slot_decodeResult (s : State) (c : Chan) (f : SpeechFrame) (x : Slot) : (s.decodeResult c f).slot x = s.slot x := by
  simp [State.decodeResult]
@[simp] theorem State.line_decodeResult (s : State) (c : Chan) (f : SpeechFrame) (k : Line) : (s.decodeResult c f).line k = s.line k := by
  simp [State.decodeResult]

/-! ### deliver -/

@[simp] theorem State.device_deliver (s : State) (j : Job) : (s.deliver j).device = s.device := by
  unfold State.deliver; split <;> (try split) <;> simp
@[simp] theorem State.pool_deliver (s : State) (j : Job) : (s.deliver j).pool = s.pool := by
  unfold State.deliver; split <;> (try split) <;> simp
@[simp] theorem State.slot_deliver (s : State) (j : Job) (x : Slot) : (s.deliver j).slot x = s.slot x := by
  unfold State.deliver; split <;> (try split) <;> simp

/-! ### offerHeldDecode -/

@[simp] theorem State.device_offerHeldDecode (s : State) (c : Chan) : (s.offerHeldDecode c).device = s.device := by
  unfold State.offerHeldDecode; split <;> (try split) <;> simp
@[simp] theorem State.link_offerHeldDecode (s : State) (c : Chan) : (s.offerHeldDecode c).link = s.link := by
  unfold State.offerHeldDecode; split <;> (try split) <;> simp
@[simp] theorem State.slot_offerHeldDecode (s : State) (c : Chan) (x : Slot) : (s.offerHeldDecode c).slot x = s.slot x := by
  unfold State.offerHeldDecode; split <;> (try split) <;> simp
@[simp] theorem State.line_offerHeldDecode (s : State) (c : Chan) (k : Line) : (s.offerHeldDecode c).line k = s.line k := by
  unfold State.offerHeldDecode; split <;> (try split) <;> simp

/-! ### afterCompletion -/

@[simp] theorem State.device_afterCompletion (s : State) (j : Job) : (s.afterCompletion j).device = s.device := by
  unfold State.afterCompletion; split <;> simp
@[simp] theorem State.slot_afterCompletion (s : State) (j : Job) (x : Slot) : (s.afterCompletion j).slot x = s.slot x := by
  unfold State.afterCompletion; split <;> simp

/-! ### dropLateHeld -/

@[simp] theorem State.device_dropLateHeld (s : State) (c : Chan) : (s.dropLateHeld c).device = s.device := by
  simp [State.dropLateHeld]
@[simp] theorem State.pool_dropLateHeld (s : State) (c : Chan) : (s.dropLateHeld c).pool = s.pool := by
  simp [State.dropLateHeld]
@[simp] theorem State.link_dropLateHeld (s : State) (c : Chan) : (s.dropLateHeld c).link = s.link := by
  simp [State.dropLateHeld]
@[simp] theorem State.slot_dropLateHeld (s : State) (c : Chan) (x : Slot) : (s.dropLateHeld c).slot x = s.slot x := by
  simp [State.dropLateHeld]
@[simp] theorem State.line_dropLateHeld (s : State) (c : Chan) (k : Line) : (s.dropLateHeld c).line k = s.line k := by
  simp [State.dropLateHeld]

/-! ### encodeDeadline -/

@[simp] theorem State.device_encodeDeadline (s : State) (c : Chan) : (s.encodeDeadline c).device = s.device := by
  unfold State.encodeDeadline
  repeat' (first | split | dsimp only)
  all_goals simp
@[simp] theorem State.slot_encodeDeadline (s : State) (c : Chan) (x : Slot) : (s.encodeDeadline c).slot x = s.slot x := by
  unfold State.encodeDeadline
  repeat' (first | split | dsimp only)
  all_goals simp

/-! ### decodeDeadline -/

@[simp] theorem State.device_decodeDeadline (s : State) (c : Chan) : (s.decodeDeadline c).device = s.device := by
  unfold State.decodeDeadline; split <;> (try split) <;> simp
@[simp] theorem State.link_decodeDeadline (s : State) (c : Chan) : (s.decodeDeadline c).link = s.link := by
  unfold State.decodeDeadline; split <;> (try split) <;> simp
@[simp] theorem State.slot_decodeDeadline (s : State) (c : Chan) (x : Slot) : (s.decodeDeadline c).slot x = s.slot x := by
  unfold State.decodeDeadline; split <;> (try split) <;> simp

/-! ### touch -/

@[simp] theorem State.device_touch (s : State) (l : Line) : (s.touch l).device = s.device := by
  unfold State.touch; split <;> simp
@[simp] theorem State.pool_touch (s : State) (l : Line) : (s.touch l).pool = s.pool := by
  unfold State.touch; split <;> simp
@[simp] theorem State.link_touch (s : State) (l : Line) : (s.touch l).link = s.link := by
  unfold State.touch; split <;> simp
@[simp] theorem State.chan_touch (s : State) (l : Line) (d : Chan) : (s.touch l).chan d = s.chan d := by
  unfold State.touch; split <;> simp
@[simp] theorem State.life_touch (s : State) (l : Line) (d : Chan) : (s.touch l).life d = s.life d := by
  unfold State.touch; split <;> simp
@[simp] theorem State.slot_touch (s : State) (l : Line) (x : Slot) : (s.touch l).slot x = s.slot x := by
  unfold State.touch; split <;> simp

/-! ### formReply -/

@[simp] theorem State.device_formReply (s : State) (l : Line) (r : Result) (n : BitVec 7) (d0 : BitVec 24) : (s.formReply l r n d0).device = s.device := by
  simp [State.formReply]
@[simp] theorem State.pool_formReply (s : State) (l : Line) (r : Result) (n : BitVec 7) (d0 : BitVec 24) : (s.formReply l r n d0).pool = s.pool := by
  simp [State.formReply]
@[simp] theorem State.link_formReply (s : State) (l : Line) (r : Result) (n : BitVec 7) (d0 : BitVec 24) : (s.formReply l r n d0).link = s.link := by
  simp [State.formReply]
@[simp] theorem State.chan_formReply (s : State) (l : Line) (r : Result) (n : BitVec 7) (d0 : BitVec 24) (d : Chan) : (s.formReply l r n d0).chan d = s.chan d := by
  simp [State.formReply]
@[simp] theorem State.life_formReply (s : State) (l : Line) (r : Result) (n : BitVec 7) (d0 : BitVec 24) (d : Chan) : (s.formReply l r n d0).life d = s.life d := by
  simp [State.formReply]
@[simp] theorem State.slot_formReply (s : State) (l : Line) (r : Result) (n : BitVec 7) (d0 : BitVec 24) (x : Slot) : (s.formReply l r n d0).slot x = s.slot x := by
  simp [State.formReply]

/-! ### halfWaitExpiry -/

@[simp] theorem State.device_halfWaitExpiry (s : State) (c : Chan) : (s.halfWaitExpiry c).device = s.device := by
  unfold State.halfWaitExpiry; split <;> simp
@[simp] theorem State.link_halfWaitExpiry (s : State) (c : Chan) : (s.halfWaitExpiry c).link = s.link := by
  unfold State.halfWaitExpiry; split <;> simp

/-! ### severAll -/

@[simp] theorem State.device_severAll (s : State)  : s.severAll.device = s.device := by
  unfold State.severAll
  exact foldl_keeps (fun s : State => s.device) _ (fun s i => by split <;> simp) _ s
@[simp] theorem State.pool_severAll (s : State)  : s.severAll.pool = s.pool := by
  unfold State.severAll
  exact foldl_keeps (fun s : State => s.pool) _ (fun s i => by split <;> simp) _ s
@[simp] theorem State.link_severAll (s : State)  : s.severAll.link = s.link := by
  unfold State.severAll
  exact foldl_keeps (fun s : State => s.link) _ (fun s i => by split <;> simp) _ s
@[simp] theorem State.slot_severAll (s : State)  (x : Slot) : s.severAll.slot x = s.slot x := by
  unfold State.severAll
  exact foldl_keeps (fun s : State => s.slot x) _ (fun s i => by split <;> simp) _ s
@[simp] theorem State.line_severAll (s : State)  (k : Line) : s.severAll.line k = s.line k := by
  unfold State.severAll
  exact foldl_keeps (fun s : State => s.line k) _ (fun s i => by split <;> simp) _ s

/-! ### watchdogRelease -/

@[simp] theorem State.device_watchdogRelease (s : State) (l : Line) : (s.watchdogRelease l).device = s.device := by
  unfold State.watchdogRelease
  simp [foldl_keeps (fun s : State => s.device) _ (fun s i => State.device_releaseHalf s l i)]
@[simp] theorem State.link_watchdogRelease (s : State) (l : Line) : (s.watchdogRelease l).link = s.link := by
  unfold State.watchdogRelease
  simp [foldl_keeps (fun s : State => s.link) _ (fun s i => State.link_releaseHalf s l i)]

/-! ### watchdogExpiry -/

@[simp] theorem State.device_watchdogExpiry (s : State) (l : Line) : (s.watchdogExpiry l).device = s.device := by
  unfold State.watchdogExpiry; split <;> simp
@[simp] theorem State.link_watchdogExpiry (s : State) (l : Line) : (s.watchdogExpiry l).link = s.link := by
  unfold State.watchdogExpiry; split <;> simp

/-! ### advancePointer -/

@[simp] theorem State.device_advancePointer (s : State) (l : Line) : (s.advancePointer l).device = s.device := by
  simp [State.advancePointer]
@[simp] theorem State.pool_advancePointer (s : State) (l : Line) : (s.advancePointer l).pool = s.pool := by
  simp [State.advancePointer]
@[simp] theorem State.link_advancePointer (s : State) (l : Line) : (s.advancePointer l).link = s.link := by
  simp [State.advancePointer]
@[simp] theorem State.chan_advancePointer (s : State) (l : Line) (d : Chan) : (s.advancePointer l).chan d = s.chan d := by
  simp [State.advancePointer]
@[simp] theorem State.life_advancePointer (s : State) (l : Line) (d : Chan) : (s.advancePointer l).life d = s.life d := by
  simp [State.advancePointer]
@[simp] theorem State.slot_advancePointer (s : State) (l : Line) (x : Slot) : (s.advancePointer l).slot x = s.slot x := by
  simp [State.advancePointer]

end Sys2Proof.Machine
end

