-- ==== Sys2Proof/Laws/Offers.lean ====
section
/-! SUPPORT. What an offer can do, said once: a record offered to the Transmit Queue, a job offered to the pool, a DECODE
offered for a window, a frame taken by a window, and a window opened; with the engine a job leaves, and a row applied. -/

namespace Sys2Proof.Machine

/-! ### Records -/

/-- A record offered to the Transmit Queue is sent at once, appended, or dropped. -/
theorem State.recordOffered_offerRecord (s : State) (r : Record) : s.recordOffered (s.offerRecord r) r := by
  unfold State.recordOffered State.offerRecord
  refine ⟨fun ht hs => ?_, fun hs hl => ?_, fun hl => ?_⟩
  · simp [ht, hs, State.count, State.mapChan, State.setChan, State.startTransmit, Config.transmitQueueLength, recordClocks]
  · cases hx : s.sending with
    | none => exact absurd hx hs
    | some x => simp [hl, State.count, State.mapChan, State.setChan, State.startTransmit, Config.transmitQueueLength]
  · have : ¬s.transmit.length < 32 := by omega
    simp [Config.transmitQueueLength, this]

theorem Counter.index_injective {k l : Counter} (h : k.index.val = l.index.val) : k = l := by
  revert h; cases k <;> cases l <;> decide

/-- A counter of a channel once one of them has been incremented. -/
theorem State.counter_count (s : State) (c : Chan) (k l : Counter) :
    ((s.count c l).chan c).counter k = if k = l then saturatingSucc ((s.chan c).counter k) else (s.chan c).counter k := by
  simp only [State.count, State.chan_mapChan_self, Channel.count, Channel.counter]
  by_cases h : k = l
  · subst h; simp
  · have : l.index.val ≠ k.index.val := fun hx => h (Counter.index_injective hx).symm
    simp [h, this]

/-- A record offered to the Transmit Queue is counted on its channel, and a drop in both lines' event sets (R76, R77). -/
theorem State.recordCounted_offerRecord (s : State) {c : Chan} {r : Record} (h : recordChannel r = c) :
    s.recordCounted (s.offerRecord r) c r := by
  subst h
  refine ⟨State.recordOffered_offerRecord s r, fun k => ?_, fun l => ?_⟩
  · unfold State.offerRecord
    by_cases hl : s.transmit.length < 32
    · simp only [hl, Config.transmitQueueLength, if_true, State.chan_startTransmit, State.counter_count]
      rfl
    · simp only [hl, Config.transmitQueueLength, if_false, State.chan_recordLine, State.counter_count]
  · unfold State.offerRecord
    by_cases hl : s.transmit.length < 32
    · simp only [hl, Config.transmitQueueLength, if_true, State.line_startTransmit]
      cases l <;> rfl
    · simp only [hl, Config.transmitQueueLength, if_false, State.recordedSet]
      have h : ∀ u : LineUnit, (if u.allowsLine .queueOverflow = true then
          { u with lineEvents := u.lineEvents ||| BitVec.twoPow 5 LineKind.queueOverflow.bit } else u)
          = { u with lineEvents :=
              if u.settings.eventMask.getLsbD (9 + LineKind.queueOverflow.bit) = true then
                u.lineEvents ||| BitVec.twoPow 5 LineKind.queueOverflow.bit else u.lineEvents } := by
        intro u; unfold LineUnit.allowsLine; split <;> rfl
      cases l <;> simp only [State.recordLine, State.mapLine, h] <;> rfl

/-! ### The arbiter -/

theorem State.freeEngine_eq_none {s : State} (h : ∀ e : Fin 4, s.engines[e.val] ≠ .free) : s.freeEngine = none := by
  simp only [State.freeEngine, List.find?_eq_none, decide_eq_true_eq]
  exact fun e _ => h e

theorem State.freeEngine_eq_some {s : State} {e : Fin 4} (h : s.engines[e.val] = .free)
    (hl : ∀ d : Fin 4, d < e → s.engines[d.val] ≠ .free) : s.freeEngine = some e := by
  unfold State.freeEngine
  have hr : List.finRange 4 = [0, 1, 2, 3] := by decide
  rw [hr]
  match e, h, hl with
  | 0, h, _ =>
    have h : s.engines[0] = .free := h
    simp [List.find?, h]
  | 1, h, hl =>
    have h : s.engines[1] = .free := h
    have h0 : s.engines[0] ≠ .free := hl 0 (by decide)
    simp [List.find?, h, h0]
  | 2, h, hl =>
    have h : s.engines[2] = .free := h
    have h0 : s.engines[0] ≠ .free := hl 0 (by decide)
    have h1 : s.engines[1] ≠ .free := hl 1 (by decide)
    simp [List.find?, h, h0, h1]
  | 3, h, hl =>
    have h : s.engines[3] = .free := h
    have h0 : s.engines[0] ≠ .free := hl 0 (by decide)
    have h1 : s.engines[1] ≠ .free := hl 1 (by decide)
    have h2 : s.engines[2] ≠ .free := hl 2 (by decide)
    simp [List.find?, h, h0, h1, h2]

/-- Where an engine is FREE, one of them is the lowest-numbered. -/
theorem State.exists_lowest_free {s : State} (h : ∃ e : Fin 4, s.engines[e.val] = .free) :
    ∃ e : Fin 4, s.engines[e.val] = .free ∧ ∀ d : Fin 4, d < e → s.engines[d.val] ≠ .free := by
  have key : ∀ n (e : Fin 4), e.val = n → s.engines[e.val] = .free →
      ∃ e : Fin 4, s.engines[e.val] = .free ∧ ∀ d : Fin 4, d < e → s.engines[d.val] ≠ .free := by
    intro n
    induction n using Nat.strongRecOn with
    | _ n ih =>
      intro e hn he
      by_cases hx : ∃ d : Fin 4, d < e ∧ s.engines[d.val] = .free
      · obtain ⟨d, hd, hf⟩ := hx; exact ih d.val (hn ▸ hd) d rfl hf
      · exact ⟨e, he, fun d hd hf => hx ⟨d, hd, hf⟩⟩
  obtain ⟨e, he⟩ := h
  exact key e.val e rfl he

theorem State.startHead_of_full {s : State} (h : ∀ e : Fin 4, s.engines[e.val] ≠ .free) : s.startHead = s := by
  unfold State.startHead; rw [State.freeEngine_eq_none h]; split <;> simp_all

theorem State.startHead_of_nil {s : State} (h : s.jobs = []) : s.startHead = s := by
  unfold State.startHead; rw [h]

/-- With no engine FREE the arbiter does nothing. -/
theorem State.arbitrate_of_full {s : State} (h : ∀ e : Fin 4, s.engines[e.val] ≠ .free) : s.arbitrate = s := by
  simp [State.arbitrate, State.startHead_of_full h]

/-- With the Job Queue empty the arbiter does nothing. -/
theorem State.arbitrate_of_nil {s : State} (h : s.jobs = []) : s.arbitrate = s := by
  simp [State.arbitrate, State.startHead_of_nil h]

/-- The arbiter starts the only queued job on the lowest-numbered FREE engine. -/
theorem State.arbitrate_single {s : State} {j : Job} {e : Fin 4} (hj : s.jobs = [j]) (he : s.engines[e.val] = .free)
    (hl : ∀ d : Fin 4, d < e → s.engines[d.val] ≠ .free) :
    s.arbitrate = { s with
      jobs := [], engines := s.engines.set e.val (.busy j (s.clock + (320 + 1280 * (j.mode.bits + 2)))) } := by
  have h1 : s.startHead = { s with
      jobs := [], engines := s.engines.set e.val (.busy j (s.clock + (320 + 1280 * (j.mode.bits + 2)))) } := by
    unfold State.startHead; rw [hj, State.freeEngine_eq_some he hl]; rfl
  unfold State.arbitrate
  rw [h1]
  repeat rw [State.startHead_of_nil rfl]

/-- What the arbiter does once an engine has been left by its job (R128, R129). -/
theorem State.engineLeft_arbitrate (s : State) (e : Fin 4) (left : Engine) :
    s.engineLeft ({ s with engines := s.engines.set e.val left } : State).arbitrate e left s.jobs := by
  have other : ∀ d : Fin 4, d ≠ e → ∀ g : Engine, (s.engines.set e.val g)[d.val] = s.engines[d.val] := by
    intro d hd g
    have : e.val ≠ d.val := fun h => hd (Fin.ext h.symm)
    simp [this]
  refine ⟨fun hj => ?_, fun hf => ⟨fun hl => ?_, fun head rest hl hj => ?_⟩⟩
  · rw [State.arbitrate_of_nil (by exact hj)]; exact ⟨hj, rfl⟩
  · subst hl
    rw [State.arbitrate_of_full (fun d => ?_)]
    · exact ⟨rfl, rfl⟩
    · by_cases hd : d = e
      · subst hd; simp
      · simpa [other d hd] using hf d hd
  · subst hl
    have he : ({ s with engines := s.engines.set e.val .free } : State).freeEngine = some e :=
      State.freeEngine_eq_some (by simp) fun d hd => by
        have hne : d ≠ e := Fin.ne_of_lt hd
        simpa [other d hne] using hf d hne
    have h1 : ({ s with engines := s.engines.set e.val .free } : State).startHead
        = { s with
            jobs := rest
            engines := s.engines.set e.val (.busy head (s.clock + (320 + 1280 * (head.mode.bits + 2)))) } := by
      unfold State.startHead
      rw [he]
      simp only [hj, Vector.set_set]
      rfl
    have hfull : ∀ d : Fin 4,
        (s.engines.set e.val (.busy head (s.clock + (320 + 1280 * (head.mode.bits + 2)))))[d.val] ≠ .free := by
      intro d
      by_cases hd : d = e
      · subst hd; simp
      · rw [other d hd]; exact hf d hd
    have h2 : ({ s with
        jobs := rest
        engines := s.engines.set e.val (.busy head (s.clock + (320 + 1280 * (head.mode.bits + 2)))) } : State).startHead
        = _ := State.startHead_of_full hfull
    simp only [State.arbitrate, h1, h2, and_self]

/-! ### Jobs -/

/-- A job is placed in key order (R126). -/
theorem joins_insertJob (j : Job) (l : List Job) : j.joins l (insertJob j l) := by
  induction l with
  | nil => exact ⟨[], [], rfl, rfl, by simp, by simp⟩
  | cons k rest ih =>
    unfold insertJob
    split
    · rename_i h; exact ⟨[], k :: rest, rfl, rfl, by simp, by simpa using h⟩
    · rename_i h
      obtain ⟨ahead, behind, hb, ha, hn, hp⟩ := ih
      refine ⟨k :: ahead, behind, by simp [hb], by simp [ha], ?_, hp⟩
      simpa [h] using hn

/-- A job placed in a queue without a job of its channel and kind leaves the others when it is taken out again. -/
theorem filter_insertJob (j : Job) (c : Chan) (k : JobKind) (hj : j.isOf c k = true) (l : List Job)
    (hl : l.any (·.isOf c k) = false) : (insertJob j l).filter (fun x => !x.isOf c k) = l := by
  induction l with
  | nil => simp [insertJob, hj]
  | cons x rest ih =>
    simp only [List.any_cons, Bool.or_eq_false_iff] at hl
    unfold insertJob
    split
    · have hr : (x :: rest).filter (fun y => !y.isOf c k) = x :: rest := by
        rw [List.filter_eq_self]
        intro y hy
        rcases List.mem_cons.mp hy with rfl | hy
        · simp [hl.1]
        · have := List.any_eq_false.mp hl.2 y hy; simpa using this
      rw [List.filter_cons_of_neg (by simp [hj]), hr]
    · rw [List.filter_cons_of_pos (by simp [hl.1]), ih hl.2]

theorem any_insertJob (j : Job) (p : Job → Bool) (hj : p j = true) (l : List Job) : (insertJob j l).any p = true := by
  induction l with
  | nil => simp [insertJob, hj]
  | cons x rest ih => unfold insertJob; split <;> simp_all

/-- The pool of an offer before its deadline (R127, R128). -/
theorem State.jobOffered_arbitrate (s : State) (j : Job) :
    s.jobOffered ({ s with jobs := insertJob j s.jobs } : State).arbitrate j := by
  refine ⟨fun e hj he hl => ?_, fun hf => ?_⟩
  · rw [State.arbitrate_single (s := { s with jobs := insertJob j s.jobs }) (j := j)
      (by simp [hj, insertJob]) he hl]
    exact ⟨rfl, rfl⟩
  · rw [State.arbitrate_of_full (s := { s with jobs := insertJob j s.jobs }) hf]
    exact ⟨rfl, joins_insertJob j s.jobs⟩

/-- An offer before the start deadline is taken (R127). -/
theorem State.offerJob_before (s : State) (j : Job) (h : s.time < j.deadline) :
    s.offerJob j = (({ s with jobs := insertJob j s.jobs } : State).arbitrate, false) := by
  have h1 : s.past j.deadline = false := by simp [State.past]; omega
  have h2 : s.reached j.deadline = false := by simp [State.reached]; omega
  simp [State.offerJob, h1, h2]

/-- An offer after the start deadline is withdrawn (R131). -/
theorem State.offerJob_after (s : State) (j : Job) (h : s.past j.deadline = true) : s.offerJob j = (s, true) := by
  simp [State.offerJob, h]

/-- An offer at the start deadline with an engine FREE beside an empty queue starts at once (R131). -/
theorem State.offerJob_now_free (s : State) (j : Job) (h : s.past j.deadline = false) (hj : s.jobs = [])
    (he : ∃ e : Fin 4, s.engines[e.val] = .free) :
    s.offerJob j = (({ s with jobs := insertJob j s.jobs } : State).arbitrate, false) := by
  obtain ⟨e, he, hl⟩ := State.exists_lowest_free he
  have ha := State.arbitrate_single (s := { s with jobs := insertJob j s.jobs }) (j := j) (by simp [hj, insertJob]) he hl
  simp only [State.offerJob, h, Bool.false_eq_true, if_false]
  rw [ha]
  simp [State.queued]

/-- An offer at the start deadline with no engine FREE is withdrawn, the queue as it was (R131). -/
theorem State.offerJob_now_full (s : State) (j : Job) (h : s.past j.deadline = false) (hr : j.deadline ≤ s.time)
    (hf : ∀ e : Fin 4, s.engines[e.val] ≠ .free) (hq : s.queued j.channel j.kind = false) : s.offerJob j = (s, true) := by
  have hk : j.isOf j.channel j.kind = true := by simp [Job.isOf]
  have ha := State.arbitrate_of_full (s := { s with jobs := insertJob j s.jobs }) hf
  have hr' : s.reached j.deadline = true := by simpa [State.reached] using hr
  simp only [State.offerJob, h, Bool.false_eq_true, if_false]
  rw [ha]
  have h2 := any_insertJob j (·.isOf j.channel j.kind) hk s.jobs
  have h3 := filter_insertJob j j.channel j.kind hk s.jobs hq
  simp [hr', State.queued, State.unqueue, h2, h3]

/-! ### The decode window -/

/-- The uplink of a context with its window in a state. -/
def Active.withWindow (a : Active) (comfort : Bool) (expected : BitVec 8) (old : Window) (w : WindowState) : Active :=
  { a with up := { a.up with stream := .running comfort expected { old with state := w } } }

theorem Active.inWindow_of_running {a : Active} {comfort : Bool} {expected : BitVec 8} {old : Window}
    (h : a.up.stream = .running comfort expected old) (w : WindowState) :
    a.inWindow w = a.withWindow comfort expected old w := by
  simp [Active.inWindow, Active.withWindow, h]

theorem State.life_setWindow {s : State} {c : Chan} {a : Active} {comfort : Bool} {expected : BitVec 8} {old : Window}
    (h : s.life c = .active a) (hs : a.up.stream = .running comfort expected old) (w : WindowState) :
    (s.setWindow c w).life c = .active (a.withWindow comfort expected old w) := by
  simp [State.setWindow, State.mapActive, h, hs, Active.withWindow]

theorem Active.withWindow_stream (a : Active) (comfort : Bool) (expected : BitVec 8) (old : Window) (w : WindowState) :
    (a.withWindow comfort expected old w).up.stream = .running comfort expected { old with state := w } := rfl

theorem Active.withWindow_withWindow (a : Active) (comfort : Bool) (expected : BitVec 8) (old : Window)
    (w w' : WindowState) :
    (a.withWindow comfort expected old w).withWindow comfort expected { old with state := w } w'
      = a.withWindow comfort expected old w' := rfl

theorem State.life_decodeMiss {s : State} {c : Chan} {a : Active} {comfort : Bool} {expected : BitVec 8} {old : Window}
    (h : s.life c = .active a) (hs : a.up.stream = .running comfort expected old) :
    (s.decodeMiss c).life c = .active (a.withWindow comfort expected old .closed) := by
  have := State.life_setWindow h hs .closed
  unfold State.decodeMiss State.warn State.count
  simp only [State.life, State.chan_mapChan_self] at *
  unfold Channel.record
  repeat' split
  all_goals simpa [Channel.setEvents, Channel.count] using this

theorem State.jobOffered_of_pool {s s1 t : State} {j : Job} (hp : s1.pool = s.pool) (h : s1.jobOffered t j) :
    s.jobOffered t j := by
  obtain ⟨he, hj⟩ := Prod.mk.inj hp
  unfold State.jobOffered at *
  rw [he, hj] at h
  exact h

theorem State.queued_of_inPool {s : State} {c : Chan} {k : JobKind} (h : s.inPool c k = false) : s.queued c k = false := by
  simp only [State.inPool, Bool.or_eq_false_iff] at h; exact h.1

/-- A DECODE offered for a window is held, offered, or withdrawn as a miss, and the window shows which (R94, R96, R131). -/
theorem State.decodeOffered_offerDecode {s : State} {c : Chan} {a : Active} {comfort : Bool} {expected : BitVec 8}
    {old : Window} (h : s.life c = .active a) (hs : a.up.stream = .running comfort expected old) (f : SpeechFrame)
    (deadline : Nat) :
    ∃ w, s.decodeOffered (s.offerDecode c f deadline) c f deadline w
      ∧ (s.offerDecode c f deadline).life c = .active (a.withWindow comfort expected old w) := by
  unfold State.offerDecode
  cases hin : s.inPool c .decode with
  | true => exact ⟨.decoding f true, ⟨fun _ => ⟨rfl, by simp⟩, by simp [hin]⟩, by simpa using State.life_setWindow h hs _⟩
  | false =>
    simp only [Bool.false_eq_true, if_false]
    let j : Job := { channel := c, deadline, work := .decode f, discard := false }
    let s1 := s.setWindow c (.decoding f false)
    have hp : s1.pool = s.pool := by simp [s1]
    have hd : s1.device = s.device := by simp [s1]
    have ht : s1.time = s.time := congrArg Device.time hd
    have hc : s1.clock = s.clock := congrArg Device.clock hd
    have hy : s1.syncClock = s.syncClock := congrArg Device.syncClock hd
    have he : s1.engines = s.engines := (Prod.mk.inj hp).1
    have hj : s1.jobs = s.jobs := (Prod.mk.inj hp).2
    have hl := State.life_setWindow h hs (.decoding f false)
    have miss : ∀ s' : State, s'.life c = .active (a.withWindow comfort expected old (.decoding f false)) →
        (s'.decodeMiss c).life c = .active (a.withWindow comfort expected old .closed) := fun s' h' =>
      State.life_decodeMiss (a := a.withWindow comfort expected old (.decoding f false))
        (old := { old with state := .decoding f false }) h' rfl
    have hmiss := miss s1 hl
    have hpast : s1.past deadline = (decide (deadline < s.time) || (decide (deadline = s.time) && decide (s.syncClock < s.clock))) := by
      unfold State.past; rw [ht, hc, hy]
    have hoff : s.jobOffered ({ s1 with jobs := insertJob j s1.jobs } : State).arbitrate j :=
      State.jobOffered_of_pool hp (State.jobOffered_arbitrate s1 j)
    have hal : (({ s1 with jobs := insertJob j s1.jobs } : State).arbitrate).life c
        = .active (a.withWindow comfort expected old (.decoding f false)) := by
      rw [State.life_arbitrate]; exact hl
    change ∃ w, s.decodeOffered (match s1.offerJob j with | (s', true) => s'.decodeMiss c | (s', false) => s') c f deadline w
      ∧ (match s1.offerJob j with | (s', true) => s'.decodeMiss c | (s', false) => s').life c = _
    by_cases hpst : s1.past deadline = true
    · rw [State.offerJob_after s1 j hpst]
      rw [hpast] at hpst
      simp only [Bool.or_eq_true, Bool.and_eq_true, decide_eq_true_eq] at hpst
      exact ⟨.closed, ⟨by simp [hin], fun _ => ⟨fun hx => by omega, fun _ => ⟨rfl, by simp [hp]⟩⟩⟩, hmiss⟩
    · have hpst' : s1.past j.deadline = false := by simpa using hpst
      rw [hpast] at hpst
      simp only [Bool.or_eq_true, Bool.and_eq_true, decide_eq_true_eq] at hpst
      by_cases hlt : s.time < deadline
      · rw [State.offerJob_before s1 j (by rw [ht]; exact hlt)]
        exact ⟨.decoding f false, ⟨by simp [hin], fun _ => ⟨fun _ => ⟨rfl, hoff⟩, fun hx => by omega⟩⟩, hal⟩
      · have heq : deadline = s.time := by omega
        by_cases hfree : ∃ e : Fin 4, s.engines[e.val] = .free
        · by_cases hnil : s.jobs = []
          · rw [State.offerJob_now_free s1 j hpst' (by rw [hj]; exact hnil) (by rw [he]; exact hfree)]
            refine ⟨.decoding f false, ⟨by simp [hin], fun _ => ⟨fun _ => ⟨rfl, hoff⟩, fun hx => ?_⟩⟩, hal⟩
            rcases hx with hx | ⟨_, hx | hx⟩
            · omega
            · omega
            · obtain ⟨e, hfe⟩ := hfree; exact absurd hfe (hx e)
          · have hvac : ∀ t w, s.decodeOffered t c f deadline w := by
              refine fun t w => ⟨by simp [hin], fun _ => ⟨fun hx => ?_, fun hx => ?_⟩⟩
              · rcases hx with hx | ⟨_, _, hx, _⟩
                · omega
                · exact absurd hx hnil
              · rcases hx with hx | ⟨_, hx | hx⟩
                · omega
                · omega
                · obtain ⟨e, hfe⟩ := hfree; exact absurd hfe (hx e)
            have hlife := State.life_offerJob s1 j c
            cases ho : s1.offerJob j with
            | mk s' b =>
              rw [ho] at hlife
              cases b with
              | true => exact ⟨.closed, hvac _ _, miss s' (hlife.trans hl)⟩
              | false => exact ⟨.decoding f false, hvac _ _, hlife.trans hl⟩
        · have hfull : ∀ e : Fin 4, s1.engines[e.val] ≠ .free := fun e hx => hfree ⟨e, by rw [← he]; exact hx⟩
          have hq : s1.queued j.channel j.kind = false := by
            show s1.jobs.any _ = false
            rw [hj]; exact State.queued_of_inPool hin
          rw [State.offerJob_now_full s1 j hpst' (by rw [ht]; exact Nat.le_of_eq heq) hfull hq]
          refine ⟨.closed, ⟨by simp [hin], fun _ => ⟨fun hx => ?_, fun _ => ⟨rfl, by simp [hp]⟩⟩⟩, hmiss⟩
          rcases hx with hx | ⟨_, _, _, hx⟩
          · omega
          · exact absurd hx hfree

/-- A frame taken by a window: a QUIET level noted, a SPEECH frame offered or DIRECT (R92, R93, R154). -/
theorem State.windowTakes_takeFrame {s : State} {c : Chan} {a : Active} {comfort : Bool} {expected : BitVec 8}
    {old : Window} (h : s.life c = .active a) (hs : a.up.stream = .running comfort expected old)
    (partner : Option Active)
    (hb : (a.partner = none ∧ partner = none) ∨ ∃ d y, a.partner = some d ∧ s.life d = .active y ∧ partner = some y)
    (f : Frame) (deadline : Nat) :
    ∃ w, s.windowTakes (s.takeFrame c f deadline) c partner f deadline w
      ∧ (s.takeFrame c f deadline).life c = .active (a.withWindow comfort expected old w) := by
  cases f with
  | quiet n level => exact ⟨.quietNoted level, ⟨rfl, by simp [State.takeFrame]⟩, State.life_setWindow h hs _⟩
  | speech g =>
    have hp : (s.life c).partner? = a.partner := by rw [h]; rfl
    simp only [State.takeFrame, hp, State.windowTakes]
    rcases hb with ⟨h0, rfl⟩ | ⟨d, y, h0, hd, rfl⟩
    · simp only [h0]; exact State.decodeOffered_offerDecode h hs g deadline
    · simp only [h0, hd, directEligible, Active.admits]
      by_cases he : g.mode.inSet y.radio.modeSet = true ∧ g.mode.code ≤ y.fixed.cap.code
      · simp only [he, decide_true, Bool.and_self, if_true, and_self, not_true, false_implies, and_true, true_implies]
        exact ⟨.direct g, ⟨rfl, by simp⟩, State.life_setWindow h hs _⟩
      · have hne : (g.mode.inSet y.radio.modeSet && decide (g.mode.code ≤ y.fixed.cap.code)) = false := by
          simpa using he
        simp only [hne, he, Bool.false_eq_true, if_false, false_implies, not_false_eq_true, true_implies, true_and]
        exact State.decodeOffered_offerDecode h hs g deadline

/-- What is said of an offer depends on the pool and the device part of the state before it alone. -/
theorem State.decodeOffered_of_eq {s s1 t : State} (hp : s1.pool = s.pool) (hd : s1.device = s.device) {c : Chan}
    {f : SpeechFrame} {deadline : Nat} {w : WindowState} (h : s1.decodeOffered t c f deadline w) :
    s.decodeOffered t c f deadline w := by
  obtain ⟨he, hj⟩ := Prod.mk.inj hp
  have ht : s1.time = s.time := congrArg Device.time hd
  have hc : s1.clock = s.clock := congrArg Device.clock hd
  have hy : s1.syncClock = s.syncClock := congrArg Device.syncClock hd
  unfold State.decodeOffered State.inPool State.queued State.running at *
  rw [he, hj, ht, hc, hy, hp] at h
  exact ⟨h.1, fun hx => ⟨fun hy => ⟨((h.2 hx).1 hy).1, State.jobOffered_of_pool hp ((h.2 hx).1 hy).2⟩, (h.2 hx).2⟩⟩

theorem State.windowTakes_of_eq {s s1 t : State} (hp : s1.pool = s.pool) (hd : s1.device = s.device) {c : Chan}
    {partner : Option Active} {f : Frame} {deadline : Nat} {w : WindowState}
    (h : s1.windowTakes t c partner f deadline w) : s.windowTakes t c partner f deadline w := by
  unfold State.windowTakes at *
  split at h
  · exact ⟨h.1, h.2.trans hp⟩
  · exact State.decodeOffered_of_eq hp hd h
  · exact ⟨fun hx => ⟨(h.1 hx).1, (h.1 hx).2.trans hp⟩, fun hx => State.decodeOffered_of_eq hp hd (h.2 hx)⟩

/-- The one queued frame of a sequence is what the window of that sequence finds, and the others stay. -/
theorem find_and_filter_unique {expected : BitVec 8} {ahead behind : List Frame} {f : Frame} (hf : f.sequence = expected)
    (hn : ∀ g ∈ ahead ++ behind, g.sequence ≠ expected) :
    (ahead ++ f :: behind).find? (fun g => decide (g.sequence = expected)) = some f
      ∧ (ahead ++ f :: behind).filter (fun g => !decide (g.sequence = expected)) = ahead ++ behind := by
  have h1 : ahead.find? (fun g => decide (g.sequence = expected)) = none := by
    rw [List.find?_eq_none]; intro g hg; simpa using hn g (List.mem_append_left _ hg)
  have h2 : ahead.filter (fun g => !decide (g.sequence = expected)) = ahead := by
    rw [List.filter_eq_self]; intro g hg; simpa using hn g (List.mem_append_left _ hg)
  have h3 : behind.filter (fun g => !decide (g.sequence = expected)) = behind := by
    rw [List.filter_eq_self]; intro g hg; simpa using hn g (List.mem_append_right _ hg)
  exact ⟨by simp [List.find?_append, h1, hf], by simp [List.filter_append, h2, h3, hf]⟩

/-- The window of an expected sequence takes the queued frame that has it, or waits (R92). -/
theorem State.windowOpens_openWindow {s : State} {c : Chan} {a : Active} (h : s.life c = .active a)
    (partner : Option Active)
    (hb : (a.partner = none ∧ partner = none)
      ∨ ∃ d y, a.partner = some d ∧ d ≠ c ∧ s.life d = .active y ∧ partner = some y)
    (up : UplinkFields) (comfort : Bool) (expected : BitVec 8) :
    ∃ rest w, s.windowOpens (s.openWindow c up comfort expected) c partner up.queue expected rest w
      ∧ (s.openWindow c up comfort expected).life c = .active { a with up := { up with
          queue := rest, stream := .running comfort expected { deadline := s.time + 152, state := w } } } := by
  let queue := up.queue.filter fun g => !decide (g.sequence = expected)
  let a1 : Active := { a with up := { up with
    queue, stream := .running comfort expected { deadline := s.time + 152, state := .waiting } } }
  let s1 := s.setUp c a1.up
  have hp : s1.pool = s.pool := by simp [s1]
  have hd : s1.device = s.device := by simp [s1]
  have h1 : s1.life c = .active a1 := by simp [s1, State.setUp, State.mapActive, h, a1]
  have hb1 : (a1.partner = none ∧ partner = none)
      ∨ ∃ d y, a1.partner = some d ∧ s1.life d = .active y ∧ partner = some y := by
    rcases hb with hb | ⟨d, y, h0, hdc, hy, hq⟩
    · exact .inl hb
    · refine .inr ⟨d, y, h0, ?_, hq⟩
      have : s1.chan d = s.chan d := State.chan_mapActive_ne s (Ne.symm hdc) _
      rw [State.life_def, this]; exact hy
  have ho : s.openWindow c up comfort expected
      = match up.queue.find? fun g => decide (g.sequence = expected) with
        | some f => s1.takeFrame c f (s.time + 152)
        | none => s1 := rfl
  rw [ho]
  cases hf : up.queue.find? fun g => decide (g.sequence = expected) with
  | none =>
    have hno : ∀ g ∈ up.queue, g.sequence ≠ expected := by
      intro g hg; have := List.find?_eq_none.mp hf g hg; simpa using this
    have hq : queue = up.queue := by
      refine List.filter_eq_self.mpr fun g hg => ?_
      simpa using hno g hg
    refine ⟨up.queue, .waiting, ⟨fun _ => ⟨rfl, rfl, hp⟩, ?_⟩, ?_⟩
    · intro ahead f behind he hfs _
      exact absurd hfs (hno f (he ▸ by simp))
    · rw [← hq]; exact h1
  | some f =>
    obtain ⟨w, hw, hl⟩ := State.windowTakes_takeFrame h1 rfl partner hb1 f (s.time + 152)
    refine ⟨queue, w, ⟨fun hno => ?_, ?_⟩, hl⟩
    · have := List.find?_some hf
      exact absurd (by simpa using this) (hno f (List.mem_of_find?_eq_some hf))
    · intro ahead g behind hq hg hn
      obtain ⟨hfi, hfl⟩ := find_and_filter_unique hg hn
      rw [hq, hfi] at hf
      cases hf
      exact ⟨by show List.filter _ up.queue = _; rw [hq]; exact hfl, State.windowTakes_of_eq hp hd hw⟩

/-! ### Applied rows -/

/-- A row's slots applied one after another write a field that one item alone writes: from the staged value where the row
holds the item, once at most, else not at all (R137, R144). -/
theorem Row.gives_foldl {σ α : Type} (r : Row) (hn : (r.slots.map (·.1)).Nodup) (apply : σ → Item × BitVec 16 → σ)
    (field : σ → α) (i : Item) (written : α → BitVec 16 → α)
    (hi : ∀ x v, field (apply x (i, v)) = written (field x) v)
    (ho : ∀ x k v, k ≠ i → field (apply x (k, v)) = field x) (x : σ) :
    r.gives i (written (field x)) (field x) (field (r.slots.foldl apply x)) := by
  have keep : ∀ (slots : List (Item × BitVec 16)) (y : σ), (∀ p ∈ slots, p.1 ≠ i) →
      field (slots.foldl apply y) = field y := by
    intro slots
    induction slots with
    | nil => intro y _; rfl
    | cons p rest ih =>
      intro y h
      rw [List.foldl_cons, ih _ fun q hq => h q (List.mem_cons_of_mem _ hq)]
      exact ho y p.1 p.2 (h p List.mem_cons_self)
  have main : ∀ (slots : List (Item × BitVec 16)) (y : σ), (slots.map (·.1)).Nodup → ∀ v, (i, v) ∈ slots →
      field (slots.foldl apply y) = written (field y) v := by
    intro slots
    induction slots with
    | nil => intro y _ v h; cases h
    | cons p rest ih =>
      intro y h v hv
      rw [List.map_cons, List.nodup_cons] at h
      rw [List.foldl_cons]
      rcases List.mem_cons.mp hv with rfl | hv
      · rw [keep rest _ fun q hq hqi => h.1 (List.mem_map.mpr ⟨q, hq, hqi⟩), hi]
      · rw [ih _ h.2 v hv, ho y p.1 p.2]
        intro hpi
        exact h.1 (List.mem_map.mpr ⟨(i, v), hv, hpi.symm⟩)
  exact ⟨main r.slots x hn, fun h => keep r.slots x fun p hp hpi => h p.2 (by rw [← hpi]; exact hp)⟩

end Sys2Proof.Machine
end

