-- ==== Sys2Proof/Laws/Orders.lean ====
section
/-! SUPPORT. What taking an order does, said once: the touch of its Line Unit, the forming of its reply, and what an order
leads to when it is addressed to the part, refused, broadcast, or meant for another node. -/

namespace Sys2Proof.Machine

/-! ### The touch of a Line Unit (R180, R193, R195) -/

theorem State.line_touch_ne (s : State) {l k : Line} (h : l ≠ k) : (s.touch l).line k = s.line k := by
  unfold State.touch; split <;> simp [State.line_mapLine, State.recordLine, h]

@[simp] theorem State.line_touch_other (s : State) (l : Line) :
    (s.touch l).line (otherLine l) = s.line (otherLine l) :=
  s.line_touch_ne (ne_otherLine l)

/-- The whole of what a touch makes of its own Line Unit. -/
theorem State.line_touch_self (s : State) (l : Line) :
    (s.touch l).line l =
      { s.line l with
        silent := false
        expiry := s.watchdogFrom (s.line l).settings.watchdogLimit
        lineEvents :=
          if (s.line l).silent = true then s.recordedSet l .watchdogExpired (s.line l).lineEvents
          else (s.line l).lineEvents } := by
  unfold State.touch
  split
  · simp only [State.line_mapLine_self, State.recordLine, LineUnit.allowsLine, State.recordedSet]
    split <;> simp_all
  · simp_all

/-! ### The reply (R177, R178) -/

/-- The whole of what a reply makes of its own Line Unit. -/
@[simp] theorem State.line_formReply_self (s : State) (l : Line) (r : Result) (ch : BitVec 7) (d : BitVec 24) :
    (s.formReply l r ch d).line l =
      { s.line l with
        orderError := false
        reply := some
          { node := (s.line l).node, previousError := (s.line l).orderError, result := r
            attention := s.attention l, channel := ch, data := d } } := by
  simp [State.formReply]

theorem State.line_formReply_ne (s : State) {l k : Line} (h : l ≠ k) (r : Result) (ch : BitVec 7) (d : BitVec 24) :
    (s.formReply l r ch d).line k = s.line k := by
  simp [State.formReply, State.line_setLine, h]

@[simp] theorem State.line_formReply_other (s : State) (l : Line) (r : Result) (ch : BitVec 7) (d : BitVec 24) :
    (s.formReply l r ch d).line (otherLine l) = s.line (otherLine l) :=
  s.line_formReply_ne (ne_otherLine l) r ch d

/-- A reply answers its order. -/
theorem State.answered_formReply (s : State) (o : Order) (r : Result) (ch : BitVec 7) (d : BitVec 24) :
    (s.formReply o.line r ch d).answered o r ch d :=
  ⟨_, by rw [State.line_formReply_self], rfl, rfl, rfl⟩

/-! ### What taking an order leaves (R181) -/

/-- A touch leaves its Line Unit as it was but for what taking any order does. -/
theorem State.sameButTaking_touch (s : State) (l : Line) : (s.line l).sameButTaking ((s.touch l).line l) := by
  rw [State.line_touch_self]; rfl

/-- Forming the reply adds nothing to what taking an order leaves of its Line Unit. -/
theorem State.sameButTaking_formReply {u : LineUnit} {s : State} {l : Line} (h : u.sameButTaking (s.line l))
    (r : Result) (ch : BitVec 7) (d : BitVec 24) : u.sameButTaking ((s.formReply l r ch d).line l) := by
  rw [State.line_formReply_self]; exact h

/-- Forming the reply keeps an order's frame. -/
theorem State.orderFrameTo_formReply {s e : State} {o : Order} {chans : List Chan} {slots : List Slot} {u : LineUnit}
    (h : s.orderFrameTo e o chans slots u) (r : Result) (ch : BitVec 7) (d : BitVec 24) :
    s.orderFrameTo (e.formReply o.line r ch d) o chans slots u := by
  obtain ⟨hd, hc, hs, hu, ho⟩ := h
  exact ⟨by simpa using hd, fun x hx => by simpa using hc x hx, fun x hx => by simpa using hs x hx,
    State.sameButTaking_formReply hu r ch d, by simpa using ho⟩

/-- A touch alone has the frame of an order that changes nothing. -/
theorem State.orderFrame_touch (s : State) (o : Order) : s.orderFrame (s.touch o.line) o [] [] :=
  ⟨by simp, fun _ _ => by simp, fun _ _ => by simp, s.sameButTaking_touch o.line, by simp; rfl⟩

theorem State.time_of_device {s t : State} (h : t.device = s.device) : t.time = s.time := congrArg Device.time h
theorem State.clock_of_device {s t : State} (h : t.device = s.device) : t.clock = s.clock := congrArg Device.clock h
theorem State.cycle_of_device {s t : State} (h : t.device = s.device) : t.cycle = s.cycle := congrArg Device.cycle h
theorem State.run_of_device {s t : State} (h : t.device = s.device) : t.run = s.run := congrArg Device.run h
theorem State.profiles_of_device {s t : State} (h : t.device = s.device) : t.profiles = s.profiles :=
  congrArg Device.profiles h
theorem State.pattern_of_device {s t : State} (h : t.device = s.device) : t.pattern = s.pattern :=
  congrArg Device.pattern h
theorem State.mask_of_device {s t : State} (h : t.device = s.device) : t.mask = s.mask := congrArg Device.mask h

@[simp] theorem State.touch_time (s : State) (l : Line) : (s.touch l).time = s.time := State.time_of_device (by simp)
@[simp] theorem State.touch_clock (s : State) (l : Line) : (s.touch l).clock = s.clock := State.clock_of_device (by simp)
@[simp] theorem State.touch_cycle (s : State) (l : Line) : (s.touch l).cycle = s.cycle := State.cycle_of_device (by simp)
@[simp] theorem State.touch_run (s : State) (l : Line) : (s.touch l).run = s.run := State.run_of_device (by simp)
@[simp] theorem State.touch_profiles (s : State) (l : Line) : (s.touch l).profiles = s.profiles :=
  State.profiles_of_device (by simp)
@[simp] theorem State.touch_pattern (s : State) (l : Line) : (s.touch l).pattern = s.pattern :=
  State.pattern_of_device (by simp)
@[simp] theorem State.touch_mask (s : State) (l : Line) : (s.touch l).mask = s.mask := State.mask_of_device (by simp)
@[simp] theorem State.touch_engines (s : State) (l : Line) : (s.touch l).engines = s.engines :=
  congrArg Prod.fst (State.pool_touch s l)
@[simp] theorem State.touch_jobs (s : State) (l : Line) : (s.touch l).jobs = s.jobs :=
  congrArg Prod.snd (State.pool_touch s l)

/-- A touch keeps every Line Unit's settings. -/
@[simp] theorem State.settings_touch (s : State) (l k : Line) : ((s.touch l).line k).settings = (s.line k).settings := by
  by_cases h : l = k
  · subst h; rw [State.line_touch_self]
  · rw [State.line_touch_ne _ h]

/-- A touch keeps every staging row. -/
@[simp] theorem State.row_touch (s : State) (l k : Line) : ((s.touch l).line k).row = (s.line k).row := by
  by_cases h : l = k
  · subst h; rw [State.line_touch_self]
  · rw [State.line_touch_ne _ h]

/-- A touch keeps every event list. -/
@[simp] theorem State.events_touch (s : State) (l k : Line) : ((s.touch l).line k).events = (s.line k).events := by
  by_cases h : l = k
  · subst h; rw [State.line_touch_self]
  · rw [State.line_touch_ne _ h]

/-- A touch keeps every item pointer. -/
@[simp] theorem State.pointer_touch (s : State) (l k : Line) :
    ((s.touch l).line k).space = (s.line k).space ∧ ((s.touch l).line k).index = (s.line k).index := by
  by_cases h : l = k
  · subst h; rw [State.line_touch_self]; exact ⟨rfl, rfl⟩
  · rw [State.line_touch_ne _ h]; exact ⟨rfl, rfl⟩

/-! ### What an order leads to (R180, R181) -/

/-- An order addressed to the part whose verb belongs to its line: the verb's own effect on the touched state, answered. -/
theorem takeOrder_addressed {o : Order} {s : State} (h : s.addressed o) (broadcast : Bool) (ch : State → BitVec 7)
    (body : State → Effect) :
    takeOrder o true broadcast ch body s
      = (body (s.touch o.line)).state.formReply o.line (body (s.touch o.line)).result (ch (s.touch o.line))
        (body (s.touch o.line)).data := by
  obtain ⟨hr, h7, hn, hb⟩ := h
  unfold takeOrder
  rw [if_neg (by simp [State.isReady, hr]), if_neg h7, if_pos hn]
  simp [carryOut, hb]

/-- An order addressed to the part whose verb belongs to the other line: NOT_OWNER. -/
theorem takeOrder_not_owned {o : Order} {s : State} (h : s.addressed o) (broadcast : Bool) (ch : State → BitVec 7)
    (body : State → Effect) :
    takeOrder o false broadcast ch body s
      = (s.touch o.line).formReply o.line .notOwner (ch (s.touch o.line)) 0 := by
  obtain ⟨hr, h7, hn, hb⟩ := h
  unfold takeOrder
  rw [if_neg (by simp [State.isReady, hr]), if_neg h7, if_pos hn]
  simp [carryOut, hb, State.refuse]

/-- A broadcast that is carried out: the verb's own effect on the touched state, with no reply. -/
theorem takeOrder_broadcast {o : Order} {s : State} (hr : s.run = .ready) (h7 : o.node = 7) (hb : o.bit7 = false)
    (ch : State → BitVec 7) (body : State → Effect) :
    takeOrder o true true ch body s
      = (body (s.touch o.line)).state.mapLine o.line fun u => { u with reply := none } := by
  simp [takeOrder, State.isReady, hr, h7, carryOut, hb]

/-- A broadcast of a verb that is not carried out: the touch alone, with no reply. -/
theorem takeOrder_broadcast_ignored {o : Order} {s : State} (hr : s.run = .ready) (h7 : o.node = 7) (owned : Bool)
    (ch : State → BitVec 7) (body : State → Effect) :
    takeOrder o owned false ch body s = (s.touch o.line).mapLine o.line fun u => { u with reply := none } := by
  simp [takeOrder, State.isReady, hr, h7]

/-- An order for another node: no reply, and nothing else. -/
theorem takeOrder_other_node {o : Order} {s : State} (hr : s.run = .ready) (h7 : o.node ≠ 7)
    (hn : o.node ≠ (s.line o.line).node) (owned broadcast : Bool) (ch : State → BitVec 7) (body : State → Effect) :
    takeOrder o owned broadcast ch body s = s.mapLine o.line fun u => { u with reply := none } := by
  unfold takeOrder
  rw [if_neg (by simp [State.isReady, hr]), if_neg h7, if_neg hn]

/-- A part that is not READY sees no order. -/
theorem takeOrder_not_ready {o : Order} {s : State} (hr : s.run ≠ .ready) (owned broadcast : Bool)
    (ch : State → BitVec 7) (body : State → Effect) : takeOrder o owned broadcast ch body s = s := by
  simp [takeOrder, State.isReady, hr]

end Sys2Proof.Machine
end

