-- ==== Sys2Proof/Machine/Ports.lean ====
section
/-! DEFINITION. The serial forms at the ports, read into the commands that they stand for and written from the state: the
highways (R48), the radio link (R64, R67) and the control lines (R176, R177). -/

namespace Sys2Proof.Machine

/-! ### Highways -/

/-- The octet that a highway's received bits of one sample time carry at a position: bits 8p to 8p + 7, most significant
bit first (R48). -/
def receivedOctet (bits : List Bool) (position : Nat) : Octet :=
  BitVec.ofNat 8 (Speech.bitsValue ((bits.drop (8 * position)).take 8))

/-- The octets received on the 128 timeslots in one sample time, from the bits that the two highways' receive data inputs
carry in it, counted from the frame sync: timeslot t at its position on its highway (R48). -/
def receivedOctets (highway0 highway1 : List Bool) : Vector Octet 128 :=
  Vector.ofFn fun t => receivedOctet (if slotHighway t = 0 then highway0 else highway1) (slotPosition t)

/-- The FRAME_SYNC that ends a sample time in which the two highways carried these bits (R48, R49). -/
def frameSyncOf (highway0 highway1 : List Bool) : Instr := .frameSync (receivedOctets highway0 highway1)

/-! ### Radio link -/

/-- The levels of transmit data and transmit record-start at the present core clock: the bit of the record being sent, two
core clocks each from its taking; both low between records, before READY (R64), and from the very core clock of a restart,
where R79 waits for the next transmit clock (both DESIGN CHOICE, unsafe: notes/assumptions/10.md). -/
def State.transmitLevels (s : State) : Bool × Bool :=
  match s.isReady, s.sending with
  | true, some (r, ends) => (recordBits r).getD ((s.clock + recordClocks r - ends) / 2) (false, false)
  | _, _ => (false, false)

/-- What the receiver holds between two receive clocks: the level of record-start at the bit before, and the bits of the
record under way, oldest first, if one is (R64, R67). -/
structure Receiver where
  started : Bool
  bits    : Option (List Bool)
  deriving DecidableEq, Repr

/-- The receiver at READY: no record under way, and no low level of record-start sampled yet, so that the first record begins
at a rise (R64; DEDUCED, unsafe for a level high at READY: notes/assumptions/13.md). Before READY its inputs are ignored. -/
def Receiver.atReady : Receiver := { started := true, bits := none }

/-- The receiver after a restart: a record being received is abandoned without a count, and the next rising record-start
is waited for (R79). -/
def Receiver.afterRestart (r : Receiver) : Receiver := { r with bits := none }

/-- Whether the whole octets of a record reach the length at which it ends of itself: its implied length, or 88 octets
(R67). -/
def recordFull (octets : List Octet) : Bool :=
  match octets with
  | [] => false
  | o0 :: _ => decide ((impliedLength o0).getD 88 ≤ octets.length)

/-- One receive clock with the sampled levels of data and record-start, and the commands it stands for. A high level after
a low one begins a record, and the record under way, which is short or has no implied length, ends at that bit; a level
held high begins no other. A bit that completes the last octet ends the record; bits of no record are discarded
(R64, R67). -/
def Receiver.clock (r : Receiver) (bit start : Bool) : Receiver × List Instr :=
  if start && !r.started then
    ({ started := start, bits := some [bit] },
      match r.bits with
      | some bits => [.recordArrival (Speech.packOctets bits), .recordStart]
      | none => [.recordStart])
  else
    match r.bits with
    | none => ({ r with started := start }, [])
    | some bits =>
      let octets := Speech.packOctets (bits ++ [bit])
      if recordFull octets then ({ started := start, bits := none }, [.recordArrival octets])
      else ({ started := start, bits := some (bits ++ [bit]) }, [])

/-- A run of receive clocks, each with the levels of data and record-start, and the commands they stand for in order
(R64). -/
def Receiver.clocks (r : Receiver) : List (Bool × Bool) → Receiver × List Instr
  | [] => (r, [])
  | (bit, start) :: rest =>
    let (r1, first) := r.clock bit start
    let (r2, more) := r1.clocks rest
    (r2, first ++ more)

/-! ### Control lines -/

/-- The command of an exchange on a line in which order-in carried these bits, one per clock while select was low: the
order of the first 48, octet 0 first and each octet most significant bit first, or EARLY_SELECT_RISE where select rises
before the 48th clock (R176, R177). -/
def exchangeCommand (l : Line) (orderIn : List Bool) : Instr :=
  match decodeOrder l (Speech.packOctets (orderIn.take 48)) with
  | some i => i
  | none => .earlySelectRise l

/-- The EXTRA_CLOCK of an exchange with this many clocks while select was low: the 97th sets the flag once, clocks after it
are ignored (R176, R177). -/
def exchangeExtra (l : Line) (clocks : Nat) : List Instr := if 97 ≤ clocks then [.extraClock l] else []

/-- The 48 bits of a reply, in the order of the order's: octet 0 first, each octet most significant bit first (R176). -/
def Reply.bits (r : Reply) : List Bool := Speech.octetsBits r.octets

/-- What a part puts on reply-out at a clock of the latest exchange, numbered from 1: the reply's bits at clocks 49 to 96;
`none`, reply-out released, at every other clock and where no reply was formed (R176). -/
def LineUnit.replyOut (u : LineUnit) (clock : Nat) : Option Bool :=
  match u.reply with
  | some r => if 49 ≤ clock then r.bits[clock - 49]? else none
  | none => none

end Sys2Proof.Machine
end

