-- ==== Sys2Proof/Laws/Ports.lean ====
section
/-! SUPPORT. What the serial forms at the ports read back: octets from their bits, timeslots from a highway, an order from an
exchange, and what one receive clock can do. -/

namespace Sys2Proof.Machine

/-! ### Octets and their bits -/

@[simp] theorem length_octetBits (o : Octet) : (Speech.octetBits o).length = 8 := by simp [Speech.octetBits]

/-- An octet is read back from its bits, most significant first. -/
@[simp] theorem ofNat_bitsValue_octetBits (o : Octet) : BitVec.ofNat 8 (Speech.bitsValue (Speech.octetBits o)) = o := by
  revert o; decide +kernel

/-- Octets are read back from their bits, with bits short of an octet left over. -/
theorem packOctets_octetsBits_append (os : List Octet) {rest : List Bool} (h : rest.length < 8) :
    Speech.packOctets (Speech.octetsBits os ++ rest) = os := by
  induction os with
  | nil =>
    match rest, h with
    | [], _ | [_], _ | [_, _], _ | [_, _, _], _ | [_, _, _, _], _ | [_, _, _, _, _], _ | [_, _, _, _, _, _], _
    | [_, _, _, _, _, _, _], _ => rfl
  | cons o os ih =>
    have ho := ofNat_bitsValue_octetBits o
    simp only [Speech.octetsBits, List.flatMap_cons, List.append_assoc] at *
    rw [show Speech.octetBits o = [o.getMsbD 0, o.getMsbD 1, o.getMsbD 2, o.getMsbD 3, o.getMsbD 4, o.getMsbD 5,
      o.getMsbD 6, o.getMsbD 7] from rfl] at *
    simp only [List.cons_append, List.nil_append, Speech.packOctets, ih, ho]

@[simp] theorem packOctets_octetsBits (os : List Octet) : Speech.packOctets (Speech.octetsBits os) = os := by
  simpa using packOctets_octetsBits_append os (rest := []) (by decide)

@[simp] theorem length_octetsBits (os : List Octet) : (Speech.octetsBits os).length = 8 * os.length := by
  induction os with
  | nil => rfl
  | cons o os ih => simp [Speech.octetsBits] at *; omega

/-! ### Highways -/

/-- The octet at a position of a run of octets' bits. -/
theorem receivedOctet_octetsBits (os : List Octet) (p : Nat) (h : p < os.length) :
    receivedOctet (Speech.octetsBits os) p = os[p] := by
  induction os generalizing p with
  | nil => cases h
  | cons o os ih =>
    cases p with
    | zero =>
      simp only [receivedOctet, Speech.octetsBits, List.flatMap_cons, Nat.mul_zero, List.drop_zero, List.getElem_cons_zero]
      rw [List.take_append_of_le_length (by simp), List.take_of_length_le (by simp), ofNat_bitsValue_octetBits]
    | succ p =>
      rw [List.getElem_cons_succ, ← ih p (Nat.lt_of_succ_lt_succ h)]
      simp only [receivedOctet, Speech.octetsBits, List.flatMap_cons]
      rw [show 8 * (p + 1) = (Speech.octetBits o).length + 8 * p by simp; omega, List.drop_append,
        List.drop_of_length_le (by omega)]
      simp

/-- The bits of a highway are those of its timeslots' octets in order of position. -/
theorem highwayBits_eq (s : State) (highway : Fin 2) :
    s.highwayBits highway = Speech.octetsBits
      (((List.finRange 128).filter fun t => decide (slotHighway t = highway.val)).map fun t => (s.slot t).out) := by
  simp [State.highwayBits, Speech.octetsBits, List.flatMap_map]

/-- What one part sends on its highways, another reads back timeslot by timeslot (R48). -/
theorem receivedOctets_highwayBits (s : State) (t : Slot) :
    (receivedOctets (s.highwayBits 0) (s.highwayBits 1))[t.val] = (s.slot t).out := by
  have hw : ∀ (h : Fin 2) (x : Slot), slotHighway x = h.val →
      ((List.finRange 128).filter fun y => decide (slotHighway y = h.val))[slotPosition x]? = some x := by decide +kernel
  have key : ∀ h : Fin 2, slotHighway t = h.val →
      receivedOctet (s.highwayBits h) (slotPosition t) = (s.slot t).out := by
    intro h ht
    obtain ⟨hl, he⟩ := List.getElem?_eq_some_iff.mp (hw h t ht)
    rw [highwayBits_eq, receivedOctet_octetsBits _ _ (by simpa using hl), List.getElem_map, he]
  simp only [receivedOctets, Vector.getElem_ofFn]
  by_cases h : slotHighway t = 0
  · simpa [h] using key 0 h
  · have h1 : slotHighway t = 1 := by unfold slotHighway at *; omega
    simpa [h] using key 1 h1

/-! ### Exchanges -/

/-- An exchange of six octets and whatever clocks follow is the order they spell (R176). -/
theorem exchangeCommand_octetsBits (l : Line) (octets : List Octet) (more : List Bool) (i : Instr)
    (hlen : octets.length = 6) (h : decodeOrder l octets = some i) :
    exchangeCommand l (Speech.octetsBits octets ++ more) = i := by
  have ht : (Speech.octetsBits octets ++ more).take 48 = Speech.octetsBits octets := by
    rw [List.take_append_of_le_length (by simp [hlen]), List.take_of_length_le (by simp [hlen])]
  simp [exchangeCommand, ht, h]

/-! ### The receiver -/

/-- All that one receive clock can do: begin a record, ending the one under way; discard a bit of no record; end a record
with the bit; or add the bit to it. -/
theorem Receiver.clock_cases {r r' : Receiver} {bit start : Bool} {commands : List Instr}
    (h : r.clock bit start = (r', commands)) :
    r'.started = start
      ∧ ((start = true ∧ r.started = false ∧ r'.bits = some [bit]
          ∧ commands = (r.bits.map fun bits => Instr.recordArrival (Speech.packOctets bits)).toList ++ [.recordStart])
        ∨ (¬(start = true ∧ r.started = false) ∧ r.bits = none ∧ r'.bits = none ∧ commands = [])
        ∨ (¬(start = true ∧ r.started = false) ∧ ∃ bits, r.bits = some bits
          ∧ ((recordFull (Speech.packOctets (bits ++ [bit])) = true ∧ r'.bits = none
              ∧ commands = [.recordArrival (Speech.packOctets (bits ++ [bit]))])
            ∨ (recordFull (Speech.packOctets (bits ++ [bit])) = false ∧ r'.bits = some (bits ++ [bit])
              ∧ commands = [])))) := by
  unfold Receiver.clock at h
  split at h
  · rename_i hs
    simp only [Bool.and_eq_true, Bool.not_eq_true'] at hs
    cases h
    refine ⟨rfl, .inl ⟨hs.1, hs.2, rfl, ?_⟩⟩
    cases r.bits <;> rfl
  · rename_i hs
    simp only [Bool.and_eq_true, Bool.not_eq_true'] at hs
    split at h
    · rename_i hb; cases h; exact ⟨rfl, .inr (.inl ⟨hs, hb, hb, rfl⟩)⟩
    · rename_i bits hb
      dsimp only at h
      split at h
      · rename_i hf; cases h; exact ⟨rfl, .inr (.inr ⟨hs, bits, hb, .inl ⟨hf, rfl, rfl⟩⟩)⟩
      · rename_i hf; cases h; exact ⟨rfl, .inr (.inr ⟨hs, bits, hb, .inr ⟨by simpa using hf, rfl, rfl⟩⟩)⟩

end Sys2Proof.Machine
end

