-- ==== Sys2Proof/Laws/Rows.lean ====
section
/-! SUPPORT. What the apply of the rows PENDING on an ACTIVE channel does, said once: the context, the timeslots, the rows
and the event records as State.rowsApplied and State.appliedFor state them. -/

namespace Sys2Proof.Machine

/-! ### The items on a half -/

/-- What one item of an F row makes of a fixed half at a point: a gain, the threshold, or the timeslot with its octets. -/
def FixedHalf.item (f : FixedHalf) (p : Item × BitVec 16) : FixedHalf :=
  match p.1 with
  | .timeslot =>
    if f.timeslot = Fin.ofNat 128 p.2.toNat then f
    else { f with timeslot := Fin.ofNat 128 p.2.toNat, feed := Fin.ofNat 128 p.2.toNat }
  | .gainToFixed => { f with gainToFixed := p.2.toNat }
  | .gainToRadio => { f with gainToRadio := p.2.toNat }
  | .quietThreshold => { f with quietThreshold := p.2.toNat }
  | _ => f

/-- What one item of an R row makes of a radio half. -/
def RadioHalf.item (r : RadioHalf) (p : Item × BitVec 16) : RadioHalf :=
  match p.1 with
  | .mode => { r with requested := (Mode.ofCode p.2.toNat).getD r.requested }
  | .modeSet => { r with modeSet := p.2.setWidth 3 }
  | .align => { r with offset := p.2.toInt }
  | .dtx => { r with dtx := decide (p.2 ≠ 0) }
  | _ => r

theorem FixedHalf.foldl_item_rest (l : List (Item × BitVec 16)) (f : FixedHalf) :
    l.foldl FixedHalf.item f =
      { f with
        gainToFixed := (l.foldl FixedHalf.item f).gainToFixed, gainToRadio := (l.foldl FixedHalf.item f).gainToRadio
        quietThreshold := (l.foldl FixedHalf.item f).quietThreshold, timeslot := (l.foldl FixedHalf.item f).timeslot
        feed := (l.foldl FixedHalf.item f).feed } := by
  induction l generalizing f with
  | nil => rfl
  | cons p l ih =>
    rw [List.foldl_cons, ih (f.item p)]
    obtain ⟨i, v⟩ := p
    cases i <;> simp only [FixedHalf.item]
    split <;> rfl

theorem FixedHalf.foldl_item_timeslot (l : List (Item × BitVec 16)) (f : FixedHalf) (h : ∀ p ∈ l, p.1 ≠ .timeslot) :
    (l.foldl FixedHalf.item f).timeslot = f.timeslot ∧ (l.foldl FixedHalf.item f).feed = f.feed := by
  induction l generalizing f with
  | nil => exact ⟨rfl, rfl⟩
  | cons p l ih =>
    rw [List.foldl_cons]
    obtain ⟨h1, h2⟩ := ih (f.item p) fun q hq => h q (List.mem_cons_of_mem _ hq)
    rw [h1, h2]
    obtain ⟨i, v⟩ := p
    cases i <;> first | exact ⟨rfl, rfl⟩ | exact absurd rfl (h _ List.mem_cons_self)

theorem RadioHalf.foldl_item_active (l : List (Item × BitVec 16)) (r : RadioHalf) :
    (l.foldl RadioHalf.item r).active = r.active := by
  induction l generalizing r with
  | nil => rfl
  | cons p l ih =>
    rw [List.foldl_cons, ih]
    obtain ⟨i, v⟩ := p
    cases i <;> rfl

/-- An F row folded over a fixed half sets it (R144, R146). -/
theorem Row.setsFixed_foldl (r : Row) (hn : (r.slots.map (·.1)).Nodup) (f : FixedHalf) :
    r.setsFixed f (r.slots.foldl FixedHalf.item f) := by
  refine ⟨FixedHalf.foldl_item_rest _ _, ?_, ?_, ?_⟩
  · refine Row.gives_foldl r hn FixedHalf.item (·.gainToFixed) .gainToFixed (fun _ v => v.toNat) (fun _ _ => rfl) ?_ f
    rintro x k v hk
    cases k <;> simp only [FixedHalf.item] <;> first | rfl | exact absurd rfl hk | (split <;> rfl)
  · refine Row.gives_foldl r hn FixedHalf.item (·.gainToRadio) .gainToRadio (fun _ v => v.toNat) (fun _ _ => rfl) ?_ f
    rintro x k v hk
    cases k <;> simp only [FixedHalf.item] <;> first | rfl | exact absurd rfl hk | (split <;> rfl)
  · refine Row.gives_foldl r hn FixedHalf.item (·.quietThreshold) .quietThreshold (fun _ v => v.toNat) (fun _ _ => rfl) ?_ f
    rintro x k v hk
    cases k <;> simp only [FixedHalf.item] <;> first | rfl | exact absurd rfl hk | (split <;> rfl)

theorem Row.changesMode_iff (r : Row) :
    r.changesMode = true ↔ ∃ v, (Item.mode, v) ∈ r.slots ∨ (Item.modeSet, v) ∈ r.slots := by
  simp only [Row.changesMode, List.any_eq_true, Bool.or_eq_true, decide_eq_true_eq]
  constructor
  · rintro ⟨⟨i, v⟩, hm, rfl | rfl⟩
    · exact ⟨v, .inl hm⟩
    · exact ⟨v, .inr hm⟩
  · rintro ⟨v, hm | hm⟩
    · exact ⟨_, hm, .inl rfl⟩
    · exact ⟨_, hm, .inr rfl⟩

/-- An R row folded over a radio half, with the active mode derived afresh where MODE or MODE_SET was among its items, sets
it (R5, R144, R147, R148). -/
theorem Row.setsRadio_foldl (r : Row) (hn : (r.slots.map (·.1)).Nodup) (cap : Mode) (h : RadioHalf) :
    r.setsRadio cap h
      (if r.changesMode = true then (r.slots.foldl RadioHalf.item h).derived cap else r.slots.foldl RadioHalf.item h) := by
  have parts : ∀ new : RadioHalf, (new = (r.slots.foldl RadioHalf.item h).derived cap
        ∨ new = r.slots.foldl RadioHalf.item h) →
      r.gives .mode (fun v => (Mode.ofCode v.toNat).getD h.requested) h.requested new.requested
        ∧ r.gives .modeSet (fun v => v.setWidth 3) h.modeSet new.modeSet
        ∧ r.gives .align BitVec.toInt h.offset new.offset
        ∧ r.gives .dtx (fun v => decide (v ≠ 0)) h.dtx new.dtx := by
    intro new hnew
    have e : new.requested = (r.slots.foldl RadioHalf.item h).requested
        ∧ new.modeSet = (r.slots.foldl RadioHalf.item h).modeSet
        ∧ new.offset = (r.slots.foldl RadioHalf.item h).offset
        ∧ new.dtx = (r.slots.foldl RadioHalf.item h).dtx := by
      rcases hnew with rfl | rfl <;> exact ⟨rfl, rfl, rfl, rfl⟩
    rw [e.1, e.2.1, e.2.2.1, e.2.2.2]
    refine ⟨?_, ?_, ?_, ?_⟩
    · refine Row.gives_foldl r hn RadioHalf.item (·.requested) .mode (fun old v => (Mode.ofCode v.toNat).getD old)
        (fun _ _ => rfl) ?_ h
      rintro x k v hk
      cases k <;> first | rfl | exact absurd rfl hk
    · refine Row.gives_foldl r hn RadioHalf.item (·.modeSet) .modeSet (fun _ v => v.setWidth 3) (fun _ _ => rfl) ?_ h
      rintro x k v hk
      cases k <;> first | rfl | exact absurd rfl hk
    · refine Row.gives_foldl r hn RadioHalf.item (·.offset) .align (fun _ v => v.toInt) (fun _ _ => rfl) ?_ h
      rintro x k v hk
      cases k <;> first | rfl | exact absurd rfl hk
    · refine Row.gives_foldl r hn RadioHalf.item (·.dtx) .dtx (fun _ v => decide (v ≠ 0)) (fun _ _ => rfl) ?_ h
      rintro x k v hk
      cases k <;> first | rfl | exact absurd rfl hk
  by_cases hc : r.changesMode = true
  · rw [if_pos hc]
    obtain ⟨p1, p2, p3, p4⟩ := parts _ (.inl rfl)
    refine ⟨p1, p2, p3, p4, fun _ => rfl, fun hno => ?_⟩
    obtain ⟨v, hv | hv⟩ := (Row.changesMode_iff r).mp hc
    · exact absurd hv (hno v).1
    · exact absurd hv (hno v).2
  · rw [if_neg hc]
    obtain ⟨p1, p2, p3, p4⟩ := parts _ (.inr rfl)
    exact ⟨p1, p2, p3, p4, fun h => absurd ((Row.changesMode_iff r).mpr h) hc, fun _ => RadioHalf.foldl_item_active _ _⟩

/-! ### The slots of a row on the state -/

/-- One item of an F row at a point, on the contexts: the fixed half of the channel takes it. -/
theorem State.chan_applySlot_F (s : State) {c : Chan} {b : Active} (h : s.life c = .active b) (p : Item × BitVec 16)
    (hp : p.1.line = .F) (d : Chan) :
    (State.applySlot c true s p).chan d =
      if c = d then { s.chan d with life := .active { b with fixed := b.fixed.item p } } else s.chan d := by
  obtain ⟨i, v⟩ := p
  have hc : (s.chan c).life = .active b := h
  have hf : (s.life c).fixed? = some b.fixed := by rw [h]; rfl
  by_cases hd : c = d
  · subst hd
    rw [if_pos rfl]
    cases i <;> first
      | (simp [Item.line] at hp; done)
      | (simp only [State.applySlot, State.chan_mapChan_self, hc, Life.applyItem, Life.mapFixed, FixedHalf.item]; done)
      | skip
    simp only [State.applySlot, FixedHalf.item]
    by_cases hx : b.fixed.timeslot = Fin.ofNat 128 v.toNat
    · rw [if_pos hx, ← hx, State.moveTimeslot_own s c true b.fixed hf, ← hc]
    · rw [if_neg hx, State.chan_moveTimeslot s c c true b.fixed _ hf hx, if_pos rfl, h]
      rfl
  · rw [if_neg hd]
    cases i <;> first
      | (simp [Item.line] at hp; done)
      | (simp only [State.applySlot, State.chan_mapChan_ne s hd]; done)
      | skip
    simp only [State.applySlot]
    by_cases hx : b.fixed.timeslot = Fin.ofNat 128 v.toNat
    · rw [← hx, State.moveTimeslot_own s c true b.fixed hf]
    · rw [State.chan_moveTimeslot s c d true b.fixed _ hf hx, if_neg hd]

/-- The items of an F row at a point, on the contexts. -/
theorem State.chan_foldl_applySlot_F {c : Chan} (l : List (Item × BitVec 16)) (hl : ∀ p ∈ l, p.1.line = .F) (s : State)
    {b : Active} (h : s.life c = .active b) (d : Chan) :
    (l.foldl (State.applySlot c true) s).chan d =
      if c = d then { s.chan d with life := .active { b with fixed := l.foldl FixedHalf.item b.fixed } } else s.chan d := by
  induction l generalizing s b with
  | nil =>
    split
    · next hd =>
      subst hd
      show s.chan c = { s.chan c with life := .active b }
      rw [← show (s.chan c).life = .active b from h]
    · rfl
  | cons p l ih =>
    have h1 := State.chan_applySlot_F s h p (hl p List.mem_cons_self)
    have h2 : (State.applySlot c true s p).life c = .active { b with fixed := b.fixed.item p } := by
      rw [State.life_def, h1, if_pos rfl]
    rw [List.foldl_cons, ih (fun q hq => hl q (List.mem_cons_of_mem _ hq)) _ h2, h1]
    split <;> rfl

/-- The items of an F row other than TIMESLOT leave every timeslot alone. -/
theorem State.slot_foldl_applySlot {c : Chan} {pt : Bool} (l : List (Item × BitVec 16)) (h : ∀ p ∈ l, p.1 ≠ .timeslot)
    (s : State) (x : Slot) : (l.foldl (State.applySlot c pt) s).slot x = s.slot x := by
  induction l generalizing s with
  | nil => rfl
  | cons p l ih =>
    rw [List.foldl_cons, ih fun q hq => h q (List.mem_cons_of_mem _ hq)]
    obtain ⟨i, v⟩ := p
    cases i <;> first | (simp [State.applySlot]; done) | exact absurd rfl (h _ List.mem_cons_self)

/-- The items of an R row, on the contexts. -/
theorem State.chan_foldl_applySlot_R {c : Chan} {pt : Bool} (l : List (Item × BitVec 16)) (hl : ∀ p ∈ l, p.1.line = .R)
    (s : State) {b : Active} (h : s.life c = .active b) (d : Chan) :
    (l.foldl (State.applySlot c pt) s).chan d =
      if c = d then { s.chan d with life := .active { b with radio := l.foldl RadioHalf.item b.radio } } else s.chan d := by
  induction l generalizing s b with
  | nil =>
    split
    · next hd =>
      subst hd
      show s.chan c = { s.chan c with life := .active b }
      rw [← show (s.chan c).life = .active b from h]
    · rfl
  | cons p l ih =>
    have hc : (s.chan c).life = .active b := h
    have h1 : ∀ d, (State.applySlot c pt s p).chan d =
        if c = d then { s.chan d with life := .active { b with radio := b.radio.item p } } else s.chan d := by
      intro d
      obtain ⟨i, v⟩ := p
      have := hl _ List.mem_cons_self
      by_cases hd : c = d
      · subst hd
        cases i <;> first
          | (simp [Item.line] at this; done)
          | (simp only [State.applySlot, State.chan_mapChan_self, hc, Life.applyItem, Life.mapRadio, RadioHalf.item,
              if_pos])
      · cases i <;> first
          | (simp [Item.line] at this; done)
          | (simp only [State.applySlot, State.chan_mapChan_ne s hd, if_neg hd])
    have h2 : (State.applySlot c pt s p).life c = .active { b with radio := b.radio.item p } := by
      rw [State.life_def, h1, if_pos rfl]
    rw [List.foldl_cons, ih (fun q hq => hl q (List.mem_cons_of_mem _ hq)) _ h2, h1]
    split <;> rfl

/-- The timeslots after the items of an F row that holds one TIMESLOT, at a point: as R54 states. -/
theorem State.slot_foldl_applySlot_timeslot {c : Chan} (l : List (Item × BitVec 16)) (hl : ∀ p ∈ l, p.1.line = .F)
    (hn : (l.map (·.1)).Nodup) (s : State) {b : Active} (h : s.life c = .active b) {v : BitVec 16}
    (hv : (Item.timeslot, v) ∈ l) (x : Slot) (hx : x.val = v.toNat) :
    (l.foldl FixedHalf.item b.fixed).timeslot = x
      ∧ (x = b.fixed.timeslot → (l.foldl FixedHalf.item b.fixed).feed = b.fixed.feed
        ∧ ∀ y, (l.foldl (State.applySlot c true) s).slot y = s.slot y)
      ∧ (x ≠ b.fixed.timeslot → (l.foldl FixedHalf.item b.fixed).feed = x
        ∧ ∀ y, (l.foldl (State.applySlot c true) s).slot y =
          if y = x then { s.slot b.fixed.timeslot with entry := .bound c }
          else if y = b.fixed.timeslot then { entry := .free, source := .idle, out := 0 } else s.slot y) := by
  obtain ⟨pre, post, rfl⟩ := List.append_of_mem hv
  have hvx : (Fin.ofNat 128 v.toNat : Slot) = x := by
    apply Fin.ext; simp [Fin.ofNat, ← hx, Nat.mod_eq_of_lt x.isLt]
  rw [List.map_append, List.map_cons, List.nodup_append] at hn
  have hpre : ∀ p ∈ pre, p.1 ≠ .timeslot := fun p hp hpt =>
    hn.2.2 p.1 (List.mem_map_of_mem hp) .timeslot List.mem_cons_self hpt
  have hpost : ∀ p ∈ post, p.1 ≠ .timeslot := fun p hp hpt =>
    (List.nodup_cons.mp hn.2.1).1 (List.mem_map.mpr ⟨p, hp, hpt⟩)
  have hb : (pre.foldl (State.applySlot c true) s).life c
      = .active { b with fixed := pre.foldl FixedHalf.item b.fixed } := by
    rw [State.life_def, State.chan_foldl_applySlot_F pre (fun p hp => hl p (List.mem_append_left _ hp)) s h, if_pos rfl]
  have hf : ((pre.foldl (State.applySlot c true) s).life c).fixed? = some (pre.foldl FixedHalf.item b.fixed) := by
    rw [hb]; rfl
  obtain ⟨t1, t2⟩ := FixedHalf.foldl_item_timeslot pre b.fixed hpre
  have hs := State.slot_foldl_applySlot (c := c) (pt := true) pre hpre s
  simp only [List.foldl_append, List.foldl_cons]
  rw [(FixedHalf.foldl_item_timeslot post _ hpost).1, (FixedHalf.foldl_item_timeslot post _ hpost).2]
  have hps := fun s' => State.slot_foldl_applySlot (c := c) (pt := true) post hpost s'
  simp only [hps]
  have ha : State.applySlot c true (pre.foldl (State.applySlot c true) s) (Item.timeslot, v)
      = (pre.foldl (State.applySlot c true) s).moveTimeslot c true x := by
    simp only [State.applySlot, hvx]
  rw [ha]
  by_cases hxo : x = b.fixed.timeslot
  · have hi : (pre.foldl FixedHalf.item b.fixed).item (Item.timeslot, v) = pre.foldl FixedHalf.item b.fixed := by
      simp only [FixedHalf.item, hvx]; rw [if_pos (t1.trans hxo.symm)]
    rw [hi]
    refine ⟨t1.trans hxo.symm, fun _ => ⟨t2, fun y => ?_⟩, fun hne => absurd hxo hne⟩
    have : x = (pre.foldl FixedHalf.item b.fixed).timeslot := hxo.trans t1.symm
    rw [this, State.moveTimeslot_own _ c true _ hf, hs]
  · have hne : (pre.foldl FixedHalf.item b.fixed).timeslot ≠ x := fun e => hxo (e.symm.trans t1)
    have hi : (pre.foldl FixedHalf.item b.fixed).item (Item.timeslot, v)
        = { pre.foldl FixedHalf.item b.fixed with timeslot := x, feed := x } := by
      simp only [FixedHalf.item, hvx]; rw [if_neg hne]
    rw [hi]
    refine ⟨rfl, fun e => absurd e hxo, fun _ => ⟨rfl, fun y => ?_⟩⟩
    rw [State.slot_moveTimeslot _ c true _ x y hf hne, t1]
    simp only [hs, if_true]

/-! ### Both rows -/

theorem State.record_events (s : State) (l : Line) (k : Kind) (ch : Channel) :
    ch.record (s.line l) l k 0 = ch.setEvents l (s.recordedFor l k (ch.events l)) := by
  unfold Channel.record State.recordedFor LineUnit.allows
  split
  · simp [EventRecord.add]
  · cases l <;> rfl

theorem State.pendingOn_iff (s : State) (l : Line) (c : Chan) :
    s.pendingOn l c = true ↔ (s.line l).row.pending = true ∧ (s.line l).row.latched = some c := by
  simp [State.pendingOn]

/-- The F row PENDING on an ACTIVE channel applied at a point. -/
theorem State.applyPending_F {s : State} (hr : s.rowsOk) {d : Chan} {b : Active} (h : s.life d = .active b) :
    ∃ f, (s.applyPending .F d true).chan d
        = { s.chan d with life := .active { b with fixed := f }, eventsF := s.appliedFor .F d }
      ∧ s.sameChannels (s.applyPending .F d true) [d]
      ∧ (s.applyPending .F d true).lineR = s.lineR
      ∧ (s.applyPending .F d true).lineF = { s.lineF with
          row :=
            if s.pendingOn .F d = true then { latched := none, slots := [], pending := false } else s.lineF.row }
      ∧ (s.pendingOn .F d = false → f = b.fixed ∧ s.sameSlots (s.applyPending .F d true) [])
      ∧ (s.pendingOn .F d = true → s.lineF.row.setsFixed b.fixed f
        ∧ ((∀ v, (Item.timeslot, v) ∉ s.lineF.row.slots) → f.timeslot = b.fixed.timeslot ∧ f.feed = b.fixed.feed
          ∧ s.sameSlots (s.applyPending .F d true) [])
        ∧ ∀ v (x : Slot), (Item.timeslot, v) ∈ s.lineF.row.slots → x.val = v.toNat →
          f.timeslot = x ∧ s.sameSlots (s.applyPending .F d true) [x, b.fixed.timeslot]
            ∧ (x = b.fixed.timeslot → (s.applyPending .F d true).slot x = s.slot x ∧ f.feed = b.fixed.feed)
            ∧ (x ≠ b.fixed.timeslot → f.feed = x
              ∧ (s.applyPending .F d true).slot x = { s.slot b.fixed.timeslot with entry := .bound d }
              ∧ (s.applyPending .F d true).slot b.fixed.timeslot
                = { entry := .free, source := .idle, out := 0 })) := by
  have hc : (s.chan d).life = .active b := h
  by_cases hp : s.pendingOn .F d = true
  · obtain ⟨hpend, hlat⟩ := (s.pendingOn_iff .F d).mp hp
    obtain ⟨hrow, -⟩ := hr .F
    unfold Row.ok at hrow
    rw [hlat] at hrow
    obtain ⟨-, hnd, hline⟩ := hrow
    have hlat' : s.lineF.row.latched = some d := hlat
    have hnd' : (s.lineF.row.slots.map (·.1)).Nodup := hnd
    have hline' : ∀ p ∈ s.lineF.row.slots, p.1.line = .F := hline
    have hcm : s.lineF.row.changesMode = false := by
      rw [Bool.eq_false_iff]
      intro hm
      obtain ⟨v, hv | hv⟩ := (Row.changesMode_iff _).mp hm
      · exact nomatch hline' _ hv
      · exact nomatch hline' _ hv
    have ht : s.applyPending .F d true
        = ((s.lineF.row.slots.foldl (State.applySlot d true) s).record d .F .commitApplied).mapLine .F
          fun u => { u with row := .empty } := by
      simp only [State.applyPending, hp, if_true, State.applyRow, State.line, hlat', hcm]
      rfl
    have hch := State.chan_foldl_applySlot_F s.lineF.row.slots hline' s h
    have hln : ∀ k, (s.lineF.row.slots.foldl (State.applySlot d true) s).line k = s.line k := fun k =>
      foldl_keeps (fun s : State => s.line k) _ (fun s i => State.line_applySlot s d true i k) _ s
    have hsl : ∀ x, (s.applyPending .F d true).slot x = (s.lineF.row.slots.foldl (State.applySlot d true) s).slot x := by
      intro x; rw [ht]; simp
    refine ⟨s.lineF.row.slots.foldl FixedHalf.item b.fixed, ?_, ?_, ?_, ?_, ?_, ?_⟩
    · rw [ht, State.chan_mapLine, State.record, State.chan_mapChan_self, hch, if_pos rfl, State.record_events _ .F]
      simp only [Channel.setEvents, Channel.events, State.recordedFor, hln, State.appliedFor, hp, if_true]
    · intro k hk
      rw [List.mem_singleton] at hk
      rw [ht, State.chan_mapLine, State.record, State.chan_mapChan_ne _ (Ne.symm hk), hch, if_neg (Ne.symm hk)]
    · have : (s.applyPending .F d true).line .R = s.line .R := by
        rw [ht, State.line_mapLine, if_neg (by decide), State.line_record, hln]
      exact this
    · have := State.line_mapLine_self ((s.lineF.row.slots.foldl (State.applySlot d true) s).record d .F .commitApplied) .F
        fun u => { u with row := .empty }
      rw [← ht] at this
      rw [if_pos hp]
      rw [State.line_record, hln] at this
      exact this
    · intro hq; rw [hp] at hq; cases hq
    · intro _
      refine ⟨Row.setsFixed_foldl _ hnd' _, fun hno => ?_, fun v x hv hx => ?_⟩
      · have hnt : ∀ p ∈ s.lineF.row.slots, p.1 ≠ .timeslot := fun p hpm hpt => hno p.2 (by rw [← hpt]; exact hpm)
        obtain ⟨t1, t2⟩ := FixedHalf.foldl_item_timeslot _ b.fixed hnt
        exact ⟨t1, t2, fun x _ => by rw [hsl, State.slot_foldl_applySlot _ hnt]⟩
      · obtain ⟨e, eo, en⟩ := State.slot_foldl_applySlot_timeslot _ hline' hnd' s h hv x hx
        refine ⟨e, fun y hy => ?_, fun hxo => ⟨?_, (eo hxo).1⟩, fun hxo => ⟨(en hxo).1, ?_, ?_⟩⟩
        · simp only [List.mem_cons, List.not_mem_nil, or_false, not_or] at hy
          rw [hsl]
          by_cases hxo : x = b.fixed.timeslot
          · exact (eo hxo).2 y
          · rw [(en hxo).2, if_neg hy.1, if_neg hy.2]
        · rw [hsl]; exact (eo hxo).2 x
        · rw [hsl, (en hxo).2, if_pos rfl]
        · rw [hsl, (en hxo).2, if_neg (Ne.symm hxo), if_pos rfl]
  · have hp' : s.pendingOn .F d = false := by simpa using hp
    have ht : s.applyPending .F d true = s := by simp [State.applyPending, hp']
    rw [ht]
    refine ⟨b.fixed, ?_, fun _ _ => rfl, rfl, ?_, fun _ => ⟨rfl, fun _ _ => rfl⟩, fun h => absurd h hp⟩
    · simp only [State.appliedFor, hp', Channel.events]
      rw [← hc]; rfl
    · rw [if_neg hp]

/-- The R row PENDING on an ACTIVE channel applied at a point. -/
theorem State.applyPending_R {s : State} (hr : s.rowsOk) {d : Chan} {b : Active} (h : s.life d = .active b) :
    ∃ r, (s.applyPending .R d true).chan d
        = { s.chan d with life := .active { b with radio := r }, eventsR := s.appliedFor .R d }
      ∧ s.sameChannels (s.applyPending .R d true) [d]
      ∧ (s.applyPending .R d true).lineF = s.lineF
      ∧ (s.applyPending .R d true).lineR = { s.lineR with
          row :=
            if s.pendingOn .R d = true then { latched := none, slots := [], pending := false } else s.lineR.row }
      ∧ (∀ x, (s.applyPending .R d true).slot x = s.slot x)
      ∧ (s.pendingOn .R d = false → r = b.radio)
      ∧ (s.pendingOn .R d = true → s.lineR.row.setsRadio b.fixed.cap b.radio r) := by
  have hc : (s.chan d).life = .active b := h
  by_cases hp : s.pendingOn .R d = true
  · obtain ⟨hpend, hlat⟩ := (s.pendingOn_iff .R d).mp hp
    obtain ⟨hrow, -⟩ := hr .R
    unfold Row.ok at hrow
    rw [hlat] at hrow
    obtain ⟨-, hnd, hline⟩ := hrow
    have hlat' : s.lineR.row.latched = some d := hlat
    have hnd' : (s.lineR.row.slots.map (·.1)).Nodup := hnd
    have hline' : ∀ p ∈ s.lineR.row.slots, p.1.line = .R := hline
    have hnt : ∀ p ∈ s.lineR.row.slots, p.1 ≠ .timeslot := fun p hpm hpt => by
      have := hline' p hpm; rw [hpt] at this; exact absurd this (by decide)
    have hch := State.chan_foldl_applySlot_R (pt := true) s.lineR.row.slots hline' s h
    have hln : ∀ k, (s.lineR.row.slots.foldl (State.applySlot d true) s).line k = s.line k := fun k =>
      foldl_keeps (fun s : State => s.line k) _ (fun s i => State.line_applySlot s d true i k) _ s
    have hsl := State.slot_foldl_applySlot (c := d) (pt := true) s.lineR.row.slots hnt s
    obtain ⟨u, hu⟩ : ∃ u, u = (if s.lineR.row.changesMode = true then
        (s.lineR.row.slots.foldl (State.applySlot d true) s).mapChan d fun ch => { ch with life := ch.life.rederived }
        else s.lineR.row.slots.foldl (State.applySlot d true) s) := ⟨_, rfl⟩
    have ht : s.applyPending .R d true
        = (u.record d .R .commitApplied).mapLine .R fun u => { u with row := .empty } := by
      rw [hu]; simp only [State.applyPending, hp, if_true, State.applyRow, State.line, hlat']; rfl
    have hul : ∀ k, u.line k = s.line k := by intro k; rw [hu]; split <;> simp [hln]
    have hus : ∀ x, u.slot x = s.slot x := by intro x; rw [hu]; split <;> simp [hsl]
    obtain ⟨radio, hradio⟩ : ∃ radio, radio = (if s.lineR.row.changesMode = true then
        (s.lineR.row.slots.foldl RadioHalf.item b.radio).derived b.fixed.cap
        else s.lineR.row.slots.foldl RadioHalf.item b.radio) := ⟨_, rfl⟩
    have huc : ∀ k, u.chan k
        = if d = k then { s.chan k with life := .active { b with radio := radio } } else s.chan k := by
      intro k
      by_cases hk : d = k
      · subst hk
        rw [hu]
        split
        · next hm => rw [State.chan_mapChan_self, hch, if_pos rfl, if_pos rfl, hradio, if_pos hm]; rfl
        · next hm => rw [hch, if_pos rfl, if_pos rfl, hradio, if_neg hm]
      · rw [hu, if_neg hk]
        split
        · rw [State.chan_mapChan_ne _ hk, hch, if_neg hk]
        · rw [hch, if_neg hk]
    refine ⟨radio, ?_, ?_, ?_, ?_, ?_, ?_, fun _ => hradio ▸ Row.setsRadio_foldl _ hnd' b.fixed.cap b.radio⟩
    · rw [ht, State.chan_mapLine, State.record, State.chan_mapChan_self, huc, if_pos rfl, State.record_events _ .R]
      simp only [Channel.setEvents, Channel.events, State.recordedFor, hul, State.appliedFor, hp, if_true]
    · intro k hk
      rw [List.mem_singleton] at hk
      rw [ht, State.chan_mapLine, State.record, State.chan_mapChan_ne _ (Ne.symm hk), huc, if_neg (Ne.symm hk)]
    · have : (s.applyPending .R d true).line .F = s.line .F := by
        rw [ht, State.line_mapLine, if_neg (by decide), State.line_record, hul]
      exact this
    · have := State.line_mapLine_self (u.record d .R .commitApplied) .R fun u => { u with row := .empty }
      rw [← ht] at this
      rw [if_pos hp]
      rw [State.line_record, hul] at this
      exact this
    · intro x; rw [ht]; simp [hus]
    · intro hq; rw [hp] at hq; cases hq
  · have hp' : s.pendingOn .R d = false := by simpa using hp
    have ht : s.applyPending .R d true = s := by simp [State.applyPending, hp']
    rw [ht]
    refine ⟨b.radio, ?_, fun _ _ => rfl, rfl, ?_, fun _ => rfl, fun _ => rfl, fun h => absurd h hp⟩
    · simp only [State.appliedFor, hp', Channel.events]
      rw [← hc]; rfl
    · rw [if_neg hp]

/-- Both rows PENDING on an ACTIVE channel applied at a point: all that it does (R143, R144). -/
theorem State.rowsApplied_applyBoth {s : State} (hr : s.rowsOk) {d : Chan} {b : Active} (h : s.life d = .active b) :
    ∃ b', s.rowsApplied (s.applyBoth d true) d b b'
      ∧ (s.applyBoth d true).chan d
        = { s.chan d with life := .active b', eventsF := s.appliedFor .F d, eventsR := s.appliedFor .R d }
      ∧ s.sameChannels (s.applyBoth d true) [d]
      ∧ ∀ l, (s.applyBoth d true).line l = (s.withRowsOf (s.applyBoth d true)).line l := by
  obtain ⟨f, c1, k1, lR1, lF1, e1, g1⟩ := State.applyPending_F hr h
  obtain ⟨u, hu⟩ : ∃ u, u = s.applyPending .F d true := ⟨_, rfl⟩
  have hp : u.pendingOn .R d = s.pendingOn .R d := by
    unfold State.pendingOn; rw [show u.line .R = s.line .R from (congrArg State.lineR hu).trans lR1]
  have hur : u.rowsOk := by
    intro l
    have hlife : ∀ c, (u.life c).lifecycle = (s.life c).lifecycle ∧ ∀ k, (u.life c).holds k = (s.life c).holds k := by
      intro c
      by_cases hc : c = d
      · subst hc
        rw [hu, State.life_def, c1, h]
        exact ⟨rfl, fun k => by cases k <;> rfl⟩
      · rw [hu, State.life_def, k1 c (by simpa using hc)]
        exact ⟨rfl, fun _ => rfl⟩
    cases l
    · rw [show u.line .F = _ from (congrArg State.lineF hu).trans lF1]
      by_cases hpF : s.pendingOn .F d = true
      · simp only [if_pos hpF]
        exact ⟨⟨rfl, rfl⟩, fun c hc => by cases hc⟩
      · simp only [if_neg hpF]
        refine ⟨(hr .F).1, fun c hc => ?_⟩
        rw [(hlife c).2, (hlife c).1]
        exact (hr .F).2 c hc
    · rw [show u.line .R = _ from (congrArg State.lineR hu).trans lR1]
      refine ⟨(hr .R).1, fun c hc => ?_⟩
      rw [(hlife c).2, (hlife c).1]
      exact (hr .R).2 c hc
  have hul : u.life d = .active { b with fixed := f } := by rw [hu, State.life_def, c1]
  obtain ⟨r, c2, k2, lF2, lR2, s2, e2, g2⟩ := State.applyPending_R hur hul
  have ht : s.applyBoth d true = u.applyPending .R d true := by rw [hu]; rfl
  obtain ⟨t, htt⟩ : ∃ t, t = u.applyPending .R d true := ⟨_, rfl⟩
  rw [ht]
  rw [← htt] at c2 k2 lF2 lR2 s2 ⊢
  have hF : t.lineF = { s.lineF with
      row :=
        if s.pendingOn .F d = true then { latched := none, slots := [], pending := false } else s.lineF.row } := by
    rw [lF2, hu, lF1]
  have hR : t.lineR = { s.lineR with
      row :=
        if s.pendingOn .R d = true then { latched := none, slots := [], pending := false } else s.lineR.row } := by
    rw [lR2, hp, hu, lR1]
  have hrow : u.lineR.row = s.lineR.row := by rw [hu, lR1]
  have hcap : f.cap = b.fixed.cap := by
    by_cases hpF : s.pendingOn .F d = true
    · rw [(g1 hpF).1.1]
    · rw [(e1 (by simpa using hpF)).1]
  refine ⟨{ b with fixed := f, radio := r }, ⟨rfl, ?_, ?_, ?_, ?_, ?_⟩, ?_, ?_, ?_⟩
  · intro l; cases l
    · simp only [State.line, hF]
    · simp only [State.line, hR]
  · intro hq; exact e2 (hp.trans hq)
  · intro hq; have := g2 (hp.trans hq); rw [hrow] at this; exact hcap ▸ this
  · intro hq
    obtain ⟨a1, a2⟩ := e1 hq
    exact ⟨a1, fun x hx => by rw [s2, hu]; exact a2 x hx⟩
  · intro hq
    obtain ⟨a1, a2, a3⟩ := g1 hq
    refine ⟨a1, fun hno => ?_, fun v x hv hx => ?_⟩
    · obtain ⟨b1, b2, b3⟩ := a2 hno
      exact ⟨b1, b2, fun x hx => by rw [s2, hu]; exact b3 x hx⟩
    · obtain ⟨b1, b2, b3, b4⟩ := a3 v x hv hx
      refine ⟨b1, fun y hy => by rw [s2, hu]; exact b2 y hy, fun hxo => ?_, fun hxo => ?_⟩
      · rw [s2, hu]; exact b3 hxo
      · rw [s2, s2, hu]; exact b4 hxo
  · rw [c2, hu, c1]
    have hline : u.line .R = s.line .R := (congrArg State.lineR hu).trans lR1
    have hev : (u.chan d).events .R = (s.chan d).events .R := by rw [hu, c1]; rfl
    have : u.appliedFor .R d = s.appliedFor .R d := by
      unfold State.appliedFor State.recordedFor; rw [hp, hline, hev]
    rw [← hu, this]
  · intro k hk
    rw [k2 k hk, hu]
    exact k1 k hk
  · intro l; cases l
    · simp only [State.line, State.withRowsOf, hF]
    · simp only [State.line, State.withRowsOf, hR]

end Sys2Proof.Machine
end

