-- ==== Sys2Proof/Tests/Slice0.lean ====
section
/-! SUPPORT. Tests of the model against values of the manual, and a witness for the hypotheses of each statement. Every
theorem is about one step at most, on a small state built here. -/

namespace Sys2Proof.Tests

open Sys2Proof Sys2Proof.Machine

section

-- One theorem at a time: many kernel evaluations side by side would each hold a thread.
set_option Elab.async false

/-! ### Small states -/

/-- A READY part, F node 1 and R node 2, in a sample time of cycle value 40. -/
def base : State :=
  { State.reset with
    run := .ready, cycle := 40, time := 1000, clock := 4096000, syncClock := 4096000
    lineF := { LineUnit.reset with node := 1 }, lineR := { LineUnit.reset with node := 2 } }

/-- The fixed half of the worked call of chapter 1: timeslot 70, profile 2. -/
def fixed : FixedHalf :=
  { timeslot := 70, feed := 70, profile := 2, cap := .m24, primingDepth := 2, hangover := 5, quietInterval := 8, lossToMute := 4
    gainToFixed := 256, gainToRadio := 256, quietThreshold := 64 }

/-- The radio half of that call: mode 32 requested, mode 24 active. -/
def radio : RadioHalf := { modeSet := 7, requested := .m32, dtx := true, offset := 0, active := .m24 }

/-- The call right after its entry to ACTIVE. -/
def call : Active := base.entry 21 4100 fixed radio

/-- The part with channel 21 in a lifecycle state and timeslot 70 BOUND to it. -/
def on (l : Life) : State := (base.setLife 21 l).mapSlot 70 fun ts => { ts with entry := .bound 21 }

/-- The part with channel 21 HALF_F. -/
def halfF : State := on (.halfF { tag := 4100, fixed, timer := none, check := none })

/-- The part with channel 21 HALF_R. -/
def halfR : State := base.setLife 21 (.halfR { tag := 4100, radio, timer := none })

/-- The part with the call ACTIVE on channel 21. -/
def active : State := on (.active call)

/-- An order of the F line to this part, for channel 21. -/
def ordF : Order := { line := .F, node := 1, bit7 := false, channel := 21 }

/-- An order of the R line to this part, for channel 21. -/
def ordR : Order := { line := .R, node := 2, bit7 := false, channel := 21 }

/-- The state a command leads to. -/
def after (i : Instr) (s : State) : State :=
  match exec i s with
  | .next t => t
  | _ => s

/-- The result and the data of a line's latest reply. -/
def replyOf (l : Line) (s : State) : Option (Result × BitVec 7 × BitVec 24) :=
  (s.line l).reply.map fun r => (r.result, r.channel, r.data)

/-- A QUIET record for channel 21. -/
def quietOctets (sequence level : Octet) : List Octet := sealRecord [0x80, 21, sequence, level]

/-! ### Well-formedness -/

theorem test_record_of_88_octets : (Instr.recordArrival (List.replicate 88 0)).wellFormed = true := by decide
theorem test_record_of_89_octets_refused : (Instr.recordArrival (List.replicate 89 0)).wellFormed = false := by decide
theorem test_verb_14_is_unknown : (Instr.unknownVerb ordF 0x14).wellFormed = true := by decide
theorem test_verb_13_is_not_unknown : (Instr.unknownVerb ordF 0x13).wellFormed = false := by decide

/-! ### The words of orders, written out from R178 and R182 -/

/-- The order octets with their check appended. -/
def word (o0 o1 o2 o3 o4 : Octet) : List Octet := [o0, o1, o2, o3, o4, Checks.crc8 [o0, o1, o2, o3, o4]]

theorem test_table_spells_no_word : decodeTableWord 48 0x123456 = none := by decide
theorem test_decode_nop : decodeOrder .F (word 0x20 0x15 0 0 0) = some (.nop ordF) := by decide +kernel
theorem test_decode_bind : decodeOrder .F (word 0x21 0x15 0x8C 0x90 0x04) = some (.bind ordF 70 2 4100) := by
  decide +kernel
theorem test_decode_attach : decodeOrder .R (word 0x42 0x15 0xF8 0x10 0x04) = some (.attach ordR 7 3 4100) := by
  decide +kernel
theorem test_decode_release : decodeOrder .R (word 0x43 0x15 0 0 0) = some (.release ordR) := by decide +kernel
theorem test_decode_handover : decodeOrder .R (word 0x44 0x15 0 0 0) = some (.handover ordR) := by decide +kernel
theorem test_decode_check : decodeOrder .F (word 0x25 0x15 0 0 0) = some (.check ordF) := by decide +kernel
theorem test_decode_splice : decodeOrder .F (word 0x26 0x15 0 0 0x45) = some (.splice ordF 69) := by decide +kernel
theorem test_decode_unsplice : decodeOrder .F (word 0x27 0x15 0 0 0) = some (.unsplice ordF) := by decide +kernel
theorem test_decode_stage : decodeOrder .R (word 0x48 0x15 0x06 0xFF 0xD8) = some (.stage ordR .align 0xFFD8) := by
  decide +kernel
theorem test_decode_commit : decodeOrder .F (word 0x29 0x15 0 0 0) = some (.commit ordF) := by decide +kernel
theorem test_decode_cancel : decodeOrder .F (word 0x2A 0x15 0 0 0) = some (.cancel ordF) := by decide +kernel
theorem test_decode_read_channel : decodeOrder .F (word 0x2B 0x15 0 0 0x0C) = some (.readChannel ordF 12) := by
  decide +kernel
theorem test_decode_next_event : decodeOrder .F (word 0x2C 0x15 0 0 0) = some (.nextEvent ordF) := by decide +kernel
theorem test_decode_clear_events : decodeOrder .F (word 0x2D 0x15 0 0x01 0x10) = some (.clearEvents ordF 0x110) := by
  decide +kernel
theorem test_decode_clear_line_events : decodeOrder .F (word 0x2E 0x15 0 0 0x11) = some (.clearLineEvents ordF 0x11) := by
  decide +kernel
theorem test_decode_select_item : decodeOrder .F (word 0x2F 0x15 0 0x02 0x07) = some (.selectItem ordF .line 7) := by
  decide +kernel
theorem test_decode_read_item : decodeOrder .F (word 0x30 0x15 0 0 0) = some (.readItem ordF) := by decide +kernel
theorem test_decode_write_item : decodeOrder .F (word 0x31 0x15 0 0x3F 0xFF) = some (.writeItem ordF 0x3FFF) := by
  decide +kernel
theorem test_decode_engine_out : decodeOrder .F (word 0x32 0x15 0 0 0x02) = some (.engineServiceOut ordF 2) := by
  decide +kernel
theorem test_decode_engine_in : decodeOrder .F (word 0x32 0x15 0 0 0x06) = some (.engineServiceIn ordF 2) := by
  decide +kernel
theorem test_decode_restart : decodeOrder .R (word 0x53 0x15 0 0 0)
    = some (.restart { ordR with node := 2 }) := by decide +kernel
theorem test_decode_unknown : decodeOrder .F (word 0x3F 0x95 0 0 0)
    = some (.unknownVerb { ordF with bit7 := true } 0x1F) := by decide +kernel
theorem test_decode_wrong_check : decodeOrder .F [0x20, 0x15, 0, 0, 0, 0xFF] = some (.orderCrcMismatch .F) := by
  decide +kernel

/-! ### The serial forms (R48, R64, R67, R176) -/

/-- Bits 8p to 8p + 7 of a highway, most significant first, are position p: 45H at position 6 of highway 1 is timeslot 70. -/
theorem test_received_octets :
    (receivedOctets (List.replicate 512 false)
      (List.replicate 48 false ++ [false, true, false, false, false, true, false, true]))[70] = 0x45 := by decide +kernel

/-- What a part sends on highway 0 reads back as the octets its timeslots sent. -/
theorem test_highway_bits_read_back :
    (receivedOctets ((base.mapSlot 3 fun ts => { ts with out := 0xA7 }).highwayBits 0) [])[3] = 0xA7 := by
  decide +kernel

/-- A record's own bits, begun after a low record-start, are one start and one arrival of its octets. -/
theorem test_receiver_takes_a_record :
    ((Receiver.atReady.clocks ((false, false) :: recordBits (quietOctets 9 28))).2)
      = [.recordStart, .recordArrival (quietOctets 9 28)] := by decide +kernel

/-- R64: a record-start held high begins one record; R67: a rise within a record ends that one short. -/
theorem test_receiver_record_start :
    ((Receiver.atReady.clocks [(false, false), (true, true), (true, true), (false, true)]).2) = [.recordStart]
      ∧ ((Receiver.atReady.clocks [(false, false), (true, true), (true, false), (false, true)]).2)
        = [.recordStart, .recordArrival [], .recordStart] := by decide +kernel

/-- R64: transmit data and record-start are low with nothing to send, and high at the first bit of 80H. -/
theorem test_transmit_levels :
    base.transmitLevels = (false, false)
      ∧ ({ base with sending := some (quietOctets 9 28, 4096096) }).transmitLevels = (true, true)
      ∧ ({ base with sending := some (quietOctets 9 28, 4096095) }).transmitLevels = (true, true)
      ∧ ({ base with sending := some (quietOctets 9 28, 4096094) }).transmitLevels = (false, false)
      ∧ ({ State.reset with sending := some (quietOctets 9 28, 96) }).transmitLevels = (false, false) := by decide +kernel

/-- R176: 48 bits in, octet 0 first and most significant bit first; 47 are an order cut short; the 97th clock is extra. -/
theorem test_exchange_bits :
    exchangeCommand .F (Speech.octetsBits (word 0x25 0x15 0 0 0)) = .check ordF
      ∧ exchangeCommand .F ((Speech.octetsBits (word 0x25 0x15 0 0 0)).take 47) = .earlySelectRise .F
      ∧ exchangeExtra .F 96 = [] ∧ exchangeExtra .F 97 = [.extraClock .F] := by decide +kernel

/-- R176: the reply stands on reply-out at clocks 49 to 96; node 1 answered DONE begins 001. -/
theorem test_reply_out :
    ((List.range 99).map (after (.nop ordF) base).lineF.replyOut).take 52
        = List.replicate 49 none ++ [some false, some false, some true]
      ∧ (after (.nop ordF) base).lineF.replyOut 97 = none ∧ base.lineF.replyOut 60 = none := by decide +kernel

/-! ### Arithmetic of the manual -/

/-- R66: the CRC over 31H..39H is 29B1H. -/
theorem test_crc16_of_the_manual :
    Checks.crc16 [0x31, 0x32, 0x33, 0x34, 0x35, 0x36, 0x37, 0x38, 0x39] = 0x29B1 := by decide +kernel

/-- Section 2.9: expansion and the to-radio gain of three samples. -/
theorem test_expand_and_gain :
    ([0x45, 0x52, 0xC3] : List Octet).map (fun o => Speech.gain 320 (Speech.expand o)) = [819, 1439, -739] := by
  decide +kernel

/-- Section 2.9: three samples coded in mode 24. -/
theorem test_encode_three_samples :
    Speech.encodeSamples .m24 ⟨700, 24⟩ [819, 1439, -739]
      = ([false, false, true, false, true, true, true, true, true], ⟨698, 31⟩) := by decide +kernel

/-- Section 2.9: the codes decoded and the samples compressed. -/
theorem test_decode_and_compress :
    (Speech.decodeSamples .m24 3 ⟨700, 24⟩ [false, false, true, false, true, true, true, true, true]).map Speech.compress
      = [0x49, 0x50, 0x46] := by decide +kernel

/-- Section 2.10: the first two samples of a concealment block for c = 1, 3, 4 and 5 with L = 4. -/
theorem test_concealment_blocks :
    [1, 3, 4].map (fun c => Speech.concealment c 4 [796, -739]) = [[597, -554], [149, -139], [75, -69]]
      ∧ (Speech.concealment 5 4 [796, -739]).head? = some 0 := by decide +kernel

/-- Section 2.11: the first four comfort samples at level 20, and the register after them. -/
theorem test_comfort_samples : Speech.comfortSamples 20 4 0x4C31 = ([-43, 2, -23, -35], 0x1243) := by decide +kernel

/-- Section 2.12: the activity and the quiet level of two frames. -/
theorem test_activity_and_quiet_level :
    Speech.activity (List.replicate 80 100 ++ List.replicate 80 (-100)) = 100 ∧ Speech.quietLevel 100 = 28
      ∧ Speech.activity (List.replicate 80 5 ++ List.replicate 80 (-6)) = 5 ∧ Speech.quietLevel 5 = 0 := by
  decide +kernel

/-- The line before section 2.4: a magnitude is taken before its sign, −4 and not −5. -/
theorem test_difference_before_sign : Speech.difference true 0 9 = -4 := by decide

/-! ### One step of each command -/

/-- The state with the octet `o` on every incoming timeslot: the operand of a frame sync. -/
def incoming (o : Octet) : Vector Octet 128 := Vector.replicate 128 o

/-- The call with its uplink in PLAYING or COMFORT, the window of sequence 7 in a state. -/
def running (comfort : Bool) (w : WindowState) : Active :=
  { call with up := { call.up with instant := 1000, stream := .running comfort 7 { deadline := 1152, state := w } } }

/-- The call at its downlink boundary, every sample of its ring at one level. -/
def boundary (level : Int) : Active :=
  { call with down := { call.down with boundary := some 1000, ring := List.replicate 320 level } }

/-- A SPEECH frame of 60 zero octets in mode 24. -/
def speech (sequence : BitVec 8) : SpeechFrame :=
  { sequence, mode := .m24, predictor := 0, stepIndex := 8, payload := List.replicate 60 0 }

/-- A DECODE job of channel 21. -/
def decodeJob : Job := { channel := 21, deadline := 1080, work := .decode (speech 7), discard := false }

/-- A boundary ENCODE of channel 21. -/
def encodeWork : EncodeWork :=
  { source := .boundary, mode := .m24, samples := List.replicate 160 0, sequence := 5 }

/-- An ENCODE job of channel 21. -/
def encodeJob : Job := { channel := 21, deadline := 1000, work := .encode encodeWork ⟨0, 8⟩, discard := false }

/-- Two ACTIVE channels spliced: 21 on timeslot 70 with its window in a state, 3 on timeslot 71. -/
def spliced (w : WindowState) : State :=
  ((on (.active { running false w with partner := some 3, down := call.down.spliced })).setLife 3
    (.active { call with
      partner := some 21, fixed := { fixed with timeslot := 71, feed := 71 }, down := call.down.spliced })).mapSlot 71 fun ts =>
    { ts with entry := .bound 3 }

/-- The part with a row latched to channel 21. -/
def withRow (s : State) (l : Line) (slots : List (Item × BitVec 16)) (pending : Bool) : State :=
  s.mapLine l fun u => { u with row := { latched := some 21, slots, pending } }

/-- Profile 2 VALID with the values of the worked call. -/
def withProfile (s : State) : State :=
  { s with profiles := s.profiles.set 2 { Profile.reset with cap := 2, state := .valid } }

theorem test_power_on : (after .powerOn active).run = .waiting 0 ∧ (after .powerOn active).life 21 = .free := by
  decide +kernel
theorem test_reset_low : (after .resetLow active).run = .resetLow ∧ (after .resetLow active).startKind = .resetPin := by
  decide +kernel
theorem test_reset_rise : (after .resetRise { active with run := .resetLow }).run = .waiting 0 := by decide +kernel
theorem test_ready : (after (.ready 1 2) { State.reset with run := .waiting 511, startKind := .resetPin }).cause = .resetPin
    ∧ (after (.ready 1 2) { State.reset with run := .waiting 511 }).lineR.node = 2 := by decide +kernel
theorem test_frame_sync_wraps_the_cycle :
    (after (.frameSync (incoming 0)) { base with cycle := 159 }).cycle = 0 := by decide +kernel
/-- Section 2.9: 45H expands to 655. -/
theorem test_frame_sync_fills_the_ring :
    (match (after (.frameSync (incoming 0x45)) (on (.active { call with down := { call.down with
        collecting := true } }))).life 21 with
      | .active a => a.down.ring.getLastD 0
      | _ => 0) = 655 := by decide +kernel
theorem test_continuity_timeout :
    ((after (.continuityTimeout 21) { on (.halfF
      { tag := 1, fixed, timer := none, check := some { start := 0, window := [] } }) with
      time := 4001 }).chan 21).continuity = { result := .noReturn, delay := 0 } := by decide +kernel
/-- Section 2.12: A = 100 against T = 64 is moderate; a QUIET channel's first moderate frame sets the weak-onset flag, and
the count found 0 sends a QUIET record of level 28. R46: a mode-24 job takes 320 + 1280 × 5 = 6720 core clocks. -/
theorem test_boundary_hands_on :
    (after (.downlinkBoundary 21) (on (.active { boundary 100 with down := { (boundary 100).down with
      activity := .quiet } }))).sending.map (·.1) = some (sealRecord [0x80, 21, 0, 28])
      ∧ ((after (.downlinkBoundary 21) (on (.active (boundary 100)))).engines[0]).ends? = some (4096000 + 6720) := by
  decide +kernel
theorem test_instant_plays_silence :
    ((after (.playoutInstant 21) (on (.active { call with up := { call.up with instant := 1000 } }))).slot 70).out = 0 := by
  decide +kernel
/-- Section 2.10: 796 conceals as 597, which compresses as the manual's R28 states. -/
theorem test_instant_conceals :
    ((after (.playoutInstant 21) (on (.active { running false .closed with up := { (running false .closed).up with
      lastGood := List.replicate 160 796 } }))).slot 70).out = Speech.compress 597 := by decide +kernel
theorem test_window_closes :
    (after (.windowStartDeadline 21) (on (.active { call with up := { call.up with
      stream := .running false 7 { deadline := 1000, state := .waiting } } }))).window? 21
      = some { deadline := 1000, state := .closed } := by decide +kernel
theorem test_late_encode_is_missed :
    ((after (.jobStartDeadline 21 .encode) { active with jobs := [encodeJob] }).chan 21).counter .encodeMisses = 1 := by
  decide +kernel
theorem test_completion_frees_the_engine :
    ((after (.jobCompletion 1) { active with
      engines := active.engines.set 1 (.busy encodeJob 4096000) }).engines[1]) = .free := by decide +kernel
theorem test_completion_of_a_draining_engine :
    (after (.jobCompletion 1) { active with
      engines := #v[.out, .draining encodeJob 4096000, .out, .out], jobs := [decodeJob] }).engines[1] = .out := by
  decide +kernel
theorem test_record_arrives :
    ((after (.recordArrival (quietOctets 9 28)) { active with begun := 1 }).chan 21).counter .framesAccepted = 1 := by
  decide +kernel
theorem test_short_record_is_unreadable :
    (after (.recordArrival [0x80, 21, 9]) { active with begun := 1 }).unreadable = 1 := by decide +kernel
/-- R78: a QUIET record takes 48 bits at two core clocks each. -/
theorem test_transmitter_takes_the_next_record :
    ((after .recordTransmitted { active with sending := some ([], 4096000), transmit := [quietOctets 9 28] }).sending.map
      (·.2)) = some (4096000 + 96) := by decide +kernel
theorem test_record_start : (after .recordStart base).begun = 1 := by decide +kernel
theorem test_half_wait_expiry :
    (after (.halfWaitExpiry 21) (on (.halfF { tag := 1, fixed, timer := some { expiry := 1000, since := 0 }
                                              check := none }))).life 21 = .free := by decide +kernel
theorem test_watchdog_release :
    ((after (.watchdogExpiry .F) (active.mapLine .F fun u =>
      { u with expiry := some { expiry := 1000, since := 0 }, settings := { u.settings with releaseAction := true } })).life
      21).lifecycle = .halfR := by decide +kernel
theorem test_restart_lapse :
    (after (.restartLapse .F) (base.mapLine .F fun u =>
      { u with request := some { expiry := 1000, since := 0 } })).lineF.lineEvents = 0b01000 := by decide +kernel
theorem test_early_select_rise : (after (.earlySelectRise .R) base).lineR.orderError = true := by decide +kernel
theorem test_order_crc_mismatch : (after (.orderCrcMismatch .F) base).lineF.orderError = true := by decide +kernel
theorem test_extra_clock : (after (.extraClock .F) base).lineF.orderError = true := by decide +kernel
theorem test_nop : replyOf .F (after (.nop ordF) base) = some (.done, 21, 0) := by decide +kernel
/-- Section 1.11: channel 21 bound to timeslot 70 with profile 2. -/
theorem test_bind : ((after (.bind ordF 70 2 4100) (withProfile base)).slot 70).entry = .bound 21 := by decide +kernel
theorem test_bind_unchecked_profile : replyOf .F (after (.bind ordF 70 2 4100) base) = some (.profileUnusable, 21, 0) := by
  decide +kernel
/-- Section 1.11: mode 32 requested under a cap of 2 is served in mode 24, phases 105 and 25. -/
theorem test_attach : replyOf .R (after (.attach ordR 7 3 4100) halfF) = some (.done, 21, 2)
    ∧ call.down.phase = 105 ∧ call.up.phase = 25 := by decide +kernel
theorem test_attach_wrong_tag : replyOf .R (after (.attach ordR 7 3 4101) halfF) = some (.tagMismatch, 21, 0) := by
  decide +kernel
theorem test_release : ((after (.release ordR) active).life 21).lifecycle = .halfF
    ∧ (after (.release ordR) active).lineF.events = [21] := by decide +kernel
theorem test_handover : replyOf .R (after (.handover ordR) active) = some (.done, 21, 0) := by decide +kernel
theorem test_check : ((after (.check ordF) halfF).slot 70).source
    = .pattern [0x2D, 0x71, 0x0A, 0x5C, 0x33, 0x66, 0x18, 0x4B, 0x55, 0x0F, 0x62, 0x27, 0x3E, 0x41, 0x1C, 0x7A] := by
  decide +kernel
theorem test_splice_with_itself : replyOf .F (after (.splice ordF 21) active) = some (.wrongState, 21, 0) := by
  decide +kernel
theorem test_unsplice : ((after (.unsplice ordF) (spliced .waiting)).life 3).partner? = none := by decide +kernel
theorem test_stage_clamps : replyOf .R (after (.stage ordR .align 0xFFC0) active) = some (.clamped, 21, 0xFFD8) := by
  decide +kernel
theorem test_stage_not_owner : replyOf .F (after (.stage ordF .align 1) active) = some (.notOwner, 21, 0) := by
  decide +kernel
theorem test_commit_waits : replyOf .F (after (.commit ordF) (withRow active .F [(.gainToFixed, 9)] false))
    = some (.pending, 21, 0) := by decide +kernel
theorem test_commit_empty_row : replyOf .F (after (.commit ordF) active) = some (.badArgument, 0, 0) := by decide +kernel
theorem test_cancel_pending : replyOf .F (after (.cancel ordF) (withRow active .F [(.gainToFixed, 9)] true))
    = some (.busy, 21, 0) := by decide +kernel
/-- R183: ACTIVE, TALK, not spliced, profile 2, mode code 2, tag 4100. -/
theorem test_read_summary : replyOf .F (after (.readChannel ordF 0) active)
    = some (.done, 21, 3 * 0x400000 + 2 * 0x10000 + 2 * 0x4000 + 4100) := by decide +kernel
theorem test_read_aspect_13 : replyOf .F (after (.readChannel ordF 13) active) = some (.badArgument, 21, 0) := by
  decide +kernel
theorem test_next_event_empty : replyOf .F (after (.nextEvent ordF) active) = some (.done, 0, 0) := by decide +kernel
theorem test_clear_events : replyOf .F (after (.clearEvents ordF 0x10) ((active.warn 21 .muted).record 21 .F .commitLost).settle)
    = some (.done, 21, 0x40) := by decide +kernel
theorem test_clear_line_events : replyOf .F (after (.clearLineEvents ordF 1) (base.mapLine .F fun u =>
    { u with lineEvents := 3 })) = some (.done, 21, 2) := by decide +kernel
theorem test_select_item_above_last : replyOf .F (after (.selectItem ordF .device 14) base)
    = some (.badArgument, 14, 0) := by decide +kernel
/-- R188: the part code. -/
theorem test_read_item : replyOf .F (after (.readItem ordF) (base.mapLine .F fun u =>
    { u with space := .device, index := 1 })) = some (.done, 1, 0x4128) := by decide +kernel
theorem test_write_item_clamps : replyOf .F (after (.writeItem ordF 0) base) = some (.clamped, 0, 1) := by decide +kernel
theorem test_write_item_not_owner : replyOf .R (after (.writeItem ordR 2) base) = some (.notOwner, 0, 0) := by
  decide +kernel
theorem test_engine_out : replyOf .F (after (.engineServiceOut ordF 2) base) = some (.done, 21, 3) := by decide +kernel
theorem test_engine_in_takes_the_head : replyOf .F (after (.engineServiceIn ordF 2) { base with
    engines := Vector.replicate 4 .out, jobs := [decodeJob] }) = some (.done, 21, 1) := by decide +kernel
theorem test_restart_is_pending : replyOf .F (after (.restart ordF) base) = some (.pending, 21, 0) := by decide +kernel
theorem test_restart_joins : (after (.restart ordF) (base.mapLine .R fun u =>
    { u with request := some { expiry := 9000, since := 0 } })).restartDue = some (.F, .joint) := by decide +kernel
theorem test_restart_execution :
    (after .restartExecution { active with restartDue := some (.F, .solo) }).cause = .solo
      ∧ ((after .restartExecution { active with restartDue := some (.F, .solo) }).slot 70).entry = .free := by
  decide +kernel
theorem test_unknown_verb : replyOf .F (after (.unknownVerb ordF 0x14) base) = some (.badArgument, 21, 0) := by
  decide +kernel

/-- R54, R145, R173: a HALF_F channel moved from timeslot 70 to 71 in the sample time that ends, attached at the moment of
the frame sync, takes the octet of timeslot 70, 45H; the next one comes from timeslot 71. -/
theorem test_octets_move_with_the_next_sample_time :
    (match (after (.frameSync ((incoming 0).set 70 0x45)) { after (.attach ordR 7 3 4100)
        (after (.commit ordF) (withRow halfF .F [(.timeslot, 71)] false)) with
        syncClock := base.clock - 4096 }).life 21 with
      | .active a => (a.down.ring.getLastD 0, a.fixed.feed)
      | _ => (0, 0)) = (655, 71) := by decide +kernel

/-! ### Witnesses: states and operands that meet the hypotheses of each statement -/

/-- The active parts of channel 21 in a state; the entry values where it is not ACTIVE. -/
def act (s : State) : Active :=
  match s.life 21 with
  | .active a => a
  | _ => call

/-- An order addressed to the part of the small states, on either line. -/
theorem addressed_ordF : base.addressed ordF ∧ halfF.addressed ordF ∧ halfR.addressed ordF ∧ active.addressed ordF := by
  refine ⟨⟨rfl, ?_, rfl, rfl⟩, ⟨rfl, ?_, rfl, rfl⟩, ⟨rfl, ?_, rfl, rfl⟩, rfl, ?_, rfl, rfl⟩ <;> decide
theorem addressed_ordR : base.addressed ordR ∧ halfF.addressed ordR ∧ halfR.addressed ordR ∧ active.addressed ordR := by
  refine ⟨⟨rfl, ?_, rfl, rfl⟩, ⟨rfl, ?_, rfl, rfl⟩, ⟨rfl, ?_, rfl, rfl⟩, rfl, ?_, rfl, rfl⟩ <;> decide

theorem witness_StepTakesTheFrontCommand :
    ({ base with pending := [.nop ordF, .recordStart] }).pending = .nop ordF :: [.recordStart]
      ∧ base.pending = [] ∧ base.outstanding = false ∧ base.nothingEndsBefore (base.clock + 1) = true
      ∧ (on (.active (boundary 0))).outstanding = true := by decide +kernel

theorem witness_PowerOnAndResetPinResetEveryBlock :
    (after .resetLow active).run = .resetLow ∧ active.run ≠ .resetLow := by decide +kernel

theorem witness_StartUpWaitEndsInReady :
    (after .powerOn active).run = .waiting 0 ∧ ({ State.reset with run := .waiting 510 }).run = .waiting 510
      ∧ ({ State.reset with run := .waiting 511 }).run = .waiting 511 := by decide +kernel

/-- A channel collecting, a pattern under way and a block under way. -/
def syncing : State :=
  ((on (.active { call with down := { call.down with collecting := true, entryClock := 0 } })).mapSlot 71 fun ts =>
    { ts with source := .pattern [1] }).mapSlot 72 fun ts => { ts with source := .block [2] }

theorem witness_FrameSyncExchangesOneOctetPerTimeslot :
    syncing.run = .ready ∧ syncing.outstanding = false ∧ syncing.nothingEndsBefore syncing.syncMoment = true
      ∧ (act syncing).down.collecting = true ∧ syncing.life 3 = .free ∧ (syncing.slot 0).source = .idle
      ∧ (syncing.slot 71).source = .pattern [1] ∧ (syncing.slot 72).source = .block [2]
      ∧ call.down.collecting = false
      ∧ ({ active with syncClock := 4000000 }).outstanding = false
      ∧ call.down.entryClock ≠ ({ active with clock := 4097000 }).syncMoment := by decide +kernel

/-- A timer set at the very moment of the frame sync that comes next. -/
def newTimer : Timer := { expiry := 2000, since := base.syncMoment }

/-- Half states without a check, each with a new timer, and a new watchdog expiry. -/
theorem witness_FrameSyncExchangesOneOctetPerTimeslot_timers :
    (on (.halfF { tag := 1, fixed, timer := some newTimer, check := none })).outstanding = false
      ∧ (base.setLife 21 (.halfR { tag := 1, radio, timer := some newTimer })).outstanding = false
      ∧ (base.mapLine .F fun u => { u with expiry := some newTimer }).outstanding = false
      ∧ base.timerAfterSync (some newTimer) = some { newTimer with expiry := 2001 }
      ∧ base.timerAfterSync (some { newTimer with since := 5 }) = some { newTimer with since := 5 } := by decide +kernel

/-- Channel 21 HALF_F with a check whose window holds these octets. -/
def checking (window : List Octet) (time : Nat) : State :=
  { on (.halfF { tag := 1, fixed, timer := none, check := some { start := 900, window } }) with time }

theorem witness_ContinuityWindowsAreCompared :
    (checking (patternReset.toList.take 15) 1000).run = .ready
      ∧ (checking (patternReset.toList.take 15) 1000).outstanding = false
      ∧ (patternReset.toList.take 15 ++ [(incoming 0x7A)[70]]).drop (15 + 1 - 16) = patternReset.toList
      ∧ (∀ j : Fin 16, base.mask.getLsbD j.val = true → patternReset.toList.getD j.val 0 = base.pattern[j.val])
      ∧ ¬ (∀ j : Fin 16, base.mask.getLsbD j.val = true → (List.replicate 16 (0 : Octet)).getD j.val 0 = base.pattern[j.val])
      ∧ 900 + 4000 < (checking [] 4901).time := by decide +kernel

/-- Whether a line's row is well formed and latched to a channel that may hold it. -/
def rowSound (s : State) (l : Line) : Bool :=
  let row := (s.line l).row
  match row.latched with
  | none => decide (row.slots = []) && !row.pending
  | some c =>
    decide (row.slots ≠ []) && decide (row.slots.map (·.1)).Nodup && row.slots.all (fun p => decide (p.1.line = l))
      && (s.life c).holds l && (!row.pending || decide ((s.life c).lifecycle = .active))

theorem rowsOk_of (s : State) (hF : rowSound s .F = true) (hR : rowSound s .R = true) : s.rowsOk := by
  have h : ∀ l, rowSound s l = true := fun l => by cases l <;> assumption
  intro l
  have hl := h l
  unfold rowSound at hl
  unfold Row.ok
  cases hrow : (s.line l).row.latched with
  | none => simp_all
  | some c =>
    simp only [hrow, Bool.and_eq_true, Bool.or_eq_true, decide_eq_true_eq, List.all_eq_true, Bool.not_eq_true'] at hl
    obtain ⟨⟨⟨⟨hs, hn⟩, hi⟩, hh⟩, hp⟩ := hl
    refine ⟨⟨hs, hn, hi⟩, ?_⟩
    rintro d hd
    cases hd
    refine ⟨hh, fun hpend => ?_⟩
    rcases hp with hp | hp
    · rw [hp] at hpend; cases hpend
    · exact hp

/-- The premises that every boundary statement shares; the two on the rows give State.rowsOk (rowsOk_of). -/
def boundaryReady (s : State) : Prop :=
  s.life 21 = .active (act s) ∧ (act s).partner = none ∧ (act s).down.boundary = some 1000 ∧ 1000 ≤ s.time
    ∧ rowSound s .F = true ∧ rowSound s .R = true

theorem boundaryReady_rowsOk {s : State} (h : boundaryReady s) : s.rowsOk := rowsOk_of s h.2.2.2.2.1 h.2.2.2.2.2

/-- A boundary that finds an activity, a ring level, a low-run count and a weak-onset flag. -/
def atBoundary (activity : Activity) (level : Int) (lowRun : Nat) (weak dtx : Bool) : State :=
  on (.active { boundary level with
    radio := { radio with dtx }
    down := { (boundary level).down with activity, lowRun, weakOnset := weak } })

/-- T = 64 and H = 5: levels 64 and 63, 128 and 127 are the edges of the clauses. -/
theorem witness_BoundaryUpdatesTheDownlinkFields :
    (∀ level : Fin 3, boundaryReady (atBoundary .talk (([63, 64, 128].getD level.val 0 : Int)) 5 false true))
      ∧ boundaryReady (atBoundary .talk 63 4 false true) ∧ boundaryReady (atBoundary .quiet 128 0 false true)
      ∧ boundaryReady (atBoundary .quiet 127 0 false true) ∧ boundaryReady (atBoundary .quiet 64 0 true true)
      ∧ boundaryReady (atBoundary .quiet 63 0 true false)
      ∧ Speech.activity ((List.replicate 160 63).map (Speech.gain 256)) = 63
      ∧ Speech.activity ((List.replicate 160 127).map (Speech.gain 256)) = 127 := by
  unfold boundaryReady; decide +kernel

/-- A boundary in TALK at level 100 with DTX off and the low-run count at its limit, and rows PENDING on the channel that
turn the frame QUIET: the threshold 101 on the F row, the DTX enable 1 and mode 16 on the R row; or a to-radio gain of 0. -/
def turningRows (item : Item) (value : BitVec 16) : State :=
  withRow (withRow (atBoundary .talk 100 5 false false) .F [(item, value)] true) .R [(.dtx, 1), (.mode, 1)] true

/-- Rows PENDING at the boundary, and what the frame is judged by without them: TALK, SPEECH. -/
theorem witness_BoundaryUpdatesTheDownlinkFields_rows :
    boundaryReady (turningRows .quietThreshold 101) ∧ boundaryReady (turningRows .gainToRadio 0)
      ∧ (turningRows .gainToRadio 0).pendingOn .F 21 = true ∧ (turningRows .gainToRadio 0).pendingOn .R 21 = true
      ∧ (act (atBoundary .talk 100 5 false false)).decidesSpeech
        (Speech.activity (act (atBoundary .talk 100 5 false false)).frame)
      ∧ Speech.activity (act (atBoundary .talk 100 5 false false)).frame = 100 := by
  unfold boundaryReady Active.decidesSpeech; decide +kernel

theorem witness_BoundaryOffersTheEncodeJob :
    boundaryReady (atBoundary .talk 100 0 false false)
      ∧ (atBoundary .talk 100 0 false false).inPool 21 .encode = false
      ∧ (act (atBoundary .talk 100 0 false false)).down.held = []
      ∧ (act (atBoundary .talk 100 0 false false)).radio.dtx = false
      ∧ (atBoundary .talk 100 0 false false).engines[0] = .free
      ∧ (∀ d : Fin 4, d < 3 → ({ base with engines := #v[.out, .out, .out, .free] }).engines[d.val] ≠ .free) := by
  unfold boundaryReady; decide +kernel

/-- The pool with no engine FREE, and an ENCODE of channel 21 running. -/
def full (s : State) : State := { s with engines := #v[.busy encodeJob 5000000, .out, .out, .out] }

/-- SPEECH with DTX on in TALK and at an onset, no FREE engine, and an ENCODE of the channel ahead. -/
theorem witness_BoundaryOffersTheEncodeJob_forms :
    boundaryReady (atBoundary .talk 63 4 false true) ∧ boundaryReady (atBoundary .quiet 128 0 false true)
      ∧ boundaryReady (atBoundary .quiet 64 0 true true) ∧ boundaryReady (full (atBoundary .talk 100 0 false true))
      ∧ (full (atBoundary .talk 100 0 false true)).inPool 21 .encode = true
      ∧ (∀ e : Fin 4, ({ base with engines := Vector.replicate 4 .out }).engines[e.val] ≠ .free)
      ∧ ({ base with engines := Vector.replicate 4 .out }).inPool 21 .encode = false
      ∧ Speech.activity ((List.replicate 160 63).map (Speech.gain 256)) = 63
      ∧ Speech.activity ((List.replicate 160 128).map (Speech.gain 256)) = 128
      ∧ Speech.activity ((List.replicate 160 64).map (Speech.gain 256)) = 64 := by
  unfold boundaryReady; decide +kernel

/-- Each of those boundaries decides SPEECH, and so does one whose pending R row turns DTX off in a quiet period. -/
theorem witness_BoundaryOffersTheEncodeJob_decisions :
    (∀ p ∈ [(Activity.talk, (63 : Int), 4, false), (.talk, 64, 5, false), (.quiet, 128, 0, false), (.quiet, 64, 0, true)],
      (act (atBoundary p.1 p.2.1 p.2.2.1 p.2.2.2 true)).decidesSpeech
        (Speech.activity (act (atBoundary p.1 p.2.1 p.2.2.1 p.2.2.2 true)).frame))
      ∧ boundaryReady (withRow (atBoundary .quiet 63 0 false true) .R [(.dtx, 0), (.modeSet, 1)] true)
      ∧ (withRow (atBoundary .quiet 63 0 false true) .R [(.dtx, 0), (.modeSet, 1)] true).pendingOn .R 21 = true
      ∧ ({ act (atBoundary .quiet 63 0 false true) with radio := { radio with dtx := false } }).decidesSpeech 63 := by
  unfold boundaryReady Active.decidesSpeech; decide +kernel

/-- The Transmit Queue holding some records behind one being sent. -/
def queueing (s : State) (records : Nat) : State :=
  { s with transmit := List.replicate records (quietOctets 1 2), sending := some (quietOctets 1 2, 5000000) }

theorem witness_BoundarySendsTheQuietRecord :
    boundaryReady (atBoundary .quiet 63 0 false true)
      ∧ (act (atBoundary .quiet 63 0 false true)).down.quietCount = 0
      ∧ (atBoundary .quiet 63 0 false true).inPool 21 .encode = false
      ∧ (atBoundary .quiet 63 0 false true).sending = none
      ∧ Speech.activity ((List.replicate 160 63).map (Speech.gain 256)) < fixed.quietThreshold := by
  unfold boundaryReady; decide +kernel

theorem witness_BoundarySendsTheQuietRecord_held :
    boundaryReady (full (atBoundary .quiet 63 0 false true))
      ∧ (full (atBoundary .quiet 63 0 false true)).inPool 21 .encode = true := by
  unfold boundaryReady; decide +kernel

/-- The frame that turns the channel QUIET, the first moderate one at both its edges, and a Transmit Queue with room and full. -/
theorem witness_BoundarySendsTheQuietRecord_decisions :
    boundaryReady (atBoundary .talk 63 5 false true) ∧ fixed.hangover = 5
      ∧ boundaryReady (atBoundary .quiet 64 0 false true) ∧ boundaryReady (atBoundary .quiet 127 0 false true)
      ∧ (act (atBoundary .quiet 127 0 false true)).down.quietCount = 0
      ∧ (act (atBoundary .quiet 127 0 false true)).down.weakOnset = false
      ∧ Speech.activity ((List.replicate 160 127).map (Speech.gain 256)) < 2 * fixed.quietThreshold
      ∧ fixed.quietThreshold ≤ Speech.activity ((List.replicate 160 64).map (Speech.gain 256))
      ∧ boundaryReady (queueing (atBoundary .talk 63 5 false true) 31)
      ∧ (queueing base 31).sending ≠ none ∧ (queueing base 31).transmit.length < 32
      ∧ boundaryReady (queueing (atBoundary .talk 63 5 false true) 32) ∧ 32 ≤ (queueing base 32).transmit.length := by
  unfold boundaryReady; decide +kernel

/-- A quiet boundary that finds a quiet-interval count. -/
def counting (count : Nat) (level : Int) (weak : Bool) : State :=
  on (.active { boundary level with down := { (boundary level).down with
    activity := .quiet, quietCount := count, weakOnset := weak } })

/-- Counts 1 and Q − 1 = 7, with a low frame and with the first moderate one at both its edges. -/
theorem witness_BoundarySendsTheQuietRecord_counts :
    boundaryReady (counting 1 63 true) ∧ boundaryReady (counting 7 64 false) ∧ boundaryReady (counting 0 63 false)
      ∧ boundaryReady (queueing (counting 7 127 false) 32) ∧ fixed.quietInterval = 8 := by
  unfold boundaryReady; decide +kernel

/-- Those counts decide nothing. -/
theorem witness_BoundarySendsTheQuietRecord_nothing :
    (act (counting 1 63 true)).decidesNothing (Speech.activity (act (counting 1 63 true)).frame)
      ∧ (act (counting 7 64 false)).decidesNothing (Speech.activity (act (counting 7 64 false)).frame)
      ∧ (act (counting 7 127 false)).decidesNothing (Speech.activity (act (counting 7 127 false)).frame) := by
  unfold Active.decidesNothing Active.staysQuiet; decide +kernel

/-- Count 0, and the turn to QUIET, decide a record. -/
theorem witness_BoundarySendsTheQuietRecord_record :
    (act (counting 0 63 false)).decidesRecord (Speech.activity (act (counting 0 63 false)).frame)
      ∧ (act (atBoundary .talk 63 5 false true)).decidesRecord
        (Speech.activity (act (atBoundary .talk 63 5 false true)).frame) := by
  unfold Active.decidesRecord Active.staysQuiet; decide +kernel

/-- A row PENDING on the channel at a boundary that decides a record, and at one that decides nothing. -/
theorem witness_BoundarySendsTheQuietRecord_rows :
    boundaryReady (withRow (counting 0 63 false) .F [(.gainToRadio, 255)] true)
      ∧ boundaryReady (withRow (counting 7 63 false) .R [(.align, 40)] true)
      ∧ (withRow (counting 0 63 false) .F [(.gainToRadio, 255)] true).pendingOn .F 21 = true
      ∧ (withRow (counting 7 63 false) .R [(.align, 40)] true).pendingOn .R 21 = true
      ∧ ({ act (counting 0 63 false) with fixed := { fixed with gainToRadio := 255 } }).decidesRecord
        (Speech.activity ({ act (counting 0 63 false) with fixed := { fixed with gainToRadio := 255 } }).frame)
      ∧ ({ act (counting 7 63 false) with radio := { radio with offset := 40 } }).decidesNothing
        (Speech.activity ({ act (counting 7 63 false) with radio := { radio with offset := 40 } }).frame) := by
  unfold boundaryReady Active.decidesNothing Active.decidesRecord Active.staysQuiet; decide +kernel

theorem witness_BoundaryReportsTheActivity :
    boundaryReady (atBoundary .quiet 63 0 false true)
      ∧ (((after (.downlinkBoundary 21) (atBoundary .quiet 63 0 false true)).chan 21).events .F).kinds.getLsbD
        Kind.activityChanged.bit = true := by
  unfold boundaryReady; decide +kernel

/-- An F row and an R row PENDING on the call at its boundary. -/
def pendingRows : State :=
  withRow (withRow (on (.active (boundary 0))) .F
    [(.gainToFixed, 9), (.gainToRadio, 10), (.quietThreshold, 11)] true) .R
    [(.mode, 1), (.modeSet, 3), (.dtx, 0)] true

theorem witness_BoundaryAppliesThePendingRow :
    pendingRows.rowsOk ∧ pendingRows.life 21 = .active (act pendingRows) ∧ (act pendingRows).partner = none
      ∧ (act pendingRows).down.boundary = some 1000 ∧ 1000 ≤ pendingRows.time
      ∧ pendingRows.pendingOn .F 21 = true ∧ pendingRows.pendingOn .R 21 = true :=
  ⟨rowsOk_of _ (by decide +kernel) (by decide +kernel),
    by decide +kernel⟩

/-- A move to timeslot 71 and an ALIGN of −40 PENDING on the call at its boundary. -/
def movingRows : State :=
  withRow (withRow (on (.active (boundary 0))) .F [(.timeslot, 71)] true) .R [(.align, 0xFFD8)] true

theorem witness_BoundaryAppliesThePendingRow_move :
    movingRows.rowsOk ∧ movingRows.life 21 = .active (act movingRows) ∧ (act movingRows).partner = none
      ∧ (act movingRows).down.boundary = some 1000 ∧ movingRows.pendingOn .F 21 = true
      ∧ movingRows.pendingOn .R 21 = true ∧ (Item.timeslot, 71) ∈ movingRows.lineF.row.slots
      ∧ (71 : Slot).val = (71 : BitVec 16).toNat ∧ (71 : Slot) ≠ (act movingRows).fixed.timeslot
      ∧ (70 : Slot) = (act movingRows).fixed.timeslot :=
  ⟨rowsOk_of _ (by decide +kernel) (by decide +kernel), by decide +kernel⟩

/-- R58: the boundary after an ALIGN of −40 falls 120 sample times on; R54: the new timeslot is BOUND, the old one FREE.
R108, R112, R113, R122: with the rows of `turningRows` the boundary turns the channel QUIET and sends a QUIET record of that
frame; with mode 16 alone the ENCODE is of mode 16. -/
theorem test_boundary_applies_rows :
    ((act (after (.downlinkBoundary 21) movingRows)).down.boundary = some 1120
      ∧ ((after (.downlinkBoundary 21) movingRows).slot 71).entry = .bound 21
      ∧ ((after (.downlinkBoundary 21) movingRows).slot 70).entry = .free)
      ∧ (after (.downlinkBoundary 21) (turningRows .quietThreshold 101)).sending.map (·.1)
        = some (sealRecord [0x80, 21, 0, 28])
      ∧ (after (.downlinkBoundary 21) (turningRows .gainToRadio 0)).sending.map (·.1)
        = some (sealRecord [0x80, 21, 0, 0])
      ∧ ((after (.downlinkBoundary 21) (withRow (on (.active (boundary 100))) .R [(.mode, 1)] true)).engines[0]).job?.map
        Job.mode = some .m16 := by decide +kernel

/-! ### Witnesses: playout -/

/-- The call in PRIMING at its instant with a queue and an instants count. -/
def priming (queue : List Frame) (count : Nat) : State :=
  on (.active { call with up := { call.up with
    instant := 1000, queue, stream := .priming (queue.head?.map Frame.sequence) count } })

/-- The call with a window in a state at its instant. -/
def atInstant (comfort : Bool) (w : WindowState) : State := on (.active (running comfort w))

theorem witness_PrimingInstantPlaysSilence :
    (act (priming [] 0)).up.instant ≤ 1000 ∧ (act (priming [] 0)).partner = none
      ∧ (act (priming [] 0)).up.stream = .priming none 0 ∧ (act (priming [] 0)).up.queue = []
      ∧ ¬(fixed.primingDepth ≤ ([] : List Frame).length)
      ∧ ¬(fixed.primingDepth ≤ [Frame.quiet 3 4].length
        ∨ ([Frame.quiet 3 4] ≠ [] ∧ fixed.primingDepth + 2 ≤ min 255 (2 + 1))) ∧ 1 ≤ fixed.primingDepth := by
  decide +kernel

theorem witness_PrimingEndsWithTheHeadFrame :
    (priming [.quiet 3 4] 3).life 21 = .active (act (priming [.quiet 3 4] 3))
      ∧ (act (priming [.quiet 3 4] 3)).up.queue = [.quiet 3 4] ∧ fixed.primingDepth + 2 ≤ min 255 (3 + 1)
      ∧ (act (priming [.speech (speech 3), .quiet 5 4] 0)).up.queue = [.speech (speech 3), .quiet 5 4]
      ∧ fixed.primingDepth ≤ [Frame.speech (speech 3), .quiet 5 4].length
      ∧ (∀ g ∈ [Frame.quiet 5 4], g.sequence ≠ (speech 3).sequence)
      ∧ (priming [.speech (speech 3), .quiet 5 4] 0).inPool 21 .decode = false
      ∧ (priming [.speech (speech 3), .quiet 5 4] 0).engines[0] = .free := by decide +kernel

/-- A SPEECH head with no engine FREE, and with a DECODE of the channel in the pool. -/
theorem witness_PrimingEndsWithTheHeadFrame_pool :
    (full (priming [.speech (speech 3)] 3)).life 21 = .active (act (full (priming [.speech (speech 3)] 3)))
      ∧ (act (full (priming [.speech (speech 3)] 3))).up.queue = [.speech (speech 3)]
      ∧ (act (full (priming [.speech (speech 3)] 3))).up.stream = .priming (some 3) 3
      ∧ fixed.primingDepth + 2 ≤ min 255 (3 + 1)
      ∧ (∀ e : Fin 4, (full (priming [.speech (speech 3)] 3)).engines[e.val] ≠ .free)
      ∧ (full (priming [.speech (speech 3)] 3)).inPool 21 .decode = false
      ∧ ({ priming [.speech (speech 3)] 3 with jobs := [decodeJob] }).inPool 21 .decode = true
      ∧ [Frame.speech (speech 3)] = [] ++ .speech (speech 3) :: [] ∧ (Frame.speech (speech 3)).sequence = 3
      ∧ (∀ g ∈ ([] : List Frame) ++ [], g.sequence ≠ 3) := by decide +kernel

theorem witness_ReadyWindowPlaysTheDecodedBlock :
    (atInstant true (.ready (speech 7) (List.replicate 160 5))).life 21
        = .active (running true (.ready (speech 7) (List.replicate 160 5)))
      ∧ (running true (.ready (speech 7) (List.replicate 160 5))).partner = none
      ∧ (running true (.ready (speech 7) (List.replicate 160 5))).up.instant ≤ base.time
      ∧ (running true (.ready (speech 7) (List.replicate 160 5))).up.queue = [] := by decide +kernel

/-- A queue that holds the next frame, a QUIET or a SPEECH one, with the pool free, taken and full. -/
theorem witness_ReadyWindowPlaysTheDecodedBlock_taking :
    ([] : List Frame) ++ Frame.quiet 8 4 :: [Frame.quiet 9 4] = [Frame.quiet 8 4, .quiet 9 4]
      ∧ (Frame.quiet 8 4).sequence = (7 : BitVec 8) + 1
      ∧ (∀ g ∈ ([] : List Frame) ++ [Frame.quiet 9 4], g.sequence ≠ (7 : BitVec 8) + 1)
      ∧ (Frame.speech (speech 8)).sequence = (7 : BitVec 8) + 1 ∧ base.time < base.time + 152
      ∧ base.inPool 21 .decode = false ∧ base.jobs = [] ∧ base.engines[0] = .free
      ∧ ({ base with jobs := [decodeJob] }).inPool 21 .decode = true
      ∧ (∀ e : Fin 4, ({ base with engines := Vector.replicate 4 .out }).engines[e.val] ≠ .free) := by decide +kernel

/-- Level octets 63, 64 and 255 are the edges of the level. -/
theorem witness_ComfortBlocksAreGenerated :
    (atInstant false (.quietNoted 255)).life 21 = .active (running false (.quietNoted 255))
      ∧ (atInstant true .closed).life 21 = .active (running true .closed)
      ∧ (running false (.quietNoted 255)).up.instant ≤ base.time
      ∧ min 63 (255 : Octet).toNat = 63 ∧ min 63 (64 : Octet).toNat = 63 ∧ min 63 (63 : Octet).toNat = 63 := by
  decide +kernel

/-- Loss runs 3, 4 and 255 are the edges of the clauses: the fourth conceals and warns, the fifth is silence. -/
theorem witness_ClosedWindowConceals :
    (atInstant false .closed).life 21 = .active (running false .closed)
      ∧ (running false .closed).up.instant ≤ base.time ∧ min 255 (3 + 1) = fixed.lossToMute
      ∧ ¬ min 255 (4 + 1) ≤ fixed.lossToMute ∧ min 255 (255 + 1) = 255 := by decide +kernel

theorem witness_SplicedInstantForwardsDirectly :
    (spliced (.direct (speech 7))).life 21 = .active (act (spliced (.direct (speech 7))))
      ∧ (act (spliced (.direct (speech 7)))).partner = some 3
      ∧ ((spliced (.direct (speech 7))).life 3).lifecycle = .active
      ∧ (act (spliced (.direct (speech 7)))).up.instant ≤ (spliced (.direct (speech 7))).time
      ∧ (speech 7).mode.inSet radio.modeSet = true ∧ (speech 7).mode.code ≤ fixed.cap.code
      ∧ (spliced (.direct (speech 7))).pendingOn .F 3 = false ∧ (spliced (.direct (speech 7))).pendingOn .R 3 = false
      ∧ (spliced (.direct (speech 7))).inPool 3 .encode = false
      ∧ (spliced (.direct (speech 7))).sending = none := by decide +kernel

/-- Channel 21 spliced to 3 at its instant, in COMFORT or PLAYING. -/
def splicedIn (comfort : Bool) (w : WindowState) : State :=
  (spliced w).setLife 21 (.active { running comfort w with partner := some 3, down := call.down.spliced })

/-- Rows PENDING on channel 3, the partner: a gain on the F row, a mode set of mode 16 alone on the R row. -/
def partnerRows (s : State) : State :=
  (s.mapLine .F fun u => { u with row := { latched := some 3, slots := [(.gainToFixed, 9)], pending := true } }).mapLine .R
    fun u => { u with row := { latched := some 3, slots := [(.modeSet, 1), (.mode, 1)], pending := true } }

/-- Row 1 of R155 with an empty queue, and with a queue that ends priming. -/
def splicedPriming (queue : List Frame) (count : Nat) : State :=
  (spliced .waiting).setLife 21 (.active { call with
    partner := some 3, down := call.down.spliced
    up := { call.up with instant := 1000, queue, stream := .priming (queue.head?.map Frame.sequence) count } })

/-- Rows 1 to 8, a mode that the partner no longer admits, an ENCODE of the partner ahead, and rows PENDING on it. -/
theorem witness_SplicedInstantForwardsDirectly_rows :
    (splicedPriming [] 0).life 21 = .active (act (splicedPriming [] 0)) ∧ (act (splicedPriming [] 0)).up.queue = []
      ∧ (act (splicedPriming [.quiet 3 4, .quiet 4 4] 0)).up.queue = .quiet 3 4 :: [.quiet 4 4]
      ∧ fixed.primingDepth ≤ [Frame.quiet 3 4, .quiet 4 4].length
      ∧ (∀ comfort : Bool,
        (splicedIn comfort (.direct (speech 7))).instantDue 21 = true
          ∧ (splicedIn comfort (.ready (speech 7) Speech.silence)).instantDue 21 = true
          ∧ (splicedIn comfort (.quietNoted 64)).instantDue 21 = true ∧ (splicedIn comfort .closed).instantDue 21 = true)
      ∧ (partnerRows (splicedIn false (.direct (speech 7)))).pendingOn .F 3 = true
      ∧ (partnerRows (splicedIn false (.direct (speech 7)))).pendingOn .R 3 = true
      ∧ Mode.ofCode (1 : BitVec 16).toNat = some .m16 ∧ (speech 7).mode.inSet ((1 : BitVec 16).setWidth 3) = false
      ∧ (full (splicedIn false .closed)).inPool 21 .encode = true
      ∧ ({ splicedIn false .closed with engines := #v[.busy { encodeJob with channel := 3 } 5000000, .out, .out, .out]
           }).inPool 3 .encode = true := by decide +kernel

theorem witness_SplicedInstantForwardsDirectly_rowsOk :
    (splicedIn false (.direct (speech 7))).rowsOk ∧ (partnerRows (splicedIn false (.direct (speech 7)))).rowsOk :=
  ⟨rowsOk_of _ (by decide +kernel) (by decide +kernel), rowsOk_of _ (by decide +kernel) (by decide +kernel)⟩

/-- Rows PENDING on channel 3 with the other items: a move to timeslot 72, the to-radio gain and the threshold on the F row, an
ALIGN and the DTX enable on the R row. -/
def partnerMoves (s : State) (x : BitVec 16) : State :=
  ((s.mapLine .F fun u => { u with row :=
      { latched := some 3, slots := [(.timeslot, x), (.gainToRadio, 1023), (.quietThreshold, 0)], pending := true } }).mapLine .R
    fun u => { u with row := { latched := some 3, slots := [(.align, 0xFFD8), (.dtx, 0)], pending := true } }).mapSlot 72 fun ts =>
      { ts with entry := .reserved 3 }

/-- Both lines' rows PENDING on the partner of a channel in PRIMING, with a move and with a move to its own timeslot; and a
translation beside a queued SPEECH frame for the window that opens, with an engine FREE and with none. -/
theorem witness_SplicedInstantForwardsDirectly_partner :
    (partnerMoves (splicedPriming [] 0) 72).rowsOk ∧ (partnerRows (splicedPriming [.quiet 3 4, .quiet 4 4] 0)).rowsOk
      ∧ ((partnerMoves (splicedPriming [] 0) 72).pendingOn .F 3 = true
        ∧ (partnerMoves (splicedPriming [] 0) 72).pendingOn .R 3 = true
        ∧ (Item.timeslot, 72) ∈ (partnerMoves (splicedPriming [] 0) 72).lineF.row.slots
        ∧ (72 : Slot).val = (72 : BitVec 16).toNat ∧ (71 : Slot).val = (71 : BitVec 16).toNat
        ∧ (((partnerMoves (splicedPriming [] 0) 71).life 3).fixed?.map (·.timeslot)) = some 71
        ∧ (act (partnerMoves (splicedPriming [] 0) 72)).up.stream = .priming none 0
        ∧ (partnerRows (splicedPriming [] 0)).lineF.row.timeslot? = none
        ∧ (partnerRows (splicedIn false (.ready (speech 7) Speech.silence))).inPool 3 .encode = false
        ∧ (partnerRows (splicedIn false (.ready (speech 7) Speech.silence))).engines[0] = .free
        ∧ (partnerRows (splicedIn false (.ready (speech 7) Speech.silence))).jobs = []
        ∧ (Frame.speech (speech 8)).sequence = (7 : BitVec 8) + 1) :=
  ⟨rowsOk_of _ (by decide +kernel) (by decide +kernel), rowsOk_of _ (by decide +kernel) (by decide +kernel),
    by decide +kernel⟩

/-- R155 row 5: the partner's R row takes mode 24 out of its set first, so the DIRECT frame is lost to it. -/
theorem test_partner_row_comes_first :
    ((after (.playoutInstant 21) (partnerRows (splicedIn false (.direct (speech 7))))).chan 3).counter .encodeMisses = 1
      ∧ (after (.playoutInstant 21) (partnerRows (splicedIn false (.direct (speech 7))))).sending = none := by
  decide +kernel

/-- R157: a READY frame the partner does not admit is coded again, in the partner's active mode. -/
theorem test_translation_is_offered :
    ((after (.playoutInstant 21) (partnerRows (splicedIn false (.ready (speech 7) Speech.silence)))).engines[0]).job?.map
      Job.mode = some .m16 := by decide +kernel

/-! ### Witnesses: deadlines, jobs, records -/

/-- The call with a window whose deadline is now, and a Job Queue. -/
def atDeadline (w : WindowState) (jobs : List Job) : State :=
  { on (.active { call with up := { call.up with stream := .running false 7 { deadline := 1000, state := w } } }) with
    jobs }

theorem witness_StartDeadlinesWithdrawUnstartedJobs :
    (atDeadline .waiting []).window? 21 = some { deadline := 1000, state := .waiting }
      ∧ (atDeadline (.decoding (speech 7) true) []).queued 21 .decode = false
      ∧ (atDeadline (.decoding (speech 7) false) [{ decodeJob with deadline := 1000 }]).queued 21 .decode = true
      ∧ ({ decodeJob with deadline := 1000 } : Job).deadline ≤ base.time
      ∧ (atDeadline (.quietNoted 4) []).window? 21 = some { deadline := 1000, state := .quietNoted 4 }
      ∧ (act { active with jobs := [encodeJob] }).down.held = [] ∧ encodeJob.kind = .encode
      ∧ encodeJob.deadline ≤ base.time := by decide +kernel

/-- An ENCODE of channel 21 running, a record and two jobs held behind it, the first with its deadline now. -/
def holding (items : List Held) : State :=
  full (on (.active { call with down := { call.down with held := items } }))

theorem witness_StartDeadlinesWithdrawUnstartedJobs_others :
    (atDeadline (.decoding (speech 7) false) []).queued 21 .decode = false
      ∧ (atDeadline (.direct (speech 7)) []).window? 21 = some { deadline := 1000, state := .direct (speech 7) }
      ∧ (holding [.record [1], .job encodeWork 1000, .job encodeWork 1080]).inPool 21 .encode = true
      ∧ (act (holding [.record [1], .job encodeWork 1000, .job encodeWork 1080])).down.held
        = [.record [1]] ++ .job encodeWork 1000 :: [.job encodeWork 1080] ∧ (1000 : Nat) ≤ base.time
      ∧ (holding []).jobs = [] := by decide +kernel

/-- A queued ENCODE of channel 21 at its deadline with items held behind it. -/
def lateEncode (items : List Held) : State :=
  { on (.active { call with down := { call.down with held := items } }) with jobs := [encodeJob] }

/-- Held behind the late ENCODE: nothing, a record, a job with a record behind it, a record with a job behind it. -/
theorem witness_StartDeadlinesWithdrawUnstartedJobs_held :
    (lateEncode []).life 21 = .active (act (lateEncode [])) ∧ encodeJob ∈ (lateEncode []).jobs
      ∧ encodeJob.channel = 21 ∧ encodeJob.kind = .encode ∧ encodeJob.deadline ≤ base.time
      ∧ (act (lateEncode [])).down.held = (none : Option Record).toList.map Held.record ++ []
      ∧ (act (lateEncode [.record (quietOctets 9 4)])).down.held
        = (some (quietOctets 9 4)).toList.map Held.record ++ []
      ∧ (act (lateEncode [.job encodeWork 1080, .record (quietOctets 9 4)])).down.held
        = (none : Option Record).toList.map Held.record ++ .job encodeWork 1080 :: [.record (quietOctets 9 4)]
      ∧ (act (lateEncode [.record (quietOctets 9 4), .job encodeWork 1001])).down.held
        = (some (quietOctets 9 4)).toList.map Held.record ++ .job encodeWork 1001 :: []
      ∧ base.time < 1001 ∧ recordChannel (quietOctets 9 4) = 21 := by decide +kernel

theorem witness_EncodeCompletionSendsTheRecord :
    ({ active with engines := active.engines.set 3 (.busy encodeJob 4096000) }).engines[3] = .busy encodeJob 4096000
      ∧ ({ active with engines := active.engines.set 0 (.draining encodeJob 5000000) }).engines[0]
        = .draining encodeJob 5000000
      ∧ ({ active with engines := active.engines.set 0 (.draining encodeJob 5000000) }).outstanding = false
      ∧ ({ active with engines := active.engines.set 0 (.draining encodeJob 5000000) }).nothingEndsBefore 5000000 = true
      ∧ active.jobs = [] ∧ active.transmit = [] ∧ active.sending = none ∧ (act active).down.held = []
      ∧ (queueing active 31).transmit.length < 32 ∧ (queueing active 31).sending ≠ none
      ∧ 32 ≤ (queueing active 32).transmit.length := by decide +kernel

/-- A record held behind the job, and a job held behind it, with nothing else FREE. -/
theorem witness_EncodeCompletionSendsTheRecord_held :
    (holding [.record (quietOctets 9 4)]).engines[0] = .busy encodeJob 5000000
      ∧ recordChannel (quietOctets 9 4) = 21 ∧ (holding [.record (quietOctets 9 4)]).outstanding = false
      ∧ (holding [.record (quietOctets 9 4)]).nothingEndsBefore 5000000 = true
      ∧ (act (holding [.record (quietOctets 9 4)])).down.held = [.record (quietOctets 9 4)]
      ∧ (act (holding [.job encodeWork 1080, .record [1]])).down.held = .job encodeWork 1080 :: [.record [1]]
      ∧ (holding [.job encodeWork 1080, .record [1]]).outstanding = false ∧ base.time < 1080
      ∧ (∀ d : Fin 4, d ≠ 0 → (holding []).engines[d.val] ≠ .free)
      ∧ ({ holding [] with jobs := [{ decodeJob with channel := 3 }] }).jobs = { decodeJob with channel := 3 } :: []
      ∧ ({ holding [] with engines := #v[.draining encodeJob 5000000, .out, .out, .out] }).engines[0]
        = .draining encodeJob 5000000 := by decide +kernel

/-- A DECODE at its end on a BUSY and on a DRAINING engine, with the Job Queue empty and not. -/
theorem witness_DecodeAndDiscardCompletions :
    (atDeadline (.decoding (speech 7) false) [encodeJob]).window? 21
        = some { deadline := 1000, state := .decoding (speech 7) false }
      ∧ (atDeadline (.decoding (speech 7) false) []).jobs = []
      ∧ (atDeadline (.decoding (speech 7) false) [encodeJob]).jobs = encodeJob :: []
      ∧ (#v[Engine.draining decodeJob 4096000, .out, .out, .out] : Vector Engine 4)[0] = .draining decodeJob 4096000
      ∧ (4096000 : Nat) ≤ base.clock
      ∧ decodeJob.work = .decode (speech 7) ∧ decodeJob.discard = false
      ∧ (∀ d : Fin 4, d ≠ 2 →
        (#v[Engine.out, .out, .busy decodeJob 4096000, .out] : Vector Engine 4)[d.val] ≠ .free)
      ∧ ({ decodeJob with discard := true } : Job).discard = true ∧ active.heldItems 21 = []
      ∧ active.window? 21 = none := by decide +kernel

/-- A DECODE held behind an abandoned one that runs. -/
theorem witness_DecodeAndDiscardCompletions_held :
    (atInstant false (.decoding (speech 7) true)).life 21 = .active (running false (.decoding (speech 7) true))
      ∧ ({ decodeJob with discard := true } : Job).kind = .decode ∧ base.time < 1152
      ∧ (∀ d : Fin 4, d ≠ 0 →
        (#v[Engine.busy { decodeJob with discard := true } 4096000, .out, .out, .out] : Vector Engine 4)[d.val] ≠ .free)
      ∧ ({ atInstant false (.decoding (speech 7) true) with engines := Vector.replicate 4 .out }).inPool 21 .decode
        = false := by decide +kernel

/-- An ENCODE held behind a marked one that runs. -/
theorem witness_DecodeAndDiscardCompletions_encode :
    ({ encodeJob with discard := true } : Job).kind = .encode ∧ base.time < 1001
      ∧ (act (holding [.job encodeWork 1001])).down.held = .job encodeWork 1001 :: []
      ∧ ({ holding [.job encodeWork 1001] with
          engines := #v[.busy { encodeJob with discard := true } 4096000, .free, .out, .out] }).engines[0]
        = .busy { encodeJob with discard := true } 4096000 := by decide +kernel

theorem witness_RecordsBeginAndAreSent :
    base.run = .ready ∧ State.reset.run ≠ .ready
      ∧ ({ base with sending := some (quietOctets 1 2, 4096000) }).sending = some (quietOctets 1 2, 4096000)
      ∧ ({ base with transmit := [quietOctets 1 3] }).transmit = [quietOctets 1 3] := by decide +kernel

theorem witness_ArrivalsThatAreNoFramesAreCounted :
    readable (recordOctets [0x80]) = false ∧ readable (recordOctets (quietOctets 9 4)) = true
      ∧ (base.life 21).lifecycle ≠ .active ∧ recordChannel (recordOctets (quietOctets 9 4)) = 21
      ∧ 0 < ({ active with begun := 2 }).begun
      ∧ readable (recordOctets (sealRecord [0x90, 21, 9, 4])) = true
      ∧ goodFrame radio.modeSet (recordOctets (sealRecord [0x90, 21, 9, 4])) = none := by decide +kernel

/-- Lengths at the edges, a wrong check, a readable record of no implied length; and each header at the edge of bad. -/
theorem witness_ArrivalsThatAreNoFramesAreCounted_edges :
    readable (recordOctets ((sealRecord [0x80, 21, 9, 4]).set 5 0)) = false
      ∧ readable (recordOctets []) = false ∧ readable (sealRecord (List.replicate 46 0)) = true
      ∧ readable (sealRecord (List.replicate 45 0)) = false ∧ readable (sealRecord (0x50 :: List.replicate 45 0)) = true
      ∧ goodFrame 7 (0x50 :: List.replicate 47 0) ≠ none ∧ goodFrame 6 (0x50 :: List.replicate 47 0) = none
      ∧ goodFrame 7 (0x40 :: List.replicate 47 0) = none
      ∧ goodFrame 7 ([0x50, 21, 0, 0x1F, 0xFF, 63] ++ List.replicate 42 0) ≠ none
      ∧ goodFrame 7 ([0x50, 21, 0, 0x20, 0x00, 63] ++ List.replicate 42 0) = none
      ∧ goodFrame 7 ([0x50, 21, 0, 0xE0, 0x00, 63] ++ List.replicate 42 0) ≠ none
      ∧ goodFrame 7 ([0x50, 21, 0, 0xDF, 0xFF, 63] ++ List.replicate 42 0) = none
      ∧ goodFrame 7 ([0x50, 21, 0, 0x00, 0x00, 64] ++ List.replicate 42 0) = none := by decide +kernel

/-- Six frames at distances 1, 2, 4, 5, 6 and 7 from sequence 7. -/
def sixFrames : List Frame := [8, 9, 11, 12, 13, 14].map fun n => .quiet n 4

/-- Sequences 231, 6, 8, 10, 22, 23 and 230 lie at the edges of the classification against 7; 15 is ahead of all six. -/
theorem witness_ArrivedFramesAreClassified :
    ([231, 6, 8, 10, 22, 23, 230].map fun n => distance n 7) = [-32, -1, 1, 3, 15, 16, -33]
      ∧ (∀ g ∈ sixFrames, distance g.sequence 7 < distance 15 7) ∧ (∀ g ∈ sixFrames, g.sequence ≠ 10)
      ∧ (∃ g ∈ sixFrames, distance 10 7 < distance g.sequence 7) ∧ sixFrames.length = 6
      ∧ sixFrames.Pairwise (fun f g => distance f.sequence 7 < distance g.sequence 7)
      ∧ (∀ f ∈ sixFrames, 1 ≤ distance f.sequence 7 ∧ distance f.sequence 7 ≤ 15)
      ∧ goodFrame radio.modeSet (recordOctets (quietOctets 10 4)) = some (.quiet 10 4)
      ∧ readable (recordOctets (quietOctets 10 4)) = true ∧ recordChannel (recordOctets (quietOctets 10 4)) = 21
      ∧ ({ atInstant false .waiting with begun := 1 }).begun = 1
      ∧ (priming [.quiet 3 4] 0).life 21 = .active (act (priming [.quiet 3 4] 0))
      ∧ (act (priming [.quiet 3 4] 0)).up.stream = .priming (some 3) 0 ∧ distance 3 3 = 0 ∧ distance 18 3 = 15 := by
  decide +kernel

theorem witness_ArrivedFramesAreClassified_queueOk : (running false .waiting).up.queueOk
    ∧ ({ (running false .waiting).up with queue := sixFrames }).queueOk
    ∧ (act (priming [.quiet 3 4] 0)).up.queueOk := by
  refine ⟨⟨by decide +kernel, ?_⟩, ⟨by decide +kernel, ?_⟩, by decide +kernel, ?_⟩
  · exact (by unfold ascendingFrom; decide +kernel : ascendingFrom 7 1 [])
  · exact (by unfold ascendingFrom; decide +kernel : ascendingFrom 7 1 sixFrames)
  · exact (by unfold ascendingFrom; decide +kernel : ascendingFrom 3 0 [.quiet 3 4])

/-- A resync, sequence 23 against 7, while a DECODE of the channel runs and another channel's runs beside it. -/
theorem witness_ArrivedFramesAreClassified_resync :
    goodFrame radio.modeSet (recordOctets (quietOctets 23 4)) = some (.quiet 23 4) ∧ 15 < distance 23 7
      ∧ ({ atInstant false (.decoding (speech 7) false) with
          begun := 1
          engines := #v[.busy decodeJob 5000000, .busy { decodeJob with channel := 3 } 5000000, .free, .out] }).running 21
        .decode = true
      ∧ ((after (.recordArrival (quietOctets 23 4)) { atInstant false (.decoding (speech 7) false) with
          begun := 1
          engines := #v[.busy decodeJob 5000000, .busy { decodeJob with channel := 3 } 5000000, .free, .out] }).engines).toList
        = [.busy { decodeJob with discard := true } 5000000, .busy { decodeJob with channel := 3 } 5000000, .free, .out] := by
  decide +kernel

theorem witness_FramesForTheWindowAreDecided :
    goodFrame radio.modeSet (recordOctets (quietOctets 7 4)) = some (.quiet 7 4)
      ∧ call.up.stream = .priming none 0 ∧ call.up.queue = []
      ∧ (running true .closed).up.stream = .running true 7 { deadline := 1152, state := .closed }
      ∧ (running true (.quietNoted 3)).up.stream = .running true 7 { deadline := 1152, state := .quietNoted 3 }
      ∧ (running false .waiting).up.stream = .running false 7 { deadline := 1152, state := .waiting } := by
  decide +kernel

/-- A SPEECH record of sequence 7 in mode 16 for channel 21, every payload octet 0. -/
def speechOctets : List Octet := speechRecord 21 7 .m16 ⟨0, 8⟩ (List.replicate 40 0)

/-- A SPEECH frame at distance 0 for a WAITING window: an engine FREE, none FREE, an abandoned DECODE ahead, the deadline
now; and on a channel spliced to one that admits it and to one that does not. -/
theorem witness_FramesForTheWindowAreDecided_speech :
    goodFrame radio.modeSet speechOctets = some (.speech
        { sequence := 7, mode := .m16, predictor := 0, stepIndex := 8, payload := List.replicate 40 0 })
      ∧ recordOctets speechOctets = speechOctets ∧ readable speechOctets = true ∧ recordChannel speechOctets = 21
      ∧ base.time < 1152 ∧ (atInstant false .waiting).inPool 21 .decode = false
      ∧ (atInstant false .waiting).engines[0] = .free ∧ (atDeadline .waiting []).clock ≤ base.syncClock
      ∧ (∀ e : Fin 4, (full (atDeadline .waiting [])).engines[e.val] ≠ .free)
      ∧ ({ atInstant false .waiting with jobs := [decodeJob] }).inPool 21 .decode = true
      ∧ (act (splicedIn false .waiting)).partner = some 3 ∧ ((splicedIn false .waiting).life 3).lifecycle = .active
      ∧ Mode.m16.inSet radio.modeSet = true ∧ Mode.m16.code ≤ fixed.cap.code ∧ Mode.m16.inSet 6 = false := by
  decide +kernel

/-- R131: at the very start deadline an offer with no FREE engine is withdrawn, and the window closes. -/
theorem test_decode_is_missed_in_its_offer :
    (after (.recordArrival speechOctets) { full (atDeadline .waiting []) with begun := 1 }).window? 21
        = some { deadline := 1000, state := .closed }
      ∧ ((after (.recordArrival speechOctets) { full (atDeadline .waiting []) with begun := 1 }).chan 21).counter
        .decodeMisses = 1 := by decide +kernel

/-! ### Witnesses: timers -/

/-- A half-wait timer at its expiry. -/
def expiring : Timer := { expiry := 1000, since := 0 }

theorem witness_HalfWaitExpiryFreesTheChannel :
    (on (.halfF { tag := 1, fixed, timer := some expiring, check := none })).rowsOk
      ∧ (withRow (base.setLife 21 (.halfR { tag := 1, radio, timer := some expiring })) .R [(.dtx, 1)] false).rowsOk
      ∧ expiring.expiry ≤ base.time :=
  ⟨rowsOk_of _ (by decide +kernel) (by decide +kernel),
    rowsOk_of _ (by decide +kernel) (by decide +kernel),
    by decide +kernel⟩

/-- The call with a line's watchdog at its expiry and an action. -/
def silencing (l : Line) (release : Bool) : State :=
  active.mapLine l fun u => { u with expiry := some expiring, settings := { u.settings with releaseAction := release } }

theorem witness_WatchdogExpirySilencesTheLine :
    (silencing .F true).rowsOk ∧ (silencing .R true).rowsOk ∧ (silencing .F false).rowsOk
      ∧ (((silencing .F false).line .F).silent = false ∧ ((silencing .F false).line .F).expiry = some expiring
        ∧ ((silencing .F true).line .F).settings.releaseAction = true
        ∧ ((silencing .R true).line .R).settings.releaseAction = true
        ∧ (∀ c, (silencing .F true).pendingOn .R c = false) ∧ (∀ c, (silencing .R true).pendingOn .F c = false)) :=
  ⟨rowsOk_of _ (by decide +kernel) (by decide +kernel), rowsOk_of _ (by decide +kernel) (by decide +kernel),
    rowsOk_of _ (by decide +kernel) (by decide +kernel), by decide +kernel⟩

/-- The RELEASE action with a move to timeslot 71 PENDING on the F row, an ALIGN of 9 on the R row, and channel 5 HALF_F with
a check. -/
def silencingRows (l : Line) : State :=
  (((withRow (withRow (silencing l true) .F [(.timeslot, 71)] true) .R [(.align, 9)] true).mapSlot 71 fun ts =>
    { ts with entry := .reserved 21 }).setLife 5
    (.halfF { tag := 1, fixed, timer := none, check := some { start := 900, window := [] } }))

theorem witness_WatchdogExpirySilencesTheLine_rows :
    (silencingRows .F).rowsOk ∧ (silencingRows .R).rowsOk
      ∧ ((silencingRows .F).pendingOn .F 21 = true ∧ (silencingRows .F).pendingOn .R 21 = true
        ∧ ((silencingRows .F).slot 71).entry = .reserved 21 ∧ (silencingRows .F).lineF.row.timeslot? = some 71
        ∧ (Item.align, 9) ∈ (silencingRows .F).lineR.row.slots ∧ ((silencingRows .F).life 21).holds .F = true
        ∧ (silencingRows .R).pendingOn .F 21 = true ∧ (Item.timeslot, 71) ∈ (silencingRows .R).lineF.row.slots
        ∧ (71 : Slot).val = (71 : BitVec 16).toNat ∧ (71 : Slot) ≠ fixed.timeslot
        ∧ ((silencingRows .F).life 5).holdingLine? = some .F ∧ ((silencingRows .F).life 5).check?.isSome = true) :=
  ⟨rowsOk_of _ (by decide +kernel) (by decide +kernel), rowsOk_of _ (by decide +kernel) (by decide +kernel),
    by decide +kernel⟩

/-- The RELEASE action with the other items PENDING on both rows. -/
def silencingItems (l : Line) : State :=
  withRow (withRow (silencing l true) .F [(.gainToFixed, 9), (.quietThreshold, 0)] true) .R [(.mode, 1), (.dtx, 0)] true

theorem witness_WatchdogExpirySilencesTheLine_items :
    (silencingItems .F).rowsOk ∧ (silencingItems .R).rowsOk
      ∧ ((silencingItems .F).pendingOn .R 21 = true ∧ (silencingItems .R).pendingOn .F 21 = true
        ∧ (silencingItems .F).life 21 = .active call ∧ (silencingItems .R).lineF.row.timeslot? = none) :=
  ⟨rowsOk_of _ (by decide +kernel) (by decide +kernel), rowsOk_of _ (by decide +kernel) (by decide +kernel),
    by decide +kernel⟩

/-! ### Witnesses: orders -/

/-- An order of the F line to node 3, and a broadcast. -/
theorem witness_ExchangesNotCarriedOutChangeNothing :
    base.run = .ready ∧ State.reset.run ≠ .ready ∧ (Instr.check { ordF with node := 3 }).order? = some { ordF with node := 3 }
      ∧ ({ ordF with node := 3 } : Order).node ≠ (base.line .F).node ∧ ({ ordF with node := 3 } : Order).node ≠ 7
      ∧ (Instr.check { ordF with node := 7 }).isBroadcastVerb = false
      ∧ (Instr.restart { ordF with node := 7, bit7 := true }).isBroadcastVerb = true
      ∧ (Instr.restart { ordF with node := 7, bit7 := true }).order? = some { ordF with node := 7, bit7 := true } := by
  decide +kernel

theorem witness_TakenOrdersAreAnswered :
    (Instr.handover ordR).wellFormed = true ∧ (Instr.handover ordR).order? = some ordR
      ∧ (Instr.handover { ordF with bit7 := true }).order? = some { ordF with bit7 := true }
      ∧ (Instr.handover ordF).belongsTo .F = false ∧ ordR.node ≠ 7 ∧ ordR.node = (base.line .R).node
      ∧ ordF.node = (base.line .F).node ∧ base.run = .ready := by decide +kernel

theorem witness_RefusedOrdersChangeNothing :
    (Instr.handover ordR).order? = some ordR ∧ base.run = .ready ∧ ordR.node ≠ 7 ∧ ordR.node = (base.line .R).node
      ∧ (((after (.handover ordR) base).line .R).reply.map (·.result)) = some .wrongState
      ∧ Result.wrongState.carriedOut = false := by decide +kernel

theorem witness_NopAndUnknownVerbsDoNothing :
    base.addressed ordF ∧ base.reachedBy ordF ∧ base.reachedBy { ordF with node := 7 } :=
  ⟨addressed_ordF.1, ⟨rfl, .inr rfl, rfl⟩, ⟨rfl, .inl rfl, rfl⟩⟩

theorem witness_BindMakesTheFixedHalf :
    (withProfile base).addressed ordF ∧ (withProfile halfR).addressed ordF
      ∧ ((withProfile base).life 21 = .free ∧ ((withProfile base).slot 70).entry = .free
        ∧ ((withProfile base).profiles[2]).state = .valid ∧ Mode.ofCode ((withProfile base).profiles[2]).cap = some .m24
        ∧ (withProfile halfR).life 21 = .halfR { tag := 4100, radio, timer := none }
        ∧ ((withProfile halfR).slot 70).entry = .free ∧ ((withProfile halfR).profiles[2]).state = .valid
        ∧ (withProfile halfR).cycle < 160) :=
  ⟨⟨rfl, by decide, rfl, rfl⟩, ⟨rfl, by decide, rfl, rfl⟩, by decide +kernel⟩

/-- What BIND refuses: on the R line, a HALF_F channel, another tag, a BOUND timeslot, an UNCHECKED profile. -/
theorem witness_BindMakesTheFixedHalf_refused :
    base.addressed ordR ∧ halfF.addressed ordF ∧ halfR.addressed ordF ∧ base.addressed ordF
      ∧ ((halfF.life 21).holds .F = true ∧ halfR.life 21 = .halfR { tag := 4100, radio, timer := none }
        ∧ (4101 : BitVec 14) ≠ 4100 ∧ (halfF.slot 70).entry ≠ .free ∧ base.life 21 = .free
        ∧ (base.slot 70).entry = .free ∧ (base.profiles[2]).state ≠ .valid) :=
  ⟨addressed_ordR.1, addressed_ordF.2.1, addressed_ordF.2.2.1, addressed_ordF.1, by decide +kernel⟩

theorem witness_AttachMakesTheRadioHalf :
    base.addressed ordR ∧ halfF.addressed ordR ∧ (checking [] 1000).addressed ordR
      ∧ (Mode.ofCode (3 : BitVec 2).toNat = some .m32 ∧ (7 : BitVec 3).getLsbD 0 = true ∧ base.life 21 = .free
        ∧ halfF.life 21 = .halfF { tag := 4100, fixed, timer := none, check := none } ∧ halfF.cycle < 160
        ∧ ((checking [] 1000).life 21).check?.isSome = true) :=
  ⟨addressed_ordR.1, addressed_ordR.2.1, ⟨rfl, by decide, rfl, rfl⟩, by decide +kernel⟩

/-- What ATTACH refuses: on the F line, a HALF_R channel, a mode set without mode 16 and code 0, another tag. -/
theorem witness_AttachMakesTheRadioHalf_refused :
    base.addressed ordF ∧ halfR.addressed ordR ∧ halfF.addressed ordR
      ∧ ((halfR.life 21).holds .R = true ∧ (halfF.life 21).holds .R = false ∧ (6 : BitVec 3).getLsbD 0 = false
        ∧ halfF.life 21 = .halfF { tag := 4100, fixed, timer := none, check := none } ∧ (4101 : BitVec 14) ≠ 4100) :=
  ⟨addressed_ordF.1, addressed_ordR.2.2.1, addressed_ordR.2.1, by decide +kernel⟩

theorem witness_ReleaseFreesAHalfState :
    halfF.addressed ordF ∧ halfR.addressed ordR ∧ halfF.rowsOk ∧ halfR.rowsOk
      ∧ (withRow halfF .F [(.gainToFixed, 9)] false).rowsOk :=
  ⟨addressed_ordF.2.1, addressed_ordR.2.2.1,
    rowsOk_of _ (by decide +kernel) (by decide +kernel),
    rowsOk_of _ (by decide +kernel) (by decide +kernel),
    rowsOk_of _ (by decide +kernel) (by decide +kernel)⟩

theorem witness_ReleaseFreesAHalfState_refused :
    halfF.addressed ordR ∧ base.addressed ordF ∧ ((halfF.life 21).holds .R = false ∧ (base.life 21).holds .F = false) :=
  ⟨addressed_ordR.2.1, addressed_ordF.1, by decide +kernel⟩

theorem witness_ReleaseLeavesTheOtherHalf :
    active.addressed ordF ∧ active.addressed ordR ∧ active.rowsOk ∧ (active.life 21 = .active call ∧ call.partner = none
      ∧ active.pendingOn .F 21 = false ∧ active.pendingOn .R 21 = false) :=
  ⟨addressed_ordF.2.2.2, addressed_ordR.2.2.2, rowsOk_of _ (by decide +kernel) (by decide +kernel), by decide +kernel⟩

/-- The call with a move to timeslot 71 PENDING on the F row and an ALIGN of 9 on the R row. -/
def moving : State :=
  (withRow (withRow active .F [(.timeslot, 71)] true) .R [(.align, 9)] true).mapSlot 71 fun ts =>
    { ts with entry := .reserved 21 }

theorem moving_life (c : Chan) : moving.life c = if c = 21 then .active call else .free := by
  revert c; decide +kernel

theorem moving_entry (x : Slot) :
    (moving.slot x).entry = if x = 70 then .bound 21 else if x = 71 then .reserved 21 else .free := by
  revert x; decide +kernel

theorem moving_mapOk : moving.mapOk := by
  intro x c
  have hp : moving.pendingOn .F c = decide (c = 21) := by revert c; decide +kernel
  have ht : moving.lineF.row.timeslot? = some 71 := by decide +kernel
  rw [moving_entry, moving_life, hp, ht]
  by_cases hc : c = 21
  · subst hc
    by_cases h0 : x = 70
    · subst h0; simp [Life.fixed?, call, State.entry, fixed]
    · by_cases h1 : x = 71
      · subst h1; simp [Life.fixed?, call, State.entry, fixed]
      · simp [Life.fixed?, call, State.entry, fixed, h0, h1, Ne.symm h0, Ne.symm h1]
  · by_cases h0 : x = 70
    · subst h0; simp [Life.fixed?, hc, Ne.symm hc]
    · by_cases h1 : x = 71
      · subst h1; simp [Life.fixed?, hc, Ne.symm hc]
      · simp [Life.fixed?, hc, h0, h1]

theorem moving_rowsOk : moving.rowsOk :=
  rowsOk_of _ (by decide +kernel) (by decide +kernel)

theorem witness_ReleaseLosesAndAppliesPendingRows :
    moving.addressed ordF ∧ moving.addressed ordR ∧ moving.life 21 = .active call ∧ call.partner = none ∧ moving.rowsOk
      ∧ moving.mapOk ∧ moving.pendingOn .F 21 = true ∧ moving.pendingOn .R 21 = true
      ∧ (moving.slot 71).entry = .reserved 21 :=
  ⟨⟨rfl, by decide, rfl, rfl⟩, ⟨rfl, by decide, rfl, rfl⟩, by decide +kernel, rfl, moving_rowsOk, moving_mapOk,
    by decide +kernel, by decide +kernel, by decide +kernel⟩

/-- The rows of `moving` with an ENCODE of the channel running and a DECODE queued. -/
theorem witness_ReleaseLosesAndAppliesPendingRows_jobs :
    ({ moving with engines := #v[.busy encodeJob 5000000, .out, .out, .out], jobs := [decodeJob] }).mapOk
      ∧ ({ moving with engines := #v[.busy encodeJob 5000000, .out, .out, .out], jobs := [decodeJob] }).rowsOk
      ∧ ({ moving with engines := #v[.busy encodeJob 5000000, .out, .out, .out], jobs := [decodeJob] }).addressed ordF
      ∧ (encodeJob.channel = 21 ∧ decodeJob.channel = 21 ∧ encodeJob.discard = false
        ∧ moving.lineF.row.timeslot? = some 71 ∧ (71 : Slot) ≠ call.fixed.timeslot) :=
  ⟨moving_mapOk, moving_rowsOk, ⟨rfl, by decide, rfl, rfl⟩, by decide +kernel⟩

/-- The call with the other items PENDING on both rows: what a release by either line applies. -/
def otherRows : State :=
  withRow (withRow active .F [(.gainToFixed, 1), (.gainToRadio, 1023), (.quietThreshold, 2047)] true) .R
    [(.mode, 1), (.modeSet, 3), (.dtx, 0), (.align, 40)] true

/-- The rows of `otherRows` on a spliced channel; a move to the channel's own timeslot. -/
theorem witness_ReleaseLosesAndAppliesPendingRows_items :
    otherRows.rowsOk ∧ (withRow active .F [(.timeslot, 70)] true).rowsOk
      ∧ (withRow (spliced .waiting) .R [(.mode, 1), (.dtx, 0)] true).rowsOk
      ∧ (otherRows.addressed ordF ∧ otherRows.addressed ordR)
      ∧ (otherRows.pendingOn .F 21 = true ∧ otherRows.pendingOn .R 21 = true ∧ otherRows.life 21 = .active call
        ∧ (Item.timeslot, 70) ∈ (withRow active .F [(.timeslot, 70)] true).lineF.row.slots ∧ call.fixed.timeslot = 70
        ∧ (act (withRow (spliced .waiting) .R [(.mode, 1), (.dtx, 0)] true)).partner = some 3
        ∧ (withRow (spliced .waiting) .R [(.mode, 1), (.dtx, 0)] true).pendingOn .R 21 = true) :=
  ⟨rowsOk_of _ (by decide +kernel) (by decide +kernel), rowsOk_of _ (by decide +kernel) (by decide +kernel),
    rowsOk_of _ (by decide +kernel) (by decide +kernel), ⟨⟨rfl, by decide, rfl, rfl⟩, rfl, by decide, rfl, rfl⟩,
    by decide +kernel⟩

theorem otherRows_mapOk : otherRows.mapOk := by
  intro x c
  have he : ∀ x : Slot, (otherRows.slot x).entry = if x = 70 then .bound 21 else .free := by decide +kernel
  have hl : ∀ c : Chan, otherRows.life c = if c = 21 then .active call else .free := by decide +kernel
  have ht : otherRows.lineF.row.timeslot? = none := by decide +kernel
  rw [he, hl, ht]
  by_cases hc : c = 21
  · subst hc
    by_cases h0 : x = 70
    · subst h0; simp [Life.fixed?, call, State.entry, fixed]
    · simp [Life.fixed?, call, State.entry, fixed, h0, Ne.symm h0]
  · by_cases h0 : x = 70
    · subst h0; simp [Life.fixed?, hc, Ne.symm hc]
    · simp [Life.fixed?, hc, h0]

theorem witness_HandoverPrimesAnew :
    active.addressed ordR ∧ halfF.addressed ordR ∧ active.life 21 = .active call
      ∧ (halfF.life 21).lifecycle ≠ .active :=
  ⟨addressed_ordR.2.2.2, addressed_ordR.2.1, by decide +kernel⟩

theorem witness_CheckStartsWithTheNextSampleTime :
    halfF.addressed ordF ∧ halfF.addressed ordR ∧ (checking [] 1000).addressed ordF
      ∧ (halfF.life 21 = .halfF { tag := 4100, fixed, timer := none, check := none }
        ∧ (halfF.chan 21).continuity.result ≠ .running ∧ halfF.mask ≠ 0 ∧ (active.life 21).lifecycle ≠ .halfF
        ∧ ((after (.check ordF) halfF).chan 21).continuity.result = .running ∧ ({ halfF with mask := 0 }).mask = 0
        ∧ ((checking [] 1000).life 21).check? = some { start := 900, window := [] }) :=
  ⟨addressed_ordF.2.1, addressed_ordR.2.1, ⟨rfl, by decide, rfl, rfl⟩, by decide +kernel⟩

/-- Channels 21 and 3 ACTIVE and not spliced. -/
def twoCalls : State := active.setLife 3 (.active { call with fixed := { fixed with timeslot := 71, feed := 71 } })

theorem witness_SpliceJoinsTwoChannels :
    twoCalls.addressed ordF ∧ ordF.channel ≠ 3 ∧ twoCalls.life 21 = .active call
      ∧ (twoCalls.life 3).lifecycle = .active ∧ (twoCalls.life 3).partner? = none :=
  ⟨⟨rfl, by decide, rfl, rfl⟩, by decide +kernel⟩

theorem witness_SpliceJoinsTwoChannels_refused :
    active.addressed ordF ∧ active.addressed ordR ∧ (ordF.channel = 21 ∧ (active.life 3).lifecycle ≠ .active
      ∧ ((spliced .waiting).life 21).partner? ≠ none ∧ ((spliced .waiting).life 3).partner? ≠ none) :=
  ⟨addressed_ordF.2.2.2, addressed_ordR.2.2.2, by decide +kernel⟩

theorem phasesOk_of (s : State) (hc : s.cycle < 160)
    (h : ∀ c, (match s.life c with
      | .active a => decide (a.down.phase < 160 ∧ a.up.phase < 160)
      | _ => true) = true) : s.phasesOk := by
  refine ⟨hc, fun c a hl => ?_⟩
  have := h c
  rw [hl] at this
  exact of_decide_eq_true this

theorem spliced_phasesOk : (spliced .waiting).phasesOk := phasesOk_of _ (by decide +kernel) (by decide +kernel)

theorem witness_ReleaseLeavesTheOtherHalf_spliced :
    (spliced .waiting).addressed ordF ∧ (spliced .waiting).addressed ordR ∧ (spliced .waiting).phasesOk
      ∧ (spliced .waiting).rowsOk ∧ ((act (spliced .waiting)).partner = some 3 ∧ (3 : Chan) ≠ ordF.channel
        ∧ ((spliced .waiting).life 3).lifecycle = .active ∧ (spliced .waiting).directFrame 3 = none
        ∧ (spliced .waiting).pendingOn .F 21 = false ∧ (spliced .waiting).pendingOn .R 21 = false) :=
  ⟨⟨rfl, by decide, rfl, rfl⟩, ⟨rfl, by decide, rfl, rfl⟩, spliced_phasesOk,
    rowsOk_of _ (by decide +kernel) (by decide +kernel), by decide +kernel⟩

theorem witness_UnspliceResumesBothDownlinks :
    (spliced .waiting).phasesOk ∧ (spliced .waiting).addressed ordF ∧ (act (spliced .waiting)).partner = some 3
      ∧ (spliced .waiting).directFrame 21 = none ∧ (spliced .waiting).directFrame 3 = none :=
  ⟨spliced_phasesOk, ⟨rfl, by decide, rfl, rfl⟩, by decide +kernel⟩

/-- Both windows DIRECT, with no engine FREE. -/
def bothDirect : State :=
  { splicedIn false (.direct (speech 7)) with engines := Vector.replicate 4 .out }.setLife 3
    (.active { running false (.direct (speech 9)) with
      partner := some 21, fixed := { fixed with timeslot := 71, feed := 71 }, down := call.down.spliced })

theorem bothDirect_phasesOk : bothDirect.phasesOk := phasesOk_of _ (by decide +kernel) (by decide +kernel)

/-- The partner's window DIRECT, with no engine FREE, one FREE, and a DECODE of the partner in the pool; with jobs of the
released channel queued and running; and with rows PENDING on it. -/
theorem witness_ReleaseLeavesTheOtherHalf_direct :
    bothDirect.addressed ordF ∧ bothDirect.addressed ordR ∧ bothDirect.phasesOk
      ∧ ((act bothDirect).partner = some 3 ∧ (bothDirect.life 3).lifecycle = .active
        ∧ bothDirect.directFrame 3 = some (speech 9, 1152) ∧ bothDirect.inPool 3 .decode = false
        ∧ rowSound bothDirect .F = true ∧ rowSound bothDirect .R = true
        ∧ ({ bothDirect with engines := #v[.free, .busy encodeJob 5000000, .out, .out] }).engines[0] = .free
        ∧ ({ bothDirect with jobs := [decodeJob, encodeJob] }).jobs.all (fun j => decide (j.channel = 21)) = true
        ∧ ({ bothDirect with jobs := [{ decodeJob with channel := 3 }] }).inPool 3 .decode = true
        ∧ rowSound (withRow bothDirect .F [(.gainToFixed, 9)] true) .F = true
        ∧ (withRow bothDirect .F [(.gainToFixed, 9)] true).pendingOn .F 21 = true
        ∧ rowSound (withRow bothDirect .R [(.dtx, 0)] true) .R = true
        ∧ (withRow bothDirect .R [(.dtx, 0)] true).pendingOn .R 21 = true) :=
  ⟨⟨rfl, by decide, rfl, rfl⟩, ⟨rfl, by decide, rfl, rfl⟩, bothDirect_phasesOk, by decide +kernel⟩

/-- R164 step 4: the partner's DIRECT record goes to the decoder, at once with an engine FREE. -/
theorem test_release_redirects_the_partner :
    ((after (.release ordF) { bothDirect with engines := #v[.out, .free, .out, .out] }).engines[1]).job?.map
        (fun j => (j.channel, j.kind)) = some (3, .decode)
      ∧ (after (.release ordF) { bothDirect with engines := #v[.out, .free, .out, .out] }).window? 3
        = some { deadline := 1152, state := .decoding (speech 9) false } := by decide +kernel

/-- One window DIRECT, with its deadline ahead, now and past; both DIRECT; and what UNSPLICE refuses. -/
theorem witness_UnspliceResumesBothDownlinks_direct :
    (splicedIn false (.direct (speech 7))).addressed ordF ∧ bothDirect.addressed ordF ∧ active.addressed ordF
      ∧ active.addressed ordR
      ∧ ((splicedIn false (.direct (speech 7))).directFrame 3 = none ∧ base.time < 1152
        ∧ (splicedIn false (.direct (speech 7))).inPool 21 .decode = false
        ∧ (act (splicedIn false (.direct (speech 7)))).up.stream
          = .running false 7 { deadline := 1152, state := .direct (speech 7) }
        ∧ (act (bothDirect.mapActive 21 fun a => { a with up := { a.up with
            stream := .running false 7 { deadline := 1000, state := .direct (speech 7) } } })).partner = some 3
        ∧ bothDirect.directFrame 21 = some (speech 7, 1152) ∧ bothDirect.directFrame 3 = some (speech 9, 1152)
        ∧ bothDirect.inPool 21 .decode = false ∧ bothDirect.inPool 3 .decode = false
        ∧ (∀ e : Fin 4, bothDirect.engines[e.val] ≠ .free) ∧ (active.life 21).partner? = none) :=
  ⟨⟨rfl, by decide, rfl, rfl⟩, ⟨rfl, by decide, rfl, rfl⟩, addressed_ordF.2.2.2, addressed_ordR.2.2.2, by decide +kernel⟩

/-- Both windows DIRECT with an engine FREE, the deadlines in one order, in the other and equal. -/
theorem witness_UnspliceResumesBothDownlinks_both :
    ({ bothDirect with engines := Vector.replicate 4 .free }).addressed ordF
      ∧ ((∀ deadline : Fin 3, ((bothDirect.mapActive 3 fun a => { a with up := { a.up with
          stream := .running false 7
            { deadline := 1151 + deadline.val, state := .direct (speech 9) } } }).directFrame 3)
            = some (speech 9, 1151 + deadline.val))
        ∧ bothDirect.directFrame 21 = some (speech 7, 1152) ∧ (3 : Chan) < 21
        ∧ ({ bothDirect with engines := Vector.replicate 4 .free }).engines[0] = .free ∧ bothDirect.jobs = []) :=
  ⟨⟨rfl, by decide, rfl, rfl⟩, by decide +kernel⟩

/-- Values at and beyond the end of each item's range. -/
theorem witness_StageHoldsTheItem :
    active.addressed ordF ∧ active.addressed ordR ∧ (active.lineF.row.pending = false ∧ (active.life 21).holds .F = true
      ∧ (active.life 21).holds .R = true ∧ (127 : BitVec 16) = BitVec.ofNat 16 (127 : Slot).val
      ∧ (active.slot 127).entry = .free ∧ (active.slot 70).entry = .bound 21
      ∧ (1023 : BitVec 16).toNat = min (1024 : BitVec 16).toNat 1023
      ∧ (2047 : BitVec 16).toNat = min (0xFFFF : BitVec 16).toNat 2047 ∧ (7 : BitVec 16).getLsbD 0 = true
      ∧ (0xFFD8 : BitVec 16).toInt = max (-40) (min 40 (0xFFD7 : BitVec 16).toInt)
      ∧ (40 : BitVec 16).toInt = max (-40) (min 40 (41 : BitVec 16).toInt)
      ∧ (withRow active .F [(.gainToFixed, 1)] false).lineF.row.latched = some 21) :=
  ⟨addressed_ordF.2.2.2, addressed_ordR.2.2.2, by decide +kernel⟩

/-- What STAGE refuses: an item of the other line, a PENDING row, no half, another channel's row, values beyond each range,
a timeslot of another channel. -/
theorem witness_StageHoldsTheItem_refused :
    active.addressed ordF ∧ base.addressed ordF ∧ (Item.align.line ≠ .F
      ∧ (withRow active .F [(.gainToFixed, 9)] true).lineF.row.pending = true ∧ (base.life 21).holds .F = false
      ∧ (withRow twoCalls .F [(.gainToFixed, 9)] false).lineF.row.latched = some 21 ∧ (twoCalls.life 3).holds .F = true
      ∧ 127 < (128 : BitVec 16).toNat ∧ 3 < (4 : BitVec 16).toNat ∧ 7 < (8 : BitVec 16).toNat
      ∧ (6 : BitVec 16).getLsbD 0 = false ∧ 1 < (2 : BitVec 16).toNat
      ∧ ((active.mapSlot 71 fun ts => { ts with entry := .bound 3 }).slot 71).entry = .bound 3) :=
  ⟨addressed_ordF.2.2.2, addressed_ordF.1, by decide +kernel⟩

theorem witness_CommitWaitsOrApplies :
    (withRow active .F [(.timeslot, 71)] false).addressed ordF ∧ (withRow halfF .F [(.timeslot, 71)] false).addressed ordF
      ∧ (withRow halfR .R [(.mode, 1)] false).addressed ordR
      ∧ ((withRow active .F [(.timeslot, 71)] false).lineF.row.timeslot? = some 71
        ∧ (withRow active .F [(.gainToFixed, 1)] false).lineF.row.timeslot? = none
        ∧ ((withRow active .F [(.timeslot, 71)] false).slot 71).entry = .free
        ∧ ((withRow active .F [(.timeslot, 70)] false).slot 70).entry = .bound 21
        ∧ ((withRow active .F [] false).life 21).lifecycle = .active
        ∧ (withRow halfF .F [(.timeslot, 71)] false).lineF.row.slots = [(.timeslot, 71)]
        ∧ (71 : Slot).val = (71 : BitVec 16).toNat ∧ (71 : Slot) ≠ fixed.timeslot
        ∧ (withRow halfR .R [(.mode, 1)] false).lineR.row.slots = [(.mode, 1)]
        ∧ Mode.ofCode (1 : BitVec 16).toNat = some .m16) :=
  ⟨⟨rfl, by decide, rfl, rfl⟩, ⟨rfl, by decide, rfl, rfl⟩, ⟨rfl, by decide, rfl, rfl⟩, by decide +kernel⟩

/-- Rows of the other items on half states, and what COMMIT refuses: an EMPTY row, a PENDING one, a taken timeslot. -/
theorem witness_CommitWaitsOrApplies_others :
    (withRow halfF .F [(.gainToFixed, 9), (.quietThreshold, 2047)] false).rowsOk
      ∧ (withRow halfR .R [(.mode, 1), (.align, 0xFFD8), (.modeSet, 3), (.dtx, 0)] false).rowsOk
      ∧ base.addressed ordF ∧ base.addressed ordR
      ∧ ((withRow halfF .F [(.gainToFixed, 9), (.quietThreshold, 2047)] false).lineF.row.timeslot? = none
        ∧ base.lineF.row.latched = none ∧ (withRow active .F [(.gainToFixed, 9)] true).lineF.row.pending = true
        ∧ (withRow active .F [(.timeslot, 71)] false).lineF.row.timeslot? = some 71
        ∧ ((active.mapSlot 71 fun ts => { ts with entry := .bound 3 }).slot 71).entry = .bound 3) :=
  ⟨rowsOk_of _ (by decide +kernel) (by decide +kernel), rowsOk_of _ (by decide +kernel) (by decide +kernel),
    addressed_ordF.1, addressed_ordR.1, by decide +kernel⟩

/-- A TIMESLOT beside other items, and one that names the channel's own timeslot, on a HALF_F channel. -/
theorem witness_CommitWaitsOrApplies_mixed :
    (withRow halfF .F [(.timeslot, 71), (.gainToFixed, 9)] false).rowsOk
      ∧ (withRow halfF .F [(.quietThreshold, 11), (.timeslot, 70)] false).rowsOk
      ∧ (withRow halfF .F [(.timeslot, 71), (.gainToFixed, 9)] false).addressed ordF
      ∧ ((withRow halfF .F [(.timeslot, 71), (.gainToFixed, 9)] false).lineF.row.timeslot? = some 71
        ∧ (halfF.slot 71).entry = .free ∧ (71 : Slot) ≠ fixed.timeslot
        ∧ (withRow halfF .F [(.quietThreshold, 11), (.timeslot, 70)] false).lineF.row.timeslot? = some fixed.timeslot
        ∧ (halfF.slot 70).entry = .bound 21) :=
  ⟨rowsOk_of _ (by decide +kernel) (by decide +kernel), rowsOk_of _ (by decide +kernel) (by decide +kernel),
    ⟨rfl, by decide, rfl, rfl⟩, by decide +kernel⟩

theorem witness_CancelEmptiesTheRow :
    active.addressed ordF ∧ active.lineF.row.pending = false
      ∧ (withRow active .F [(.gainToFixed, 9)] true).lineF.row.pending = true := ⟨addressed_ordF.2.2.2, by decide +kernel⟩

theorem witness_ReadChannelShowsTheContext :
    active.addressed ordF ∧ halfF.addressed ordR ∧ halfR.addressed ordF ∧ base.addressed ordF
      ∧ (Counter.transmitDrops.index.val + 1 = (11 : Fin 16).val ∧ (0 : Fin 16).val = 0) :=
  ⟨addressed_ordF.2.2.2, addressed_ordR.2.1, addressed_ordF.2.2.1, addressed_ordF.1, by decide⟩

/-- The call with a MUTED warning recorded for both lines. -/
def warned : State := (active.warn 21 .muted).settle

theorem witness_NextEventShowsTheHead :
    warned.addressed ordF ∧ warned.lineF.silent = false ∧ warned.lineF.events = [21] ∧ active.lineF.events = [] :=
  ⟨⟨rfl, by decide, rfl, rfl⟩, by decide +kernel⟩

/-- The F line SILENT, with WATCHDOG_EXPIRED allowed by its mask and not. -/
def silentF (allowed : Bool) : State :=
  warned.mapLine .F fun u => { u with
    silent := true, settings := { u.settings with eventMask := if allowed then 0x3FFF else 0x01FF } }

theorem witness_NextEventShowsTheHead_silent :
    (silentF true).addressed ordF ∧ (silentF false).reachedBy { ordF with node := 7 }
      ∧ ((silentF true).lineF.silent = true ∧ (silentF true).recordedSet .F .watchdogExpired 0 = 1
        ∧ (silentF false).recordedSet .F .watchdogExpired 0 = 0 ∧ (silentF true).lineF.events = [21]) :=
  ⟨⟨rfl, by decide, rfl, rfl⟩, ⟨rfl, .inl rfl, rfl⟩, by decide +kernel⟩

theorem warned_eventsOk : warned.eventsOk := by
  intro l
  cases l
  · exact ⟨by decide +kernel, by decide +kernel⟩
  · exact ⟨by decide +kernel, by decide +kernel⟩

theorem witness_ClearsRemoveTheKindsNamed :
    warned.addressed ordF ∧ warned.eventsOk ∧ base.reachedBy ordF ∧ base.lineF.silent = false
      ∧ (silentF true).reachedBy ordF ∧ (silentF true).lineF.silent = true
      ∧ ((warned.chan 21).events .F).kinds &&& ~~~(0x10 : BitVec 9) = 0
      ∧ ((warned.chan 21).events .F).kinds &&& ~~~(0x01 : BitVec 9) = 0x10 :=
  ⟨⟨rfl, by decide, rfl, rfl⟩, warned_eventsOk, ⟨rfl, .inr rfl, rfl⟩, by decide +kernel, ⟨rfl, .inr rfl, rfl⟩,
    by decide +kernel⟩

/-- The part with the F line's pointer at an item. -/
def pointing (space : Space) (index : Nat) : State := base.mapLine .F fun u => { u with space, index }

/-- Each space at its first and last index, and one above. -/
theorem witness_ItemsAreSelectedAndRead :
    (pointing .profile 70).addressed ordF ∧ ((71 : Fin 128).val ≤ Space.profile.last
      ∧ Space.profile.last < (72 : Fin 128).val ∧ Space.device.last < (14 : Fin 128).val
      ∧ (pointing .profile 70).lineF.index = 9 * (7 : Fin 8).val + (7 : Fin 8).val
      ∧ (pointing .pattern 15).lineF.index = (15 : Fin 16).val ∧ (pointing .pattern 16).lineF.index = 16
      ∧ (pointing .line 7).lineF.index = 7 ∧ (pointing .device 9).lineF.space = .device) :=
  ⟨⟨rfl, by decide, rfl, rfl⟩, by decide +kernel⟩

/-- The items at the ends of what READ_ITEM states; and a SILENT other line. -/
theorem witness_ItemsAreSelectedAndRead_items :
    (pointing .profile 71).addressed ordF ∧ ((pointing .profile 8).lineF.index = 9 * (0 : Fin 8).val + 8
      ∧ (pointing .profile 71).lineF.index = 9 * (7 : Fin 8).val + 8
      ∧ (pointing .line 0).lineF.index = 0 + (0 : Fin 4).val ∧ (pointing .line 7).lineF.index = 4 + (3 : Fin 4).val
      ∧ (pointing .device 7).lineF.index = 4 + (3 : Fin 4).val ∧ (pointing .device 13).lineF.index = 13
      ∧ ((pointing .device 13).mapLine .R fun u => { u with silent := true }).lineR.silent = true) :=
  ⟨⟨rfl, by decide, rfl, rfl⟩, by decide +kernel⟩

/-- R188: index 13 reads the R line's watchdog, 12 the F line's, which the order itself has brought back to ALIVE. -/
theorem test_read_watchdogs :
    replyOf .F (after (.readItem ordF) ((pointing .device 13).mapLine .R fun u => { u with silent := true }))
        = some (.done, 13, 1)
      ∧ replyOf .F (after (.readItem ordF) ((pointing .device 12).mapLine .F fun u => { u with silent := true }))
        = some (.done, 12, 0) := by decide +kernel

theorem witness_ProfilesAndPatternAreWritten :
    (pointing .profile 71).addressed ordF ∧ (pointing .pattern 15).addressed ordF
      ∧ ((pointing .profile 71).lineF.index = 9 * (7 : Fin 8).val + 8
        ∧ (pointing .profile 63).lineF.index = 9 * (7 : Fin 8).val + (0 : Fin 8).val
        ∧ 1 = max (profileRange 0).1 (min (profileRange 0).2 (0 : BitVec 16).toNat)
        ∧ 3 = max (profileRange 0).1 (min (profileRange 0).2 (9 : BitVec 16).toNat)
        ∧ 255 = min 255 (256 : BitVec 16).toNat ∧ 255 ≠ (256 : BitVec 16).toNat ∧ 255 = min 255 (255 : BitVec 16).toNat
        ∧ (∀ c, ((pointing .pattern 15).chan c).continuity.result ≠ .running)) :=
  ⟨⟨rfl, by decide, rfl, rfl⟩, ⟨rfl, by decide, rfl, rfl⟩, by decide +kernel⟩

theorem witness_ProfilesAndPatternAreWritten_busy :
    ((after (.selectItem ordF .pattern 16) (after (.check ordF) halfF)).chan 21).continuity.result = .running
      ∧ (after (.selectItem ordF .pattern 16) (after (.check ordF) halfF)).lineF.space = .pattern
      ∧ (pointing .pattern 16).lineF.index = 16 := by decide +kernel

theorem witness_LineSettingsAreWrittenByTheirLine :
    (pointing .line 0).addressed ordF ∧ (pointing .line 3).addressed ordF ∧ (pointing .line 4).addressed ordF
      ∧ (pointing .device 0).addressed ordF ∧ (pointing .line 3).lineF.index = 0 + (3 : Fin 4).val
      ∧ (pointing .line 4).lineF.index = 4 + (0 : Fin 4).val ∧ (1 : BitVec 16).toNat ≤ 1 :=
  ⟨⟨rfl, by decide, rfl, rfl⟩, ⟨rfl, by decide, rfl, rfl⟩, ⟨rfl, by decide, rfl, rfl⟩, ⟨rfl, by decide, rfl, rfl⟩,
    by decide +kernel⟩

theorem witness_LineSettingsAreWrittenByTheirLine_refused :
    (pointing .line 1).addressed ordF ∧ ((pointing .line 1).lineF.index = 1 ∧ 1 < (2 : BitVec 16).toNat
      ∧ (pointing .line 7).lineF.index = 4 + (3 : Fin 4).val) := ⟨⟨rfl, by decide, rfl, rfl⟩, by decide +kernel⟩

/-- Engines in each state beside a queued job. -/
def engines : State :=
  { base with
    engines := #v[.out, .busy encodeJob 5000000, .draining { encodeJob with channel := 3 } 5000000, .out]
    jobs := [decodeJob] }

theorem witness_EngineServiceTakesEnginesOutAndIn :
    engines.addressed ordF ∧ engines.arbiterOk ∧ base.addressed ordF ∧ base.arbiterOk
      ∧ (engines.engines[0] = .out ∧ engines.engines[1] = .busy encodeJob 5000000
        ∧ engines.engines[2] = .draining { encodeJob with channel := 3 } 5000000 ∧ base.engines[3] = .free ∧ engines.jobs = [decodeJob]) :=
  ⟨⟨rfl, by decide, rfl, rfl⟩, .inr (by decide +kernel), addressed_ordF.1, .inl rfl, by decide +kernel⟩

theorem witness_RestartIsAskedForAndLapses :
    base.reachedBy ordF ∧ base.reachedBy { ordF with node := 7 } ∧ base.lineR.request = none ∧ base.lineR.silent = false
      ∧ (base.mapLine .R fun u => { u with silent := true }).lineR.silent = true
      ∧ (base.mapLine .R fun u => { u with request := some expiring }).lineR.request = some expiring
      ∧ expiring.expiry ≤ base.time := ⟨⟨rfl, .inr rfl, rfl⟩, ⟨rfl, .inl rfl, rfl⟩, by decide +kernel⟩

theorem witness_RestartExecutionKeepsTheSettings :
    base.restartDue = none ∧ ({ active with restartDue := some (.R, .joint) }).restartDue = some (.R, .joint) := by
  decide +kernel

/-! ### Witnesses: encodings and relations -/

theorem witness_OrdersAreReadBack :
    (Instr.unknownVerb ordF 0x14).wellFormed = true ∧ (Instr.unknownVerb ordF 0x1F).order? = some ordF := by decide

/-- The predictors at both ends of their range, the step index at its end. -/
theorem witness_FormedRecordsAreReadBack :
    Mode.m24.inSet 3 = true ∧ -8192 ≤ (0xE000 : BitVec 16).toInt ∧ (0x1FFF : BitVec 16).toInt ≤ 8191
      ∧ (63 : Octet).toNat ≤ 63 ∧ (List.replicate 60 (0 : Octet)).length = 20 * (Mode.m24.code + 1) := by decide +kernel

theorem engines_oneJobEach : engines.oneJobEach := by
  intro c k
  cases k <;> revert c <;> decide +kernel

/-- A DECODE and an ENCODE of one channel in the pool, and an ENCODE of another. -/
theorem witness_StepKeepsTheQueuesServed :
    engines.arbiterOk ∧ engines.jobsOrdered ∧ engines.oneJobEach ∧ engines.transmitOk
      ∧ step { engines with pending := [.engineServiceIn ordF 0] } = .next (after (.engineServiceIn ordF 0) engines) :=
  ⟨.inr (by decide +kernel), by unfold State.jobsOrdered; decide +kernel, engines_oneJobEach,
    ⟨by decide +kernel, fun _ => rfl⟩, rfl⟩

theorem witness_StepKeepsSplicesSymmetric :
    (spliced .waiting).spliceOk
      ∧ step { spliced .waiting with pending := [.unsplice ordF] } = .next (after (.unsplice ordF) (spliced .waiting))
      ∧ ((after (.splice ordF 3) twoCalls).life 21).partner? = some 3 := by
  refine ⟨fun a b h => ?_, rfl, by decide +kernel⟩
  have hp : ∀ c : Chan, ((spliced .waiting).life c).partner?
      = if c = 21 then some 3 else if c = 3 then some 21 else none := by decide +kernel
  rw [hp] at h ⊢
  split at h
  · cases h; subst_vars; decide
  · split at h
    · cases h; subst_vars; decide
    · cases h

theorem witness_StepKeepsEventListsExact :
    warned.eventsOk ∧ step { warned with pending := [.clearEvents ordF 0x10] } = .next (after (.clearEvents ordF 0x10) warned) :=
  ⟨warned_eventsOk, rfl⟩

/-- The part with a check RUNNING on channel 21. -/
def checked : State := after (.check ordF) halfF

theorem witness_StepKeepsChecksAndModes :
    checked.checksOk ∧ checked.modesOk ∧ active.modesOk
      ∧ step { checked with pending := [.attach ordR 7 3 4100] } = .next (after (.attach ordR 7 3 4100) checked) := by
  have hc : ∀ c : Chan, (checked.life c).radio? = none := by decide +kernel
  have ha : ∀ c : Chan, active.life c = if c = 21 then .active call else .free := by decide +kernel
  refine ⟨by unfold State.checksOk; decide +kernel, fun c => ?_, fun c => ?_, rfl⟩
  · have h := hc c
    cases hl : checked.life c <;> rw [hl] at h <;> simp_all [Life.modeOk, Life.radio?]
  · rw [ha]
    split
    · exact (by decide +kernel : call.radio.active = Mode.derive call.radio.modeSet call.radio.requested call.fixed.cap)
    · trivial

theorem witness_StepKeepsReceiveQueuesOrdered :
    (priming [.quiet 3 4] 0).queuesOk ∧ (priming [.quiet 3 4] 0).phasesOk
      ∧ step { priming [.quiet 3 4] 3 with pending := [.playoutInstant 21] }
        = .next (after (.playoutInstant 21) (priming [.quiet 3 4] 3)) := by
  have hl : ∀ c : Chan, (priming [.quiet 3 4] 0).life c
      = if c = 21 then .active (act (priming [.quiet 3 4] 0)) else .free := by decide +kernel
  refine ⟨fun c a h => ?_, ⟨by decide +kernel, fun c a h => ?_⟩, rfl⟩
  · rw [hl] at h
    split at h
    · cases h; exact witness_ArrivedFramesAreClassified_queueOk.2.2
    · cases h
  · rw [hl] at h
    split at h
    · cases h; decide +kernel
    · cases h

theorem witness_StepKeepsRowsAndMap :
    moving.rowsOk ∧ moving.mapOk ∧ step { moving with pending := [.release ordF] } = .next (after (.release ordF) moving) :=
  ⟨moving_rowsOk, moving_mapOk, rfl⟩

theorem witness_StepKeepsValuesInRange :
    active.rangesOk ∧ active.profilesOk
      ∧ step { on (.active (boundary 8191)) with pending := [.downlinkBoundary 21] }
        = .next (after (.downlinkBoundary 21) (on (.active (boundary 8191)))) := by
  have ha : ∀ c : Chan, active.life c = if c = 21 then .active call else .free := by decide +kernel
  refine ⟨⟨fun c a h => ?_, fun j h => ?_, fun e j h => ?_⟩, ?_, rfl⟩
  · rw [ha] at h
    split at h
    · cases h
      refine ⟨by unfold blockInRange sampleInRange; decide +kernel, by unfold sampleInRange; decide +kernel, by decide +kernel,
        by unfold blockInRange sampleInRange; decide +kernel, ?_, ?_, ?_⟩
      · intro f hf; cases hf
      · intro comfort expected w hw; cases hw
      · intro e deadline hf; cases hf
    · cases h
  · cases h
  · have hn : ∀ e : Fin 4, (active.engines[e.val]).job? = none := by decide +kernel
    rw [hn] at h; cases h
  · unfold State.profilesOk; decide +kernel

end

end Sys2Proof.Tests
end

section
/-! SUPPORT. What the orders on channels build on: the touched state read like the state before it, the recording of an
event, the loss of a row, and the refusal of an order. -/

namespace Sys2Proof.Machine

/-! ### The touched state -/

@[simp] theorem State.pendingOn_touch (s : State) (l k : Line) (c : Chan) :
    (s.touch l).pendingOn k c = s.pendingOn k c := by
  simp [State.pendingOn]

@[simp] theorem State.recordedFor_touch (s : State) (l k : Line) (e : Kind) (r : EventRecord) :
    (s.touch l).recordedFor k e r = s.recordedFor k e r := by
  simp [State.recordedFor]

@[simp] theorem State.startedTimer_touch (s : State) (l k : Line) : (s.touch l).startedTimer k = s.startedTimer k := by
  simp [State.startedTimer]

theorem State.rowsOk_touch {s : State} (h : s.rowsOk) (l : Line) : (s.touch l).rowsOk := by
  simpa [State.rowsOk] using h

/-- What an event records for a line follows that line's settings alone. -/
theorem State.recordedFor_of_settings {s t : State} {l : Line} (h : (t.line l).settings = (s.line l).settings) (k : Kind)
    (e : EventRecord) : t.recordedFor l k e = s.recordedFor l k e := by
  rw [State.recordedFor, h, State.recordedFor]

/-- The half-wait timer that a line starts is the one R25 states. -/
theorem State.halfWaitTimer_eq (s : State) (l : Line) : s.halfWaitTimer l = s.startedTimer l := rfl

/-- A point in time lies within 160 sample times of the present one, where the cycle has its phase (R12, R49, R57). -/
theorem State.nextAt_spec {s : State} {phase : Nat} (hc : s.cycle < 160) (hp : phase < 160) :
    s.time < s.nextAt phase ∧ s.nextAt phase ≤ s.time + 160
      ∧ (s.cycle + (s.nextAt phase - s.time)) % 160 = phase := by
  unfold State.nextAt
  omega

/-! ### Recorded events -/

/-- An event recorded for a line: the channel's record for the line alone follows it (R10, R189). -/
theorem State.chan_record (s : State) (c d : Chan) (l : Line) (k : Kind) :
    (s.record c l k).chan d
      = if c = d then (s.chan d).setEvents l (s.recordedFor l k ((s.chan d).events l)) else s.chan d := by
  rw [State.record, State.chan_mapChan, State.record_events]

theorem State.chan_record_ne (s : State) {c d : Chan} (h : c ≠ d) (l : Line) (k : Kind) :
    (s.record c l k).chan d = s.chan d := by
  rw [State.chan_record, if_neg h]

/-- The event lists brought up to date: nothing else of a Line Unit changes (R190). -/
theorem State.line_settle (s : State) (l : Line) : s.settle.line l = { s.line l with events := s.eventList l } := by
  cases l <;> rfl

/-! ### A row lost (R24, R149) -/

theorem State.line_loseRow (s : State) (l k : Line) (c : Chan) :
    (s.loseRow l c).line k
      = if l = k ∧ (s.line k).row.latched = some c then { s.line k with row := .empty } else s.line k := by
  unfold State.loseRow
  by_cases hl : (s.line l).row.latched = some c
  · simp only [hl, if_true]
    rw [State.line_mapLine]
    by_cases hk : l = k
    · subst hk
      simp only [hl, and_self, if_true]
      split <;> (try split) <;> simp
    · simp only [hk, if_false, false_and]
      split <;> (try split) <;> simp
  · simp only [hl, if_false]
    rw [if_neg]
    rintro ⟨rfl, h⟩
    exact hl h

/-- A PENDING row that is lost records COMMIT_LOST, an OPEN one nothing. -/
theorem State.chan_loseRow (s : State) (l : Line) (c d : Chan) :
    (s.loseRow l c).chan d
      = if c = d ∧ s.pendingOn l c = true then
          (s.chan d).setEvents l (s.recordedFor l .commitLost ((s.chan d).events l))
        else s.chan d := by
  unfold State.loseRow State.pendingOn
  by_cases hl : (s.line l).row.latched = some c
  · by_cases hp : (s.line l).row.pending = true
    · simp only [hl, hp, if_true, State.chan_mapLine, decide_true, Bool.and_self, and_true]
      rw [State.chan_record]
      split <;> split <;> simp [State.recordedFor]
    · simp [hl, hp]
  · simp [hl]

/-- A PENDING row that is lost frees the reservation it held. -/
theorem State.slot_loseRow (s : State) (l : Line) (c : Chan) (x : Slot) :
    (s.loseRow l c).slot x
      = if s.pendingOn l c = true ∧ (s.line l).row.timeslot? = some x ∧ (s.slot x).entry = .reserved c then
          { s.slot x with entry := .free }
        else s.slot x := by
  unfold State.loseRow State.pendingOn
  by_cases hl : (s.line l).row.latched = some c
  · by_cases hp : (s.line l).row.pending = true
    · cases ht : (s.line l).row.timeslot? with
      | none => simp [hl, hp, ht]
      | some y =>
        simp only [hl, hp, ht, if_true, State.slot_mapLine, State.slot_record, State.unreserve, State.slot_mapSlot,
          decide_true, Bool.and_self, true_and, Option.some.injEq]
        by_cases hy : y = x <;> simp [hy]
    · simp [hl, hp]
  · simp [hl]

/-- A row is PENDING on ACTIVE channels only (R137, R141). -/
theorem State.rowsOk.not_pendingOn {s : State} (h : s.rowsOk) {c : Chan} (hc : (s.life c).lifecycle ≠ .active)
    (l : Line) : s.pendingOn l c = false := by
  rw [Bool.eq_false_iff]
  intro hp
  obtain ⟨hpending, hlatched⟩ := (s.pendingOn_iff l c).mp hp
  exact hc (((h l).2 c hlatched).2 hpending)

/-! ### Answers and refusals (R181) -/

/-- An order addressed to the part and carried out is answered as its verb's effect on the touched state says. -/
theorem State.exec_of_effect {s e : State} {o : Order} {i : Instr} {broadcast : Bool} {body : State → Effect}
    {r : Result} {data : BitVec 24} (h : s.addressed o)
    (hi : exec i s = .next (takeOrder o true broadcast (echo o) body s))
    (hb : body (s.touch o.line) = { state := e, result := r, data }) :
    exec i s = .next (e.formReply o.line r o.echoed data) := by
  rw [hi, takeOrder_addressed h, hb]
  rfl

/-- An order whose verb refuses it on the touched state. -/
theorem State.refuses_of_effect {s : State} {o : Order} {i : Instr} {broadcast : Bool} {body : State → Effect}
    {r : Result} (h : s.addressed o) (hi : exec i s = .next (takeOrder o true broadcast (echo o) body s))
    (hb : body (s.touch o.line) = (s.touch o.line).refuse r) : s.refuses i o r o.echoed :=
  ⟨_, State.exec_of_effect h hi hb, State.answered_formReply _ _ _ _ _,
    State.orderFrameTo_formReply (s.orderFrame_touch o) _ _ _, by simp, by simp⟩

/-- An order of a verb that belongs to the other line. -/
theorem State.refuses_of_not_owned {s : State} {o : Order} {i : Instr} {broadcast : Bool} {body : State → Effect}
    (h : s.addressed o) (hi : exec i s = .next (takeOrder o false broadcast (echo o) body s)) :
    s.refuses i o .notOwner o.echoed :=
  ⟨_, hi.trans (congrArg _ (takeOrder_not_owned h _ _ _)), State.answered_formReply _ _ _ _ _,
    State.orderFrameTo_formReply (s.orderFrame_touch o) _ _ _, by simp, by simp⟩

end Sys2Proof.Machine
end

section
/-! SUPPORT. Power-on, the RESET pin, and the relations of the part right after reset. -/

namespace Sys2Proof.Machine

@[simp] theorem State.chan_reset (c : Chan) : State.reset.chan c = Channel.reset := by
  simp [State.chan, State.reset]

@[simp] theorem State.life_reset (c : Chan) : State.reset.life c = .free := by
  rw [State.life_def, State.chan_reset]
  rfl

@[simp] theorem State.slot_reset (x : Slot) : State.reset.slot x = Timeslot.reset := by
  simp [State.slot, State.reset]

@[simp] theorem State.line_reset (l : Line) : State.reset.line l = LineUnit.reset := by cases l <;> rfl

@[simp] theorem State.engines_reset (e : Fin 4) : State.reset.engines[e.val] = .free := by
  simp [State.reset]

@[simp] theorem State.profiles_reset (p : Fin 8) : State.reset.profiles[p.val] = Profile.reset := by
  simp [State.reset]

theorem LineUnit.reset_atPowerOn : LineUnit.reset.atPowerOn :=
  ⟨rfl, rfl, rfl, rfl, rfl, rfl, rfl, rfl, rfl, rfl⟩

theorem Channel.reset_cleared : Channel.reset.cleared :=
  ⟨rfl, rfl, fun k => by simp [Channel.counter, Channel.reset], rfl, rfl⟩

/-- Every block of the reset state is at its power-on values, whatever the run state, its cause and the commands that
wait. -/
theorem State.reset_atPowerOn (run : Run) (kind : RestartCause) (commands : List Instr) :
    ({ State.reset with run := run, startKind := kind, pending := commands } : State).atPowerOn :=
  ⟨fun c => State.chan_reset c ▸ Channel.reset_cleared, State.slot_reset, LineUnit.reset_atPowerOn,
    LineUnit.reset_atPowerOn, State.profiles_reset, rfl, rfl, State.engines_reset, rfl, rfl, rfl, rfl, rfl, rfl, rfl⟩

/-- Settles O2: each of the three commands leaves the reset state but for the run state, its cause and the queue. -/
theorem powerOnAndResetPinResetEveryBlock : Obligations.PowerOnAndResetPinResetEveryBlock := by
  refine ⟨fun s => ⟨_, rfl, State.reset_atPowerOn _ _ _, rfl, rfl, rfl⟩,
    fun s => ⟨_, rfl, State.reset_atPowerOn _ _ _, rfl, rfl⟩, fun s hs => ?_, fun s hs => ?_⟩
  · exact ⟨_, congrArg Host.Outcome.next (if_pos hs), State.reset_atPowerOn _ _ _, rfl, rfl, rfl⟩
  · exact congrArg Host.Outcome.next (if_neg hs)

/-! ### The relations right after reset -/

theorem State.reset_spliceOk : State.reset.spliceOk := by
  intro a b h
  rw [State.life_reset] at h
  cases h

theorem State.reset_eventsOk : State.reset.eventsOk := by
  intro l
  rw [State.line_reset]
  refine ⟨List.nodup_nil, fun c => ?_⟩
  rw [State.chan_reset]
  cases l <;> simp [LineUnit.reset, Channel.events, Channel.reset, EventRecord.reset]

theorem State.reset_checksOk : State.reset.checksOk := by
  intro c
  rw [State.chan_reset, State.life_reset]
  simp [Channel.reset, Life.check?]

theorem State.reset_rowsOk : State.reset.rowsOk := by
  intro l
  rw [State.line_reset]
  exact ⟨⟨rfl, rfl⟩, fun c hc => nomatch hc⟩

/-- With every timeslot and channel FREE and no row PENDING, no entry is BOUND or RESERVED. -/
theorem State.reset_mapOk : State.reset.mapOk := by
  intro x c
  rw [State.slot_reset, State.life_reset]
  simp [Timeslot.reset, Life.fixed?, State.pendingOn, LineUnit.reset, Row.empty]

theorem State.reset_rangesOk : State.reset.rangesOk := by
  refine ⟨fun c a h => ?_, fun j hj => absurd hj List.not_mem_nil, fun e j h => ?_⟩
  · rw [State.life_reset] at h
    cases h
  · rw [State.engines_reset] at h
    cases h

theorem State.reset_profilesOk : State.reset.profilesOk := by
  intro p f hf
  rw [State.profiles_reset]
  revert f
  decide

theorem State.reset_oneJobEach : State.reset.oneJobEach := by
  intro c k
  simp [State.reset, Engine.job?]

/-- Settles O53, relation by relation. -/
theorem resetMeetsEveryRelation : Obligations.ResetMeetsEveryRelation := by
  refine ⟨⟨by decide, fun _ => rfl⟩, .inl rfl, .nil, State.reset_spliceOk, State.reset_eventsOk, State.reset_checksOk,
    fun c => ?_, ⟨by decide, fun c a h => ?_⟩, fun c a h => ?_, State.reset_rowsOk, State.reset_mapOk,
    State.reset_rangesOk, State.reset_profilesOk, State.reset_oneJobEach⟩
  · rw [State.life_reset]
    trivial
  · rw [State.life_reset] at h
    cases h
  · rw [State.life_reset] at h
    cases h

end Sys2Proof.Machine
end

section
/-! SUPPORT. A channel in a half state released: by an order of the line that holds it, or at the expiry of its half-wait
timer. -/

namespace Sys2Proof.Machine

/-! ### A check aborted (R172) -/

/-- The continuity record of a HALF_F context once a check RUNNING on it has been aborted. -/
def HalfF.continuityAborted (h : HalfF) (k : Continuity) : Continuity :=
  if h.check = none then k else { result := .aborted, delay := 0 }

/-- The F line's record of a HALF_F channel once a check RUNNING on it has been aborted. -/
def State.eventsAborted (s : State) (h : HalfF) (e : EventRecord) : EventRecord :=
  if h.check = none then e else s.recordedFor .F .continuityDone e

theorem State.chan_abortCheck {s : State} {c : Chan} {h : HalfF} (hl : s.life c = .halfF h) (d : Chan) :
    (s.abortCheck c h).chan d
      = if c = d then
          { s.chan d with
            life := .halfF { h with check := none }
            continuity := h.continuityAborted (s.chan d).continuity
            eventsF := s.eventsAborted h (s.chan d).eventsF }
        else s.chan d := by
  obtain ⟨tag, fixed, timer, check⟩ := h
  cases check with
  | none =>
    split
    · next hd =>
      subst hd
      rw [State.life_def] at hl
      simp [State.abortCheck, HalfF.continuityAborted, State.eventsAborted, ← hl]
    · rfl
  | some k =>
    simp only [State.abortCheck, State.chan_idleSlot, State.chan_record, HalfF.continuityAborted, State.eventsAborted,
      State.chan_setLife, State.chan_mapChan, reduceCtorEq, if_false]
    split
    · simp [Channel.setEvents, Channel.events, State.recordedFor]
    · rfl

theorem State.slot_abortCheck (s : State) (c : Chan) (h : HalfF) (x : Slot) :
    (s.abortCheck c h).slot x
      = if h.check ≠ none ∧ h.fixed.timeslot = x then { s.slot x with source := .idle } else s.slot x := by
  obtain ⟨tag, fixed, timer, check⟩ := h
  cases check with
  | none => simp [State.abortCheck]
  | some k => simp [State.abortCheck, State.idleSlot, State.slot_mapSlot]

/-! ### The release of a half state (R20, R24) -/

theorem State.releaseHalf_of_halfF {s : State} {c : Chan} {h : HalfF} (hl : s.life c = .halfF h) :
    s.releaseHalf .F c
      = (((s.abortCheck c h).freeSlot h.fixed.timeslot).setLife c .free).loseRow .F c := by
  simp only [State.releaseHalf, hl]

theorem State.releaseHalf_of_halfR {s : State} {c : Chan} {h : HalfR} (hl : s.life c = .halfR h) :
    s.releaseHalf .R c = (s.setLife c .free).loseRow .R c := by
  simp only [State.releaseHalf, hl]

/-- What is PENDING where the rows stand alike. -/
theorem State.pendingOn_of_line {s t : State} {l : Line} (h : t.line l = s.line l) (c : Chan) :
    t.pendingOn l c = s.pendingOn l c := by
  rw [State.pendingOn, h, State.pendingOn]

section HalfF

variable {s : State} {c : Chan} {h : HalfF} (hl : s.life c = .halfF h) (hp : s.pendingOn .F c = false)
include hl

theorem State.pool_releaseHalf_halfF : (s.releaseHalf .F c).pool = s.pool := by
  simp [State.releaseHalf_of_halfF hl]

theorem State.line_releaseHalf_halfF (k : Line) :
    (s.releaseHalf .F c).line k
      = if .F = k ∧ (s.line k).row.latched = some c then { s.line k with row := .empty } else s.line k := by
  simp [State.releaseHalf_of_halfF hl, State.line_loseRow]

include hp

theorem State.chan_releaseHalf_halfF (d : Chan) :
    (s.releaseHalf .F c).chan d
      = if c = d then
          { s.chan d with
            life := .free
            continuity := h.continuityAborted (s.chan d).continuity
            eventsF := s.eventsAborted h (s.chan d).eventsF }
        else s.chan d := by
  rw [State.releaseHalf_of_halfF hl, State.chan_loseRow, State.pendingOn_of_line (s := s) (by simp), hp,
    if_neg (by simp), State.chan_setLife, State.chan_freeSlot, State.chan_abortCheck hl]
  split <;> rfl

theorem State.slot_releaseHalf_halfF (x : Slot) :
    (s.releaseHalf .F c).slot x
      = if h.fixed.timeslot = x then { s.slot x with entry := .free, source := .idle } else s.slot x := by
  rw [State.releaseHalf_of_halfF hl, State.slot_loseRow, State.pendingOn_of_line (s := s) (by simp), hp,
    if_neg (by simp), State.slot_setLife, State.freeSlot, State.slot_mapSlot, State.slot_abortCheck]
  by_cases hx : h.fixed.timeslot = x
  · rw [if_pos hx, if_pos hx]
    split <;> rfl
  · rw [if_neg hx, if_neg hx, if_neg fun hy => hx hy.2]

end HalfF

section HalfR

variable {s : State} {c : Chan} {h : HalfR} (hl : s.life c = .halfR h) (hp : s.pendingOn .R c = false)
include hl

theorem State.pool_releaseHalf_halfR : (s.releaseHalf .R c).pool = s.pool := by
  simp [State.releaseHalf_of_halfR hl]

theorem State.line_releaseHalf_halfR (k : Line) :
    (s.releaseHalf .R c).line k
      = if .R = k ∧ (s.line k).row.latched = some c then { s.line k with row := .empty } else s.line k := by
  simp [State.releaseHalf_of_halfR hl, State.line_loseRow]

include hp

theorem State.chan_releaseHalf_halfR (d : Chan) :
    (s.releaseHalf .R c).chan d = if c = d then { s.chan d with life := .free } else s.chan d := by
  rw [State.releaseHalf_of_halfR hl, State.chan_loseRow, State.pendingOn_of_line (s := s) (by simp), hp,
    if_neg (by simp), State.chan_setLife]

theorem State.slot_releaseHalf_halfR (x : Slot) : (s.releaseHalf .R c).slot x = s.slot x := by
  rw [State.releaseHalf_of_halfR hl, State.slot_loseRow, State.pendingOn_of_line (s := s) (by simp), hp,
    if_neg (by simp), State.slot_setLife]

end HalfR

/-! ### The expiry of a half-wait timer (R26) -/

/-- An expiry that has come releases the half of the holding line and records HALF_EXPIRED for it. -/
theorem exec_halfWaitExpiry {s : State} {c : Chan} {tm : Timer} {l : Line} (ht : (s.life c).timer? = some tm)
    (he : tm.expiry ≤ s.time) (hl : (s.life c).holdingLine? = some l) :
    exec (.halfWaitExpiry c) s = .next ((s.releaseHalf l c).record c l .halfExpired).settle := by
  have hx : s.expired (s.life c).timer? = true := by simpa [ht, State.expired, State.reached] using he
  show Host.Outcome.next (if s.expired (s.life c).timer? = true then s.halfWaitExpiry c else s) = _
  rw [if_pos hx, State.halfWaitExpiry, hl]

/-- An event recorded and the lists brought up to date change a Line Unit in its event list alone. -/
theorem LineUnit.sameButList_settle {u : LineUnit} {s : State} {l : Line} (h : s.line l = u) (c : Chan) (k : Line)
    (e : Kind) : u.sameButList ((s.record c k e).settle.line l) := by
  subst h
  rw [State.line_settle, State.line_record]
  rfl

/-- A HALF_F channel at the expiry of its timer. -/
theorem halfWaitExpiry_halfF {s : State} {c : Chan} {h : HalfF} {tm : Timer} (hr : s.rowsOk)
    (he : tm.expiry ≤ s.time) (hl : s.life c = .halfF h) (ht : h.timer = some tm) :
    ∃ t, exec (.halfWaitExpiry c) s = .next t ∧ s.streamFrame t [c] [h.fixed.timeslot] ∧ t.pool = s.pool
      ∧ t.link = s.link
      ∧ { s.lineF with row :=
          if s.lineF.row.latched = some c then { latched := none, slots := [], pending := false }
          else s.lineF.row }.sameButList t.lineF
      ∧ s.lineR.sameButList t.lineR
      ∧ t.slot h.fixed.timeslot = { s.slot h.fixed.timeslot with entry := .free, source := .idle }
      ∧ t.chan c = { s.chan c with
          life := .free
          continuity := h.continuityAborted (s.chan c).continuity
          eventsF := s.recordedFor .F .halfExpired (s.eventsAborted h (s.chan c).eventsF) } := by
  have hp : s.pendingOn .F c = false := hr.not_pendingOn (by simp [hl, Life.lifecycle]) .F
  have hline := State.line_releaseHalf_halfF hl
  refine ⟨_, exec_halfWaitExpiry (l := .F) (by rw [hl]; exact ht) he (by rw [hl]; rfl), ⟨by simp, ?_, ?_⟩, ?_, by simp,
    LineUnit.sameButList_settle (l := .F) ?_ c .F .halfExpired,
    LineUnit.sameButList_settle (l := .R) (hline .R) c .F .halfExpired, ?_, ?_⟩
  · intro d hd
    have hne : c ≠ d := fun hcd => hd (hcd ▸ List.mem_cons_self)
    rw [State.chan_settle, State.chan_record_ne _ hne, State.chan_releaseHalf_halfF hl hp, if_neg hne]
  · intro x hx
    have hne : h.fixed.timeslot ≠ x := fun hxx => hx (hxx ▸ List.mem_cons_self)
    rw [State.slot_settle, State.slot_record, State.slot_releaseHalf_halfF hl hp, if_neg hne]
  · rw [State.pool_settle, State.pool_record, State.pool_releaseHalf_halfF hl]
  · rw [hline]
    by_cases hrow : s.lineF.row.latched = some c <;> simp [State.line, hrow, Row.empty]
  · rw [State.slot_settle, State.slot_record, State.slot_releaseHalf_halfF hl hp, if_pos rfl]
  · rw [State.chan_settle, State.chan_record, State.chan_releaseHalf_halfF hl hp, if_pos rfl, if_pos rfl,
      State.recordedFor_of_settings (s := s) (by rw [hline]; split <;> rfl)]
    rfl

/-- A HALF_R channel at the expiry of its timer. -/
theorem halfWaitExpiry_halfR {s : State} {c : Chan} {h : HalfR} {tm : Timer} (hr : s.rowsOk)
    (he : tm.expiry ≤ s.time) (hl : s.life c = .halfR h) (ht : h.timer = some tm) :
    ∃ t, exec (.halfWaitExpiry c) s = .next t ∧ s.streamFrame t [c] [] ∧ t.pool = s.pool ∧ t.link = s.link
      ∧ { s.lineR with row :=
          if s.lineR.row.latched = some c then { latched := none, slots := [], pending := false }
          else s.lineR.row }.sameButList t.lineR
      ∧ s.lineF.sameButList t.lineF
      ∧ t.chan c = { s.chan c with
          life := .free, eventsR := s.recordedFor .R .halfExpired (s.chan c).eventsR } := by
  have hp : s.pendingOn .R c = false := hr.not_pendingOn (by simp [hl, Life.lifecycle]) .R
  have hline := State.line_releaseHalf_halfR hl
  refine ⟨_, exec_halfWaitExpiry (l := .R) (by rw [hl]; exact ht) he (by rw [hl]; rfl), ⟨by simp, ?_, fun x _ => ?_⟩, ?_,
    by simp, LineUnit.sameButList_settle (l := .R) ?_ c .R .halfExpired,
    LineUnit.sameButList_settle (l := .F) (hline .F) c .R .halfExpired, ?_⟩
  · intro d hd
    have hne : c ≠ d := fun hcd => hd (hcd ▸ List.mem_cons_self)
    rw [State.chan_settle, State.chan_record_ne _ hne, State.chan_releaseHalf_halfR hl hp, if_neg hne]
  · rw [State.slot_settle, State.slot_record, State.slot_releaseHalf_halfR hl hp]
  · rw [State.pool_settle, State.pool_record, State.pool_releaseHalf_halfR hl]
  · rw [hline]
    by_cases hrow : s.lineR.row.latched = some c <;> simp [State.line, hrow, Row.empty]
  · rw [State.chan_settle, State.chan_record, State.chan_releaseHalf_halfR hl hp, if_pos rfl, if_pos rfl,
      State.recordedFor_of_settings (s := s) (by rw [hline]; split <;> rfl)]
    rfl

/-- Settles O24, half state by half state. -/
theorem halfWaitExpiryFreesTheChannel : Obligations.HalfWaitExpiryFreesTheChannel :=
  fun _ _ _ hr he => ⟨fun _ hl ht => halfWaitExpiry_halfF hr he hl ht, fun _ hl ht => halfWaitExpiry_halfR hr he hl ht⟩

/-! ### RELEASE of a half state (R20) -/

/-- RELEASE by a line that holds a half of the channel: the half released on the touched state, and the answer DONE. -/
theorem exec_release {s : State} {o : Order} (h : s.addressed o) (hh : (s.life o.channel).holds o.line = true) :
    exec (.release o) s
      = .next (((s.touch o.line).releaseHalf o.line o.channel).settle.formReply o.line .done o.echoed 0) :=
  State.exec_of_effect h rfl (by simp [releaseEffect, hh, State.done])

/-- The frame of an order that ends by bringing the event lists up to date: its own Line Unit is as the touch leaves it but
for the row, the other one as it was. -/
theorem State.orderFrameTo_settle {s e : State} {o : Order} {chans : List Chan} {slots : List Slot} {row : Row}
    (hd : e.device = s.device) (hc : s.sameChannels e chans) (hs : s.sameSlots e slots)
    (hu : e.line o.line = { (s.touch o.line).line o.line with row })
    (ho : e.line (otherLine o.line) = s.line (otherLine o.line)) :
    s.orderFrameTo e.settle o chans slots { s.line o.line with row } := by
  refine ⟨hd, hc, hs, ?_, ?_⟩
  · rw [State.line_settle, hu, State.line_touch_self]
    rfl
  · rw [State.line_settle, ho]
    rfl

/-- A Line Unit whose row is lost to a channel. -/
theorem LineUnit.row_lost (u : LineUnit) (c : Chan) :
    (if u.row.latched = some c then { u with row := .empty } else u)
      = { u with row := if u.row.latched = some c then { latched := none, slots := [], pending := false } else u.row } := by
  split <;> rfl

/-- RELEASE of a HALF_F channel by F. -/
theorem release_halfF {s : State} {o : Order} {row : Row} {h : HalfF} (ha : s.addressed o) (hr : s.rowsOk)
    (hrow : row = if (s.line o.line).row.latched = some o.channel then { latched := none, slots := [], pending := false }
      else (s.line o.line).row) (ho : o.line = .F) (hl : s.life o.channel = .halfF h) :
    ∃ t, exec (.release o) s = .next t ∧ t.answered o .done o.echoed 0
      ∧ s.orderFrameTo t o [o.channel] [h.fixed.timeslot] { s.line o.line with row }
      ∧ t.pool = s.pool ∧ t.link = s.link
      ∧ t.slot h.fixed.timeslot = { s.slot h.fixed.timeslot with entry := .free, source := .idle }
      ∧ t.chan o.channel = { s.chan o.channel with
          life := .free
          continuity := h.continuityAborted (s.chan o.channel).continuity
          eventsF := s.eventsAborted h (s.chan o.channel).eventsF } := by
  have hl1 : (s.touch o.line).life o.channel = .halfF h := by simpa using hl
  have hp1 : (s.touch o.line).pendingOn .F o.channel = false := by
    simpa using hr.not_pendingOn (by simp [hl, Life.lifecycle]) .F
  have hchan := State.chan_releaseHalf_halfF hl1 hp1
  have hslot := State.slot_releaseHalf_halfF hl1 hp1
  have hline := State.line_releaseHalf_halfF hl1
  have hpool := State.pool_releaseHalf_halfF hl1
  rw [← ho] at hchan hslot hline hpool
  refine ⟨_, exec_release ha (by rw [hl, ho]; rfl), State.answered_formReply _ _ _ _ _,
    State.orderFrameTo_formReply (State.orderFrameTo_settle (by simp) ?_ ?_ ?_ ?_) _ _ _, by simp [hpool], by simp, ?_, ?_⟩
  · intro d hd
    have hne : o.channel ≠ d := fun hcd => hd (hcd ▸ List.mem_cons_self)
    rw [hchan, if_neg hne, State.chan_touch]
  · intro x hx
    have hne : h.fixed.timeslot ≠ x := fun hxx => hx (hxx ▸ List.mem_cons_self)
    rw [hslot, if_neg hne, State.slot_touch]
  · rw [hline, hrow, ← State.row_touch s o.line o.line, ← LineUnit.row_lost]
    simp
  · rw [hline, if_neg fun hk => ne_otherLine _ hk.1, State.line_touch_other]
  · rw [State.slot_formReply, State.slot_settle, hslot, if_pos rfl, State.slot_touch]
  · rw [State.chan_formReply, State.chan_settle, hchan, if_pos rfl, State.chan_touch]
    simp [State.eventsAborted]

/-- RELEASE of a HALF_R channel by R. -/
theorem release_halfR {s : State} {o : Order} {row : Row} {h : HalfR} (ha : s.addressed o) (hr : s.rowsOk)
    (hrow : row = if (s.line o.line).row.latched = some o.channel then { latched := none, slots := [], pending := false }
      else (s.line o.line).row) (ho : o.line = .R) (hl : s.life o.channel = .halfR h) :
    ∃ t, exec (.release o) s = .next t ∧ t.answered o .done o.echoed 0
      ∧ s.orderFrameTo t o [o.channel] [] { s.line o.line with row } ∧ t.pool = s.pool ∧ t.link = s.link
      ∧ t.chan o.channel = { s.chan o.channel with life := .free } := by
  have hl1 : (s.touch o.line).life o.channel = .halfR h := by simpa using hl
  have hp1 : (s.touch o.line).pendingOn .R o.channel = false := by
    simpa using hr.not_pendingOn (by simp [hl, Life.lifecycle]) .R
  have hchan := State.chan_releaseHalf_halfR hl1 hp1
  have hslot := State.slot_releaseHalf_halfR hl1 hp1
  have hline := State.line_releaseHalf_halfR hl1
  have hpool := State.pool_releaseHalf_halfR hl1
  rw [← ho] at hchan hslot hline hpool
  refine ⟨_, exec_release ha (by rw [hl, ho]; rfl), State.answered_formReply _ _ _ _ _,
    State.orderFrameTo_formReply (State.orderFrameTo_settle (by simp) ?_ (fun x _ => ?_) ?_ ?_) _ _ _, by simp [hpool],
    by simp, ?_⟩
  · intro d hd
    have hne : o.channel ≠ d := fun hcd => hd (hcd ▸ List.mem_cons_self)
    rw [hchan, if_neg hne, State.chan_touch]
  · rw [hslot, State.slot_touch]
  · rw [hline, hrow, ← State.row_touch s o.line o.line, ← LineUnit.row_lost]
    simp
  · rw [hline, if_neg fun hk => ne_otherLine _ hk.1, State.line_touch_other]
  · rw [State.chan_formReply, State.chan_settle, hchan, if_pos rfl, State.chan_touch]

/-- Settles O32: a half state by the line that holds it, and the refusal of every other line. -/
theorem releaseFreesAHalfState : Obligations.ReleaseFreesAHalfState := by
  refine ⟨fun o s row ha hr hrow => ⟨fun h ho hl => release_halfF ha hr hrow ho hl,
    fun h ho hl => release_halfR ha hr hrow ho hl⟩, fun o s ha hh => ?_⟩
  exact State.refuses_of_effect (body := releaseEffect o.line o.channel) ha rfl (by simp [releaseEffect, hh])

end Sys2Proof.Machine
end

section
/-! SUPPORT. BIND and ATTACH: a half made on a FREE channel, a channel made ACTIVE, and the refusals of both. -/

namespace Sys2Proof.Machine

/-! ### The entry to ACTIVE (R12) -/

/-- The stream fields that an entry makes are the ones R12 states. -/
theorem State.entry_atEntry {s : State} (hc : s.cycle < 160) (c : Chan) (tag : BitVec 14) (fixed : FixedHalf)
    (radio : RadioHalf) : (s.entry c tag fixed radio).atEntry s c := by
  have hb := State.nextAt_spec hc (phase := entryPhase c) (Nat.mod_lt _ (by decide))
  have hi := State.nextAt_spec hc (phase := entryPlayoutPhase c) (Nat.mod_lt _ (by decide))
  exact ⟨rfl, rfl, rfl, rfl, rfl, ⟨_, rfl, hb⟩, hi, rfl, rfl, rfl, rfl, rfl, rfl, rfl, rfl, rfl, rfl, rfl, rfl, rfl, rfl,
    rfl⟩

/-- A context enters ACTIVE alike where the time, the cycle and the core clock stand alike. -/
theorem State.entry_touch (s : State) (l : Line) (c : Chan) (tag : BitVec 14) (fixed : FixedHalf) (radio : RadioHalf) :
    (s.touch l).entry c tag fixed radio = s.entry c tag fixed radio := by
  simp [State.entry, State.nextAt]

theorem Channel.counter_fresh (ch : Channel) (l : Life) (k : Counter) : (ch.fresh l).counter k = 0 := by
  simp [Channel.counter, Channel.fresh]

/-- The frame of an order that touches its Line Unit and no other: the Line Units of its effect are the touched ones. -/
theorem State.orderFrame_of_lines {s e : State} {o : Order} {chans : List Chan} {slots : List Slot}
    (hd : e.device = s.device) (hc : s.sameChannels e chans) (hs : s.sameSlots e slots)
    (hl : ∀ k, e.line k = (s.touch o.line).line k) : s.orderFrame e o chans slots := by
  refine ⟨hd, hc, hs, ?_, ?_⟩
  · rw [hl]
    exact s.sameButTaking_touch o.line
  · rw [hl, State.line_touch_other]
    rfl

/-- The same frame, with the event lists brought up to date at the end. -/
theorem State.orderFrame_settle {s e : State} {o : Order} {chans : List Chan} {slots : List Slot}
    (hd : e.device = s.device) (hc : s.sameChannels e chans) (hs : s.sameSlots e slots)
    (hl : ∀ k, e.line k = (s.touch o.line).line k) : s.orderFrame e.settle o chans slots :=
  State.orderFrameTo_settle hd hc hs (row := (s.line o.line).row)
    (by rw [hl, State.line_touch_self]) (by rw [hl, State.line_touch_other])

/-! ### BIND (R13 to R15) -/

theorem State.slot_bindSlot (s : State) (t x : Slot) (c : Chan) :
    (s.bindSlot t c).slot x = if t = x then { s.slot x with entry := .bound c, source := .idle } else s.slot x := by
  rw [State.bindSlot, State.slot_mapSlot]

/-- The copies that BIND takes from a profile with a mode as its cap (R3, R14). -/
theorem Profile.fixedHalf_eq {p : Profile} {cap : Mode} (h : Mode.ofCode p.cap = some cap) (index : Fin 8) (x : Slot) :
    p.fixedHalf index x =
      { timeslot := x, feed := x, profile := index, cap
        primingDepth := p.primingDepth, hangover := p.hangover, quietInterval := 4 * 2 ^ p.quietCode
        lossToMute := p.lossToMute, gainToFixed := p.gainToFixed, gainToRadio := p.gainToRadio
        quietThreshold := p.quietThreshold } := by
  simp [Profile.fixedHalf, h]

/-- BIND issued on F runs its checks on the touched state. -/
theorem exec_bind {o : Order} (ho : o.line = .F) (x : Slot) (p : Fin 8) (tag : BitVec 14) (s : State) :
    exec (.bind o x p tag) s = .next (takeOrder o true false (echo o) (bindEffect o.channel x p tag) s) := by
  show Host.Outcome.next (takeOrder o o.onF false (echo o) _ s) = _
  rw [Order.onF, ho]
  rfl

/-- BIND of a FREE channel. -/
theorem bind_free {o : Order} {x : Slot} {p : Fin 8} (tag : BitVec 14) {s : State} {cap : Mode} (ha : s.addressed o)
    (ho : o.line = .F) (hl : s.life o.channel = .free) (hx : (s.slot x).entry = .free)
    (hp : (s.profiles[p.val]).state = .valid) (hcap : Mode.ofCode (s.profiles[p.val]).cap = some cap) :
    ∃ t, exec (.bind o x p tag) s = .next t ∧ t.answered o .done o.echoed 0 ∧ s.orderFrame t o [o.channel] [x]
      ∧ t.pool = s.pool ∧ t.link = s.link
      ∧ t.slot x = { s.slot x with entry := .bound o.channel, source := .idle }
      ∧ (∀ k, (t.chan o.channel).counter k = 0)
      ∧ (t.chan o.channel).continuity = { result := .none, delay := 0 }
      ∧ (t.chan o.channel).eventsF = (s.chan o.channel).eventsF
      ∧ (t.chan o.channel).eventsR = (s.chan o.channel).eventsR
      ∧ t.life o.channel = .halfF
        { tag
          timer := s.startedTimer .F
          check := none
          fixed :=
            { timeslot := x, feed := x, profile := p, cap
              primingDepth := (s.profiles[p.val]).primingDepth
              hangover := (s.profiles[p.val]).hangover
              quietInterval := 4 * 2 ^ (s.profiles[p.val]).quietCode
              lossToMute := (s.profiles[p.val]).lossToMute
              gainToFixed := (s.profiles[p.val]).gainToFixed
              gainToRadio := (s.profiles[p.val]).gainToRadio
              quietThreshold := (s.profiles[p.val]).quietThreshold } } := by
  have hb : bindEffect o.channel x p tag (s.touch o.line)
      = ((s.touch o.line).bindFree o.channel x ((s.profiles[p.val]).fixedHalf p x) tag).done := by
    simp [bindEffect, hl, hx, hp]
  have hchan : ∀ d, ((s.touch o.line).bindFree o.channel x ((s.profiles[p.val]).fixedHalf p x) tag).chan d
      = if o.channel = d then
          (s.chan d).fresh (.halfF
            { tag, fixed := (s.profiles[p.val]).fixedHalf p x, timer := s.startedTimer .F, check := none })
        else s.chan d := by
    intro d
    simp [State.bindFree, State.chan_mapChan, State.halfWaitTimer_eq]
  have hslot : ∀ y, ((s.touch o.line).bindFree o.channel x ((s.profiles[p.val]).fixedHalf p x) tag).slot y
      = if x = y then { s.slot y with entry := .bound o.channel, source := .idle } else s.slot y := by
    intro y
    simp [State.bindFree, State.slot_bindSlot]
  refine ⟨_, State.exec_of_effect ha (exec_bind ho x p tag s) hb, State.answered_formReply _ _ _ _ _,
    State.orderFrameTo_formReply (State.orderFrame_of_lines (by simp [State.bindFree]) (fun d hd => ?_) (fun y hy => ?_)
      fun k => by simp [State.bindFree]) _ _ _,
    by simp [State.bindFree], by simp [State.bindFree], ?_, ?_⟩
  · rw [hchan, if_neg (by simpa [eq_comm] using hd)]
  · rw [hslot, if_neg (by simpa [eq_comm] using hy)]
  · rw [State.slot_formReply, hslot, if_pos rfl]
  · rw [State.life_def, State.chan_formReply, hchan, if_pos rfl]
    exact ⟨Channel.counter_fresh _ _, rfl, rfl, rfl, by rw [Profile.fixedHalf_eq hcap]; rfl⟩

/-- BIND of a HALF_R channel with its tag. -/
theorem bind_halfR {o : Order} {x : Slot} {p : Fin 8} {h : HalfR} {s : State} {cap : Mode} (hc : s.cycle < 160)
    (ha : s.addressed o) (ho : o.line = .F) (hl : s.life o.channel = .halfR h) (hx : (s.slot x).entry = .free)
    (hp : (s.profiles[p.val]).state = .valid) (hcap : Mode.ofCode (s.profiles[p.val]).cap = some cap) :
    ∃ t a, exec (.bind o x p h.tag) s = .next t ∧ t.answered o .done o.echoed 0
      ∧ s.orderFrame t o [o.channel] [x] ∧ t.pool = s.pool ∧ t.link = s.link
      ∧ t.slot x = { s.slot x with entry := .bound o.channel, source := .idle }
      ∧ t.chan o.channel = { s.chan o.channel with
          life := .active a, eventsR := s.recordedFor .R .peerAttached (s.chan o.channel).eventsR }
      ∧ a.atEntry s o.channel ∧ a.tag = h.tag
      ∧ a.fixed =
        { timeslot := x, feed := x, profile := p, cap
          primingDepth := (s.profiles[p.val]).primingDepth
          hangover := (s.profiles[p.val]).hangover
          quietInterval := 4 * 2 ^ (s.profiles[p.val]).quietCode
          lossToMute := (s.profiles[p.val]).lossToMute
          gainToFixed := (s.profiles[p.val]).gainToFixed
          gainToRadio := (s.profiles[p.val]).gainToRadio
          quietThreshold := (s.profiles[p.val]).quietThreshold }
      ∧ a.radio = { h.radio with active := Mode.derive h.radio.modeSet h.radio.requested cap } := by
  obtain ⟨fixed, hfixed⟩ : ∃ fixed, fixed = (s.profiles[p.val]).fixedHalf p x := ⟨_, rfl⟩
  obtain ⟨e, he⟩ : ∃ e, e = (((s.touch o.line).bindSlot x o.channel).setLife o.channel
      (.active (s.entry o.channel h.tag fixed (h.radio.derived fixed.cap)))).record o.channel .R .peerAttached := ⟨_, rfl⟩
  have hb : bindEffect o.channel x p h.tag (s.touch o.line) = e.settle.done := by
    rw [he, ← State.entry_touch s o.line]
    simp [bindEffect, hl, hx, hp, hfixed, State.bindHalfR]
  have hchan : ∀ d, e.chan d = if o.channel = d then
      { s.chan d with
        life := .active (s.entry o.channel h.tag fixed (h.radio.derived fixed.cap))
        eventsR := s.recordedFor .R .peerAttached (s.chan d).eventsR } else s.chan d := by
    intro d
    rw [he, State.chan_record, State.chan_setLife, State.chan_bindSlot, State.chan_touch,
      State.recordedFor_of_settings (s := s) (by simp)]
    split <;> rfl
  have hslot : ∀ y, e.slot y
      = if x = y then { s.slot y with entry := .bound o.channel, source := .idle } else s.slot y := by
    intro y
    simp [he, State.slot_bindSlot]
  refine ⟨_, s.entry o.channel h.tag fixed (h.radio.derived fixed.cap),
    State.exec_of_effect ha (exec_bind ho x p h.tag s) hb, State.answered_formReply _ _ _ _ _,
    State.orderFrameTo_formReply (State.orderFrame_settle (by simp [he]) (fun d hd => ?_) (fun y hy => ?_)
      fun k => by simp [he]) _ _ _,
    by simp [he], by simp [he], ?_, ?_, State.entry_atEntry hc _ _ _ _, rfl, ?_, ?_⟩
  · rw [hchan, if_neg (by simpa [eq_comm] using hd)]
  · rw [hslot, if_neg (by simpa [eq_comm] using hy)]
  · rw [State.slot_formReply, State.slot_settle, hslot, if_pos rfl]
  · rw [State.chan_formReply, State.chan_settle, hchan, if_pos rfl]
  · exact hfixed.trans (Profile.fixedHalf_eq hcap p x)
  · rw [hfixed, Profile.fixedHalf_eq hcap]
    rfl

/-- The F line holds a half in HALF_F and ACTIVE (R3). -/
theorem Life.holds_F {l : Life} (h : l.holds .F = true) : (∃ x, l = .halfF x) ∨ ∃ a, l = .active a := by
  cases l with
  | halfF x => exact .inl ⟨x, rfl⟩
  | active a => exact .inr ⟨a, rfl⟩
  | free | halfR _ => cases h

/-- The R line holds a half in HALF_R and ACTIVE (R4). -/
theorem Life.holds_R {l : Life} (h : l.holds .R = true) : (∃ x, l = .halfR x) ∨ ∃ a, l = .active a := by
  cases l with
  | halfR x => exact .inl ⟨x, rfl⟩
  | active a => exact .inr ⟨a, rfl⟩
  | free | halfF _ => cases h

/-- The R line holds no half in FREE and HALF_F (R4). -/
theorem Life.not_holds_R {l : Life} (h : l.holds .R = false) : l = .free ∨ ∃ x, l = .halfF x := by
  cases l with
  | free => exact .inl rfl
  | halfF x => exact .inr ⟨x, rfl⟩
  | halfR _ | active _ => cases h

/-- The refusals of BIND on F, each with the checks before it passed. -/
theorem bind_refused {o : Order} {s : State} (x : Slot) (p : Fin 8) (tag : BitVec 14) (ha : s.addressed o)
    (ho : o.line = .F) {r : Result}
    (hb : bindEffect o.channel x p tag (s.touch o.line) = (s.touch o.line).refuse r) :
    s.refuses (.bind o x p tag) o r o.echoed :=
  State.refuses_of_effect ha (exec_bind ho x p tag s) hb

/-- Settles O30: the two makings, and the refusals in the order of R13. -/
theorem bindMakesTheFixedHalf : Obligations.BindMakesTheFixedHalf := by
  refine ⟨fun o x p tag s cap ha ho hl hx hp hcap => bind_free tag ha ho hl hx hp hcap,
    fun o x p h s cap hc ha ho hl hx hp hcap => bind_halfR hc ha ho hl hx hp hcap,
    fun o x p tag s ha => ⟨fun ho => ?_, fun ho => ⟨fun hh => ?_, fun h hl ht => ?_, fun hl => ⟨fun hx => ?_,
      fun hx hp => ?_⟩⟩⟩⟩
  · refine State.refuses_of_not_owned (broadcast := false) (body := bindEffect o.channel x p tag) ha ?_
    show Host.Outcome.next (takeOrder o o.onF false (echo o) _ s) = _
    rw [Order.onF, ho]
    rfl
  · refine bind_refused x p tag ha ho ?_
    rcases Life.holds_F hh with ⟨x, hl⟩ | ⟨a, hl⟩ <;> simp [bindEffect, hl]
  · exact bind_refused x p tag ha ho (by simp [bindEffect, hl, ht])
  · refine bind_refused x p tag ha ho ?_
    rcases hl with hl | ⟨h, hl, rfl⟩ <;> simp [bindEffect, hl, hx]
  · refine bind_refused x p tag ha ho ?_
    rcases hl with hl | ⟨h, hl, rfl⟩ <;> simp [bindEffect, hl, hx, hp]

/-! ### ATTACH (R16 to R18) -/

/-- ATTACH issued on R runs its checks on the touched state. -/
theorem exec_attach {o : Order} (ho : o.line = .R) (modeSet : BitVec 3) (requested : BitVec 2) (tag : BitVec 14)
    (s : State) :
    exec (.attach o modeSet requested tag) s
      = .next (takeOrder o true false (echo o) (attachEffect o.channel modeSet requested tag) s) := by
  show Host.Outcome.next (takeOrder o o.onR false (echo o) _ s) = _
  rw [Order.onR, ho]
  rfl

/-- ATTACH of a FREE channel. -/
theorem attach_free {o : Order} {modeSet : BitVec 3} {requested : BitVec 2} {m : Mode} {s : State} (tag : BitVec 14)
    (ha : s.addressed o) (ho : o.line = .R) (hm : Mode.ofCode requested.toNat = some m) (hs : Mode.m16.inSet modeSet = true)
    (hl : s.life o.channel = .free) :
    ∃ t, exec (.attach o modeSet requested tag) s = .next t ∧ s.orderFrame t o [o.channel] []
      ∧ t.answered o .done o.echoed (BitVec.ofNat 24 (Mode.derive modeSet m .m32).code)
      ∧ t.pool = s.pool ∧ t.link = s.link ∧ (∀ k, (t.chan o.channel).counter k = 0)
      ∧ (t.chan o.channel).continuity = { result := .none, delay := 0 }
      ∧ (t.chan o.channel).eventsF = (s.chan o.channel).eventsF
      ∧ (t.chan o.channel).eventsR = (s.chan o.channel).eventsR
      ∧ t.life o.channel = .halfR
        { tag, timer := s.startedTimer .R
          radio := { modeSet, requested := m, dtx := false, offset := 0, active := Mode.derive modeSet m .m32 } } := by
  have hb : attachEffect o.channel modeSet requested tag (s.touch o.line) =
      { state := (s.touch o.line).attachFree o.channel (attachRadio modeSet m .m32) tag, result := .done
        data := BitVec.ofNat 24 (Mode.derive modeSet m .m32).code } := by
    simp [attachEffect, hl, hm, hs, attachRadio]
  have hchan : ∀ d, ((s.touch o.line).attachFree o.channel (attachRadio modeSet m .m32) tag).chan d
      = if o.channel = d then
          (s.chan d).fresh (.halfR { tag, radio := attachRadio modeSet m .m32, timer := s.startedTimer .R })
        else s.chan d := by
    intro d
    simp [State.attachFree, State.chan_mapChan, State.halfWaitTimer_eq]
  refine ⟨_, State.exec_of_effect ha (exec_attach ho modeSet requested tag s) hb,
    State.orderFrameTo_formReply (State.orderFrame_of_lines (by simp [State.attachFree]) (fun d hd => ?_)
      (fun y _ => by simp [State.attachFree]) fun k => by simp [State.attachFree]) _ _ _,
    State.answered_formReply _ _ _ _ _, by simp [State.attachFree], by simp [State.attachFree], ?_⟩
  · rw [hchan, if_neg (by simpa [eq_comm] using hd)]
  · rw [State.life_def, State.chan_formReply, hchan, if_pos rfl]
    exact ⟨Channel.counter_fresh _ _, rfl, rfl, rfl, rfl⟩

/-- ATTACH of a HALF_F channel with its tag. -/
theorem attach_halfF {o : Order} {modeSet : BitVec 3} {requested : BitVec 2} {m : Mode} {s : State} {h : HalfF}
    (ha : s.addressed o) (ho : o.line = .R) (hm : Mode.ofCode requested.toNat = some m) (hs : Mode.m16.inSet modeSet = true)
    (hc : s.cycle < 160) (hl : s.life o.channel = .halfF h) :
    ∃ t a, exec (.attach o modeSet requested h.tag) s = .next t
      ∧ s.orderFrame t o [o.channel] [h.fixed.timeslot]
      ∧ t.answered o .done o.echoed (BitVec.ofNat 24 (Mode.derive modeSet m h.fixed.cap).code)
      ∧ t.pool = s.pool ∧ t.link = s.link ∧ a.atEntry s o.channel ∧ a.tag = h.tag ∧ a.fixed = h.fixed
      ∧ a.radio =
        { modeSet, requested := m, dtx := false, offset := 0, active := Mode.derive modeSet m h.fixed.cap }
      ∧ t.slot h.fixed.timeslot
        = (if h.check ≠ none then { s.slot h.fixed.timeslot with source := .idle } else s.slot h.fixed.timeslot)
      ∧ t.chan o.channel = { s.chan o.channel with
          life := .active a
          continuity := h.continuityAborted (s.chan o.channel).continuity
          eventsF := s.recordedFor .F .peerAttached (s.eventsAborted h (s.chan o.channel).eventsF) } := by
  obtain ⟨radio, hradio⟩ : ∃ radio, radio = attachRadio modeSet m h.fixed.cap := ⟨_, rfl⟩
  obtain ⟨e, he⟩ : ∃ e, e = (((s.touch o.line).abortCheck o.channel h).setLife o.channel
      (.active (((s.touch o.line).entry o.channel h.tag h.fixed radio)))).record o.channel .F .peerAttached := ⟨_, rfl⟩
  have hb : attachEffect o.channel modeSet requested h.tag (s.touch o.line) =
      { state := e.settle, result := .done, data := BitVec.ofNat 24 (Mode.derive modeSet m h.fixed.cap).code } := by
    simp [attachEffect, hl, hm, hs, he, hradio, State.attachHalfF, attachRadio]
  have hchan : ∀ d, e.chan d = if o.channel = d then
      { s.chan d with
        life := .active (s.entry o.channel h.tag h.fixed radio)
        continuity := h.continuityAborted (s.chan d).continuity
        eventsF := s.recordedFor .F .peerAttached (s.eventsAborted h (s.chan d).eventsF) } else s.chan d := by
    intro d
    rw [he, State.chan_record, State.chan_setLife, State.chan_abortCheck (by simpa using hl), State.chan_touch,
      State.recordedFor_of_settings (s := s) (by simp), State.entry_touch]
    split
    · simp [State.eventsAborted, Channel.setEvents, Channel.events]
    · rfl
  have hslot : ∀ y, e.slot y
      = if h.check ≠ none ∧ h.fixed.timeslot = y then { s.slot y with source := .idle } else s.slot y := by
    intro y
    rw [he, State.slot_record, State.slot_setLife, State.slot_abortCheck, State.slot_touch]
  refine ⟨_, s.entry o.channel h.tag h.fixed radio,
    State.exec_of_effect ha (exec_attach ho modeSet requested h.tag s) hb,
    State.orderFrameTo_formReply (State.orderFrame_settle (by simp [he]) (fun d hd => ?_) (fun y hy => ?_)
      fun k => by simp [he]) _ _ _,
    State.answered_formReply _ _ _ _ _, by simp [he], by simp [he], State.entry_atEntry hc _ _ _ _, rfl, rfl, hradio,
    ?_, ?_⟩
  · rw [hchan, if_neg (by simpa [eq_comm] using hd)]
  · have hne : h.fixed.timeslot ≠ y := by simpa [eq_comm] using hy
    rw [hslot, if_neg fun hxy => hne hxy.2]
  · rw [State.slot_formReply, State.slot_settle, hslot]
    simp
  · rw [State.chan_formReply, State.chan_settle, hchan, if_pos rfl]

/-- The refusals of ATTACH on R, each with the checks before it passed. -/
theorem attach_refused {o : Order} {s : State} (modeSet : BitVec 3) (requested : BitVec 2) (tag : BitVec 14)
    (ha : s.addressed o) (ho : o.line = .R) {r : Result}
    (hb : attachEffect o.channel modeSet requested tag (s.touch o.line) = (s.touch o.line).refuse r) :
    s.refuses (.attach o modeSet requested tag) o r o.echoed :=
  State.refuses_of_effect ha (exec_attach ho modeSet requested tag s) hb

/-- Every requested code but 0 names a mode. -/
theorem ofCode_requested (requested : BitVec 2) : Mode.ofCode requested.toNat = none ↔ requested = 0 := by
  revert requested
  decide

/-- Settles O31: the two makings, and the refusals in the order of R16. -/
theorem attachMakesTheRadioHalf : Obligations.AttachMakesTheRadioHalf := by
  refine ⟨fun o modeSet requested m s ha ho hm hs => ⟨fun tag hl => attach_free tag ha ho hm hs hl, fun h hc hl => ?_⟩,
    fun o modeSet requested tag s ha => ⟨fun ho => ?_, fun ho => ⟨fun hh => ?_, fun hh hbad => ?_,
      fun h hl hs hq ht => ?_⟩⟩⟩
  · obtain ⟨t, a, hx, hf, hr, hp, hk, hen, htag, hfix, hrad, hslot, hchan⟩ := attach_halfF ha ho hm hs hc hl
    refine ⟨t, a, hx, hf, hr, hp, hk, hen, htag, hfix, hrad, fun hn => ?_, fun hn => ?_⟩
    · rw [hslot, hchan, if_neg (not_not.mpr hn)]
      simp [HalfF.continuityAborted, State.eventsAborted, hn]
    · rw [hslot, hchan, if_pos hn]
      simp [HalfF.continuityAborted, State.eventsAborted, hn]
  · refine State.refuses_of_not_owned (broadcast := false) (body := attachEffect o.channel modeSet requested tag) ha ?_
    show Host.Outcome.next (takeOrder o o.onR false (echo o) _ s) = _
    rw [Order.onR, ho]
    rfl
  · refine attach_refused modeSet requested tag ha ho ?_
    rcases Life.holds_R hh with ⟨x, hl⟩ | ⟨a, hl⟩ <;> simp [attachEffect, hl]
  · refine attach_refused modeSet requested tag ha ho ?_
    cases hm : Mode.ofCode requested.toNat with
    | none => rcases Life.not_holds_R hh with hl | ⟨x, hl⟩ <;> simp [attachEffect, hl, hm]
    | some m =>
      have hs : Mode.m16.inSet modeSet = false := hbad.resolve_right fun h0 => by
        rw [(ofCode_requested requested).mpr h0] at hm
        cases hm
      rcases Life.not_holds_R hh with hl | ⟨x, hl⟩ <;> simp [attachEffect, hl, hm, hs]
  · refine attach_refused modeSet requested tag ha ho ?_
    cases hm : Mode.ofCode requested.toNat with
    | none => exact absurd ((ofCode_requested requested).mp hm) hq
    | some m =>
      have hs : Mode.m16.inSet modeSet = true := hs
      simp [attachEffect, hl, hm, hs, ht]

end Sys2Proof.Machine
end

section
/-! SUPPORT. What the apply of a row does between two points: on any channel, what it leaves; on a channel in a half state,
the half and the timeslots as State.leftWithRow states them. -/

namespace Sys2Proof.Machine

/-! ### The items of a row -/

theorem Row.timeslot?_eq_none {r : Row} : r.timeslot? = none ↔ ∀ v, (Item.timeslot, v) ∉ r.slots := by
  simp only [Row.timeslot?, Option.map_eq_none_iff, List.find?_eq_none, decide_eq_true_eq]
  exact ⟨fun h v hv => h _ hv rfl, fun h p hp hpt => h p.2 (hpt ▸ hp)⟩

theorem Row.timeslot?_eq_some {r : Row} {x : Slot} (h : r.timeslot? = some x) :
    ∃ v, (Item.timeslot, v) ∈ r.slots ∧ Fin.ofNat 128 v.toNat = x := by
  obtain ⟨p, hp, rfl⟩ := Option.map_eq_some_iff.mp h
  have hpt : p.1 = .timeslot := by simpa using List.find?_some hp
  exact ⟨p.2, hpt ▸ List.mem_of_find?_eq_some hp, rfl⟩

/-- A row of distinct items names the timeslot of its TIMESLOT item. -/
theorem Row.timeslot?_of_mem {r : Row} (hn : (r.slots.map (·.1)).Nodup) {v : BitVec 16}
    (hv : (Item.timeslot, v) ∈ r.slots) : r.timeslot? = some (Fin.ofNat 128 v.toNat) := by
  cases ht : r.timeslot? with
  | none => exact absurd hv (Row.timeslot?_eq_none.mp ht v)
  | some x =>
    obtain ⟨w, hw, rfl⟩ := Row.timeslot?_eq_some ht
    have hwv : (Item.timeslot, w) = (Item.timeslot, v) := List.inj_on_of_nodup_map hn hw hv rfl
    rw [(Prod.mk.inj hwv).2]

/-- A well-formed row that is latched holds distinct items of its line. -/
theorem Row.ok.items {r : Row} {l : Line} {c : Chan} (h : r.ok l) (hc : r.latched = some c) :
    (r.slots.map (·.1)).Nodup ∧ ∀ p ∈ r.slots, p.1.line = l := by
  unfold Row.ok at h
  rw [hc] at h
  exact h.2

/-- A well-formed row of the R line names no timeslot. -/
theorem Row.ok.timeslot?_R {r : Row} (h : r.ok .R) : r.timeslot? = none := by
  rw [Row.timeslot?_eq_none]
  intro v hv
  unfold Row.ok at h
  split at h
  · rw [h.1] at hv
    cases hv
  · exact nomatch h.2.2 _ hv

/-- The items of the F line leave the active mode as it is. -/
theorem Row.changesMode_of_F {r : Row} (h : ∀ p ∈ r.slots, p.1.line = .F) : r.changesMode = false := by
  rw [Bool.eq_false_iff]
  intro hm
  obtain ⟨v, hv | hv⟩ := r.changesMode_iff.mp hm
  · exact nomatch h _ hv
  · exact nomatch h _ hv

theorem FixedHalf.item_own_timeslot {f : FixedHalf} {v : BitVec 16} (h : f.timeslot = Fin.ofNat 128 v.toNat) :
    f.item (.timeslot, v) = f :=
  if_pos h

theorem FixedHalf.item_new_timeslot {f : FixedHalf} {v : BitVec 16} (h : f.timeslot ≠ Fin.ofNat 128 v.toNat) :
    f.item (.timeslot, v)
      = { f with timeslot := Fin.ofNat 128 v.toNat, feed := Fin.ofNat 128 v.toNat } :=
  if_neg h

/-- What one item of an F row makes of a fixed half between two points: the octets of the present sample time stay where
they are (R54). -/
def FixedHalf.itemBetween (f : FixedHalf) (p : Item × BitVec 16) : FixedHalf := { f.item p with feed := f.feed }

/-- The feed has no part in what the items make of the other fields. -/
theorem FixedHalf.foldl_item_feed (l : List (Item × BitVec 16)) (f : FixedHalf) (x y : Slot) :
    { l.foldl FixedHalf.item { f with feed := x } with feed := y } = { l.foldl FixedHalf.item f with feed := y } := by
  induction l generalizing f x with
  | nil => rfl
  | cons p l ih =>
    have hz : ∃ z, ({ f with feed := x } : FixedHalf).item p = { f.item p with feed := z } := by
      obtain ⟨i, v⟩ := p
      cases i with
      | timeslot =>
        by_cases ht : f.timeslot = Fin.ofNat 128 v.toNat
        · rw [FixedHalf.item_own_timeslot ht, FixedHalf.item_own_timeslot (by exact ht)]
          exact ⟨x, rfl⟩
        · rw [FixedHalf.item_new_timeslot ht, FixedHalf.item_new_timeslot (by exact ht)]
          exact ⟨_, rfl⟩
      | _ => exact ⟨x, rfl⟩
    obtain ⟨z, hz⟩ := hz
    rw [List.foldl_cons, List.foldl_cons, hz, ih]

theorem FixedHalf.foldl_itemBetween (l : List (Item × BitVec 16)) (f : FixedHalf) :
    l.foldl FixedHalf.itemBetween f = { l.foldl FixedHalf.item f with feed := f.feed } := by
  induction l generalizing f with
  | nil => rfl
  | cons p l ih =>
    rw [List.foldl_cons, List.foldl_cons, ih]
    exact FixedHalf.foldl_item_feed l (f.item p) f.feed f.feed

/-- The timeslot of a fixed half once a row of distinct items has been applied: the one the row names, else its own. -/
theorem FixedHalf.foldl_item_names (r : Row) (hn : (r.slots.map (·.1)).Nodup) (f : FixedHalf) :
    (r.slots.foldl FixedHalf.item f).timeslot = r.timeslot?.getD f.timeslot := by
  have hg : r.gives .timeslot (fun v => Fin.ofNat 128 v.toNat) f.timeslot
      (r.slots.foldl FixedHalf.item f).timeslot := by
    refine Row.gives_foldl r hn FixedHalf.item (·.timeslot) .timeslot (fun _ v => Fin.ofNat 128 v.toNat) ?_ ?_ f
    · intro g v
      by_cases ht : g.timeslot = Fin.ofNat 128 v.toNat
      · rw [FixedHalf.item_own_timeslot ht, ht]
      · rw [FixedHalf.item_new_timeslot ht]
    · intro g k v hk
      cases k with
      | timeslot => exact absurd rfl hk
      | _ => rfl
  obtain ⟨hin, hout⟩ := hg
  cases ht : r.timeslot? with
  | none => exact hout (Row.timeslot?_eq_none.mp ht)
  | some x =>
    obtain ⟨v, hv, rfl⟩ := Row.timeslot?_eq_some ht
    exact hin v hv

/-- An F row applied to a fixed half between two points sets it (R146). -/
theorem Row.setsFixed_foldl_itemBetween (r : Row) (hn : (r.slots.map (·.1)).Nodup) (f : FixedHalf) :
    r.setsFixed f (r.slots.foldl FixedHalf.itemBetween f) := by
  rw [FixedHalf.foldl_itemBetween]
  obtain ⟨hrest, hfixed, hradio, hquiet⟩ := Row.setsFixed_foldl r hn f
  refine ⟨?_, hfixed, hradio, hquiet⟩
  conv_lhs => rw [hrest]

/-! ### One item on the state -/

theorem State.chan_moveTimeslot_ne (s : State) {c d : Chan} (h : c ≠ d) (pt : Bool) (x : Slot) :
    (s.moveTimeslot c pt x).chan d = s.chan d := by
  cases hf : (s.life c).fixed? with
  | none => simp [State.moveTimeslot, hf]
  | some f =>
    by_cases hx : f.timeslot = x
    · rw [← hx, State.moveTimeslot_own s c pt f hf]
    · rw [State.chan_moveTimeslot s c d pt f x hf hx, if_neg h]

theorem State.chan_applySlot_ne (s : State) {c d : Chan} (h : c ≠ d) (pt : Bool) (p : Item × BitVec 16) :
    (State.applySlot c pt s p).chan d = s.chan d := by
  unfold State.applySlot
  split
  · exact s.chan_moveTimeslot_ne h pt _
  · exact s.chan_mapChan_ne h _

/-- An item changes nothing of its channel's context but the life. -/
theorem State.chan_applySlot_self (s : State) (c : Chan) (pt : Bool) (p : Item × BitVec 16) :
    (State.applySlot c pt s p).chan c = { s.chan c with life := (State.applySlot c pt s p).life c } := by
  rw [State.life_def]
  unfold State.applySlot
  split
  · cases hf : (s.life c).fixed? with
    | none => simp [State.moveTimeslot, hf]
    | some f =>
      by_cases hx : f.timeslot = Fin.ofNat 128 p.2.toNat
      · rw [← hx, State.moveTimeslot_own s c pt f hf]
      · rw [State.chan_moveTimeslot s c c pt f _ hf hx, if_pos rfl]
  · rw [State.chan_mapChan_self]

/-- An item of the F line on a HALF_F channel between two points. -/
theorem State.life_applySlot_halfF {s : State} {c : Chan} {h : HalfF} (hl : s.life c = .halfF h)
    {p : Item × BitVec 16} (hp : p.1.line = .F) :
    (State.applySlot c false s p).life c = .halfF { h with fixed := h.fixed.itemBetween p } := by
  have hf : (s.life c).fixed? = some h.fixed := by rw [hl]; rfl
  have hc : (s.chan c).life = .halfF h := hl
  obtain ⟨i, v⟩ := p
  cases i with
  | timeslot =>
    show (s.moveTimeslot c false (Fin.ofNat 128 v.toNat)).life c = _
    by_cases hx : h.fixed.timeslot = Fin.ofNat 128 v.toNat
    · rw [← hx, State.moveTimeslot_own s c false h.fixed hf, hl]
      rw [FixedHalf.itemBetween, FixedHalf.item_own_timeslot hx]
    · rw [State.life_def, State.chan_moveTimeslot s c c false h.fixed _ hf hx, if_pos rfl, hl]
      rw [FixedHalf.itemBetween, FixedHalf.item_new_timeslot hx]
      rfl
  | gainToFixed | gainToRadio | quietThreshold =>
    simp only [State.life_def, State.applySlot, State.chan_mapChan_self, hc]
    rfl
  | mode | modeSet | align | dtx => exact nomatch hp

/-- An item of the R line on a HALF_R channel. -/
theorem State.life_applySlot_halfR {s : State} {c : Chan} {h : HalfR} (hl : s.life c = .halfR h) (pt : Bool)
    {p : Item × BitVec 16} (hp : p.1.line = .R) :
    (State.applySlot c pt s p).life c = .halfR { h with radio := h.radio.item p } := by
  have hc : (s.chan c).life = .halfR h := hl
  obtain ⟨i, v⟩ := p
  cases i with
  | mode | modeSet | align | dtx =>
    simp only [State.life_def, State.applySlot, State.chan_mapChan_self, hc]
    rfl
  | timeslot | gainToFixed | gainToRadio | quietThreshold => exact nomatch hp

theorem State.life_foldl_applySlot_halfF {c : Chan} (items : List (Item × BitVec 16)) (hi : ∀ p ∈ items, p.1.line = .F)
    {s : State} {h : HalfF} (hl : s.life c = .halfF h) :
    (items.foldl (State.applySlot c false) s).life c
      = .halfF { h with fixed := items.foldl FixedHalf.itemBetween h.fixed } := by
  induction items generalizing s h with
  | nil => exact hl
  | cons p items ih =>
    rw [List.foldl_cons, ih (fun q hq => hi q (List.mem_cons_of_mem _ hq))
      (State.life_applySlot_halfF hl (hi p List.mem_cons_self))]
    rfl

theorem State.life_foldl_applySlot_halfR {c : Chan} (items : List (Item × BitVec 16)) (hi : ∀ p ∈ items, p.1.line = .R)
    (pt : Bool) {s : State} {h : HalfR} (hl : s.life c = .halfR h) :
    (items.foldl (State.applySlot c pt) s).life c
      = .halfR { h with radio := items.foldl RadioHalf.item h.radio } := by
  induction items generalizing s h with
  | nil => exact hl
  | cons p items ih =>
    rw [List.foldl_cons, ih (fun q hq => hi q (List.mem_cons_of_mem _ hq))
      (State.life_applySlot_halfR hl pt (hi p List.mem_cons_self))]
    rfl

/-! ### A row written -/

/-- A row's items written into a channel, and the active mode derived afresh where one of them asks for it
(R144 steps 1 and 2). -/
def State.written (s : State) (r : Row) (c : Chan) (pt : Bool) : State :=
  if r.changesMode = true then
    (r.slots.foldl (State.applySlot c pt) s).mapChan c fun ch => { ch with life := ch.life.rederived }
  else r.slots.foldl (State.applySlot c pt) s

/-- The apply of a PENDING row: the row written, COMMIT_APPLIED recorded, the row EMPTY (R144). -/
theorem State.applyPending_of_pending {s : State} {l : Line} {c : Chan} (h : s.pendingOn l c = true) (pt : Bool) :
    s.applyPending l c pt
      = ((s.written (s.line l).row c pt).record c l .commitApplied).mapLine l fun u => { u with row := .empty } := by
  have hc := ((s.pendingOn_iff l c).mp h).2
  simp only [State.applyPending, h, if_true, State.applyRow, hc, State.written]

theorem State.applyPending_of_not_pending {s : State} {l : Line} {c : Chan} (h : s.pendingOn l c = false) (pt : Bool) :
    s.applyPending l c pt = s := by
  simp [State.applyPending, h]

@[simp] theorem State.line_written (s : State) (r : Row) (c : Chan) (pt : Bool) (k : Line) :
    (s.written r c pt).line k = s.line k := by
  have hk : (r.slots.foldl (State.applySlot c pt) s).line k = s.line k :=
    foldl_keeps (fun s : State => s.line k) _ (fun s i => State.line_applySlot s c pt i k) _ s
  unfold State.written
  split <;> simp [hk]

theorem State.chan_written_ne (s : State) (r : Row) {c d : Chan} (h : c ≠ d) (pt : Bool) :
    (s.written r c pt).chan d = s.chan d := by
  have hk : (r.slots.foldl (State.applySlot c pt) s).chan d = s.chan d :=
    foldl_keeps (fun s : State => s.chan d) _ (fun s i => State.chan_applySlot_ne s h pt i) _ s
  unfold State.written
  split
  · rw [State.chan_mapChan_ne _ h, hk]
  · exact hk

/-- A row changes nothing of its channel's context but the life. -/
theorem State.chan_written_self (s : State) (r : Row) (c : Chan) (pt : Bool) :
    (s.written r c pt).chan c = { s.chan c with life := (s.written r c pt).life c } := by
  have hk : ∀ (items : List (Item × BitVec 16)) (s : State), (items.foldl (State.applySlot c pt) s).chan c
      = { s.chan c with life := (items.foldl (State.applySlot c pt) s).life c } := by
    intro items
    induction items with
    | nil => exact fun s => rfl
    | cons p items ih =>
      intro s
      rw [List.foldl_cons, ih, State.chan_applySlot_self]
  rw [State.life_def]
  unfold State.written
  split
  · rw [State.chan_mapChan_self, hk]
  · exact hk _ _

theorem State.slot_written (s : State) {r : Row} (h : r.timeslot? = none) (c : Chan) (pt : Bool) (x : Slot) :
    (s.written r c pt).slot x = s.slot x := by
  have hk := State.slot_foldl_applySlot (c := c) (pt := pt) r.slots
    (fun p hp hpt => Row.timeslot?_eq_none.mp h p.2 (hpt ▸ hp)) s x
  unfold State.written
  split <;> simp [hk]

/-- An R row on a HALF_R channel. -/
theorem State.life_written_halfR {s : State} {r : Row} {c : Chan} {h : HalfR} (hl : s.life c = .halfR h)
    (hi : ∀ p ∈ r.slots, p.1.line = .R) (pt : Bool) :
    (s.written r c pt).life c = .halfR { h with radio :=
      (if r.changesMode = true then (r.slots.foldl RadioHalf.item h.radio).derived .m32
      else r.slots.foldl RadioHalf.item h.radio) } := by
  have hk := State.life_foldl_applySlot_halfR r.slots hi pt hl
  unfold State.written
  split
  · rw [State.life_def, State.chan_mapChan_self, ← State.life_def, hk]
    rfl
  · exact hk

/-- An F row on a HALF_F channel between two points. -/
theorem State.life_written_halfF {s : State} {r : Row} {c : Chan} {h : HalfF} (hl : s.life c = .halfF h)
    (hi : ∀ p ∈ r.slots, p.1.line = .F) :
    (s.written r c false).life c = .halfF { h with fixed := r.slots.foldl FixedHalf.itemBetween h.fixed } := by
  unfold State.written
  rw [if_neg (by simp [Row.changesMode_of_F hi])]
  exact State.life_foldl_applySlot_halfF r.slots hi hl

/-- The timeslots once an F row has been written into a HALF_F channel between two points: as the one move to the timeslot
that the row names leaves them (R54, R145). -/
theorem State.slot_written_halfF {s : State} {r : Row} {c : Chan} {h : HalfF} (hl : s.life c = .halfF h)
    (hi : ∀ p ∈ r.slots, p.1.line = .F) (hn : (r.slots.map (·.1)).Nodup) (x : Slot) :
    (s.written r c false).slot x = (s.moveTimeslot c false (r.timeslot?.getD h.fixed.timeslot)).slot x := by
  have hf : (s.life c).fixed? = some h.fixed := by rw [hl]; rfl
  cases ht : r.timeslot? with
  | none => rw [State.slot_written s ht, Option.getD_none, State.moveTimeslot_own s c false h.fixed hf]
  | some y =>
    obtain ⟨v, hv, hvy⟩ := Row.timeslot?_eq_some ht
    obtain ⟨before, after, hs⟩ := List.append_of_mem hv
    rw [hs] at hn hi
    rw [List.map_append, List.map_cons, List.nodup_append] at hn
    obtain ⟨-, hnafter, hnbefore⟩ := hn
    have hbefore : ∀ p ∈ before, p.1 ≠ .timeslot := fun p hp hpt =>
      hnbefore p.1 (List.mem_map_of_mem hp) .timeslot List.mem_cons_self hpt
    have hafter : ∀ p ∈ after, p.1 ≠ .timeslot := fun p hp hpt =>
      (List.nodup_cons.mp hnafter).1 (List.mem_map.mpr ⟨p, hp, hpt⟩)
    obtain ⟨u, hu⟩ : ∃ u, u = before.foldl (State.applySlot c false) s := ⟨_, rfl⟩
    have huslot : ∀ z, u.slot z = s.slot z := fun z => hu ▸ State.slot_foldl_applySlot before hbefore s z
    have hulife := State.life_foldl_applySlot_halfF before (fun p hp => hi p (List.mem_append_left _ hp)) hl
    rw [← hu] at hulife
    obtain ⟨g, hg⟩ : ∃ g, g = before.foldl FixedHalf.itemBetween h.fixed := ⟨_, rfl⟩
    have huf : (u.life c).fixed? = some g := by rw [hulife, hg]; rfl
    have hgt : g.timeslot = h.fixed.timeslot := by
      rw [hg, FixedHalf.foldl_itemBetween]
      exact (FixedHalf.foldl_item_timeslot before h.fixed hbefore).1
    have hw : (s.written r c false).slot x = (u.moveTimeslot c false y).slot x := by
      unfold State.written
      rw [if_neg (by rw [Row.changesMode_of_F (hs ▸ hi)]; decide), hs, List.foldl_append, List.foldl_cons,
        State.slot_foldl_applySlot after hafter, ← hu, ← hvy]
      rfl
    rw [hw, Option.getD_some]
    by_cases hy : h.fixed.timeslot = y
    · rw [← hy, State.moveTimeslot_own s c false h.fixed hf, ← hgt, State.moveTimeslot_own u c false g huf, huslot]
    · rw [State.slot_moveTimeslot s c false h.fixed y x hf hy,
        State.slot_moveTimeslot u c false g y x huf (hgt ▸ hy), hgt]
      simp only [huslot]

/-! ### What the apply of a pending row leaves -/

theorem State.line_applyPending (s : State) (l k : Line) (c : Chan) (pt : Bool) :
    (s.applyPending l c pt).line k
      = if l = k ∧ s.pendingOn l c = true then { s.line k with row := .empty } else s.line k := by
  cases h : s.pendingOn l c with
  | false => simp [State.applyPending_of_not_pending h]
  | true =>
    rw [State.applyPending_of_pending h, State.line_mapLine, State.line_record, State.line_written]
    simp

theorem State.chan_applyPending_ne (s : State) (l : Line) {c d : Chan} (h : c ≠ d) (pt : Bool) :
    (s.applyPending l c pt).chan d = s.chan d := by
  cases hp : s.pendingOn l c with
  | false => rw [State.applyPending_of_not_pending hp]
  | true =>
    rw [State.applyPending_of_pending hp, State.chan_mapLine, State.chan_record_ne _ h, State.chan_written_ne _ _ h]

/-- The apply of a row changes its channel's life and records COMMIT_APPLIED for its line (R144). -/
theorem State.chan_applyPending_self (s : State) (l : Line) (c : Chan) (pt : Bool) :
    (s.applyPending l c pt).chan c
      = ({ s.chan c with life := (s.applyPending l c pt).life c } : Channel).setEvents l (s.appliedFor l c) := by
  cases hp : s.pendingOn l c with
  | false =>
    rw [State.applyPending_of_not_pending hp, State.appliedFor, hp]
    cases l <;> rfl
  | true =>
    rw [State.life_def, State.applyPending_of_pending hp, State.chan_mapLine, State.chan_record, if_pos rfl,
      State.chan_written_self, State.recordedFor_of_settings (s := s) (by simp), State.appliedFor, if_pos hp]
    cases l <;> rfl

theorem State.slot_applyPending {s : State} {l : Line} (h : (s.line l).row.timeslot? = none) (c : Chan) (pt : Bool)
    (x : Slot) : (s.applyPending l c pt).slot x = s.slot x := by
  cases hp : s.pendingOn l c with
  | false => rw [State.applyPending_of_not_pending hp]
  | true => rw [State.applyPending_of_pending hp, State.slot_mapLine, State.slot_record, State.slot_written _ h]

theorem State.life_applyPending_of_pending {s : State} {l : Line} {c : Chan} (h : s.pendingOn l c = true) (pt : Bool) :
    (s.applyPending l c pt).life c = (s.written (s.line l).row c pt).life c := by
  rw [State.applyPending_of_pending h, State.life_mapLine, State.life_def, State.chan_record, if_pos rfl]
  cases l <;> rfl

theorem State.slot_applyPending_of_pending {s : State} {l : Line} {c : Chan} (h : s.pendingOn l c = true) (pt : Bool)
    (x : Slot) : (s.applyPending l c pt).slot x = (s.written (s.line l).row c pt).slot x := by
  rw [State.applyPending_of_pending h, State.slot_mapLine, State.slot_record]

end Sys2Proof.Machine
end

section
/-! SUPPORT. The stop of a channel's streams: the jobs given up, the splice ended, and the partner's DIRECT window offered
its DECODE. -/

namespace Sys2Proof.Machine

/-! ### The jobs of a channel given up (R130, R132) -/

/-- The two jobs that a channel can have in the pool given up. -/
def State.abandonJobs (s : State) (c : Chan) : State := (s.abandonJob c .decode).abandonJob c .encode

/-- A job is of a channel where it is the channel's DECODE or its ENCODE. -/
theorem Job.isOf_or (j : Job) (c : Chan) : (j.isOf c .decode || j.isOf c .encode) = decide (j.channel = c) := by
  unfold Job.isOf
  cases j.kind <;> simp

theorem State.jobs_abandonJobs (s : State) (c : Chan) :
    (s.abandonJobs c).jobs = s.jobs.filter fun j => decide (j.channel ≠ c) := by
  show (s.jobs.filter fun j => !j.isOf c .decode).filter (fun j => !j.isOf c .encode) = _
  rw [List.filter_filter]
  congr 1
  funext j
  rw [decide_not, ← Job.isOf_or j c, Bool.not_or, Bool.and_comm]

theorem Engine.mapJob_mapJob (e : Engine) (f g : Job → Job) : (e.mapJob f).mapJob g = e.mapJob (g ∘ f) := by
  cases e <;> rfl

theorem State.engines_abandonJobs (s : State) (c : Chan) (e : Fin 4) :
    (s.abandonJobs c).engines[e.val]
      = (s.engines[e.val]).mapJob fun j => if j.channel = c then { j with discard := true } else j := by
  simp only [State.abandonJobs, State.abandonJob, State.unqueue, Vector.getElem_map, Engine.mapJob_mapJob]
  congr 1
  funext j
  have hj := Job.isOf_or j c
  by_cases hd : j.isOf c .decode = true
  · have hc : j.channel = c := by simpa [hd] using hj.symm
    simp only [Function.comp_apply, hd, if_true, hc]
    split <;> rfl
  · rw [Bool.not_eq_true] at hd
    rw [hd, Bool.false_or] at hj
    simp [hd, hj]

@[simp] theorem State.device_abandonJobs (s : State) (c : Chan) : (s.abandonJobs c).device = s.device := by
  simp [State.abandonJobs]
@[simp] theorem State.chan_abandonJobs (s : State) (c d : Chan) : (s.abandonJobs c).chan d = s.chan d := by
  simp [State.abandonJobs]
@[simp] theorem State.life_abandonJobs (s : State) (c d : Chan) : (s.abandonJobs c).life d = s.life d := by
  simp [State.abandonJobs]
@[simp] theorem State.line_abandonJobs (s : State) (c : Chan) (k : Line) : (s.abandonJobs c).line k = s.line k := by
  simp [State.abandonJobs]

/-! ### The end of a splice (R164) -/

theorem State.chan_sever (s : State) (c d : Chan) :
    (s.sever c).chan d
      = if c = d then
          { (s.chan d).mapActive fun a => { a with partner := none } with
            eventsF := s.recordedFor .F .spliceEnded (s.chan d).eventsF }
        else s.chan d := by
  rw [State.sever, State.chan_record, State.chan_mapActive, State.recordedFor_of_settings (s := s) (by simp)]
  split <;> simp [Channel.setEvents, Channel.events]

theorem State.chan_resume_ne (s : State) {c d : Chan} (h : c ≠ d) : (s.resume c).chan d = s.chan d :=
  s.chan_mapActive_ne h _

/-- The context of a channel that resumes its downlink once its splice has ended (R164 steps 1 and 3). -/
def Active.resumed (a : Active) (boundary : Nat) : Active :=
  { a with
    partner := none
    down := { a.down with boundary := some boundary, ring := List.replicate 320 0, collecting := false } }

theorem State.nextAt_of_device {s t : State} (h : t.device = s.device) (phase : Nat) :
    t.nextAt phase = s.nextAt phase := by
  rw [State.nextAt, State.time_of_device h, State.cycle_of_device h, State.nextAt]

@[simp] theorem State.nextAt_abandonJobs (s : State) (c : Chan) (phase : Nat) :
    (s.abandonJobs c).nextAt phase = s.nextAt phase :=
  State.nextAt_of_device (s.device_abandonJobs c) phase

@[simp] theorem State.recordedFor_abandonJobs (s : State) (c : Chan) (l : Line) (k : Kind) (e : EventRecord) :
    (s.abandonJobs c).recordedFor l k e = s.recordedFor l k e :=
  State.recordedFor_of_settings (by rw [State.line_abandonJobs]) k e

/-- A splice ended on both channels, with the one that remains ACTIVE resumed. -/
def State.partnerResumed (s : State) (c b : Chan) : State := ((s.sever c).sever b).resume b

@[simp] theorem State.device_partnerResumed (s : State) (c b : Chan) :
    (s.partnerResumed c b).device = s.device := by
  simp [State.partnerResumed]

@[simp] theorem State.pool_partnerResumed (s : State) (c b : Chan) : (s.partnerResumed c b).pool = s.pool := by
  simp [State.partnerResumed]

@[simp] theorem State.line_partnerResumed (s : State) (c b : Chan) (k : Line) :
    (s.partnerResumed c b).line k = s.line k := by
  simp [State.partnerResumed]

theorem State.chan_partnerResumed_partner {s : State} {c b : Chan} (h : b ≠ c) {y : Active} (hb : s.life b = .active y) :
    (s.partnerResumed c b).chan b
      = { s.chan b with
          life := .active (y.resumed (s.nextAt y.down.phase))
          eventsF := s.recordedFor .F .spliceEnded (s.chan b).eventsF } := by
  have hn : ((s.sever c).sever b).nextAt y.down.phase = s.nextAt y.down.phase := State.nextAt_of_device (by simp) _
  have hb' : (s.chan b).life = .active y := hb
  rw [State.partnerResumed, State.resume, State.chan_mapActive_self, State.chan_sever, if_pos rfl, State.chan_sever,
    if_neg (Ne.symm h), Channel.mapActive_of_active hb', State.recordedFor_of_settings (s := s) (by simp),
    Channel.mapActive_of_active rfl]
  simp only [hn]
  rfl

/-- The other channel of the splice: SPLICE_ENDED is recorded, its stream fields go with its lifecycle. -/
theorem State.chan_partnerResumed_self (s : State) {c b : Chan} (h : b ≠ c) :
    (s.partnerResumed c b).chan c
      = { (s.chan c).mapActive fun a => { a with partner := none } with
          eventsF := s.recordedFor .F .spliceEnded (s.chan c).eventsF } := by
  rw [State.partnerResumed, State.chan_resume_ne _ h, State.chan_sever, if_neg h, State.chan_sever, if_pos rfl]

theorem State.chan_partnerResumed_ne (s : State) {c b d : Chan} (hc : c ≠ d) (hb : b ≠ d) :
    (s.partnerResumed c b).chan d = s.chan d := by
  rw [State.partnerResumed, State.chan_resume_ne _ hb, State.chan_sever, if_neg hb, State.chan_sever, if_neg hc]

/-! ### A DECODE offered (R94, R164) -/

theorem State.chan_setWindow_ne (s : State) {c d : Chan} (h : c ≠ d) (w : WindowState) :
    (s.setWindow c w).chan d = s.chan d :=
  s.chan_mapActive_ne h _

theorem State.record_warning (s : State) (l : Line) (k : Cause) (ch : Channel) :
    ch.record (s.line l) l .streamWarning (BitVec.twoPow 5 k.bit)
      = ch.setEvents l (s.warnedFor l k (ch.events l)) := by
  unfold Channel.record State.warnedFor LineUnit.allows
  split
  · rfl
  · cases l <;> rfl

theorem State.chan_warn (s : State) (c d : Chan) (k : Cause) :
    (s.warn c k).chan d
      = if c = d then
          { s.chan d with
            eventsF := s.warnedFor .F k (s.chan d).eventsF
            eventsR := s.warnedFor .R k (s.chan d).eventsR }
        else s.chan d := by
  rw [State.warn, State.chan_mapChan]
  split
  · exact (s.record_warning .R k _).trans (by rw [show s.lineF = s.line .F from rfl, State.record_warning]; rfl)
  · rfl

theorem State.warnedFor_of_settings {s t : State} {l : Line} (h : (t.line l).settings = (s.line l).settings) (k : Cause)
    (e : EventRecord) : t.warnedFor l k e = s.warnedFor l k e := by
  rw [State.warnedFor, h, State.warnedFor]

theorem State.chan_decodeMiss_ne (s : State) {c d : Chan} (h : c ≠ d) : (s.decodeMiss c).chan d = s.chan d := by
  rw [State.decodeMiss, State.chan_warn, if_neg h, State.count, State.chan_mapChan_ne _ h, State.chan_setWindow_ne _ h]

/-- A miss leaves the continuity record, counts a decode miss and warns both lines. -/
theorem State.chan_decodeMiss (s : State) (c : Chan) :
    ((s.decodeMiss c).chan c).continuity = (s.chan c).continuity
      ∧ (∀ k, ((s.decodeMiss c).chan c).counter k
        = if k = .decodeMisses then saturatingSucc ((s.chan c).counter k) else (s.chan c).counter k)
      ∧ ((s.decodeMiss c).chan c).eventsF = s.warnedFor .F .decodeMiss (s.chan c).eventsF
      ∧ ((s.decodeMiss c).chan c).eventsR = s.warnedFor .R .decodeMiss (s.chan c).eventsR := by
  have hw : ∀ k, ((s.setWindow c .closed).chan c).counter k = (s.chan c).counter k := fun k => by
    simp [State.setWindow, Channel.counter]
  have hc : ∀ k, (((s.setWindow c .closed).count c .decodeMisses).chan c).counter k
      = if k = .decodeMisses then saturatingSucc ((s.chan c).counter k) else (s.chan c).counter k := fun k => by
    rw [State.counter_count, hw]
  rw [State.decodeMiss, State.chan_warn, if_pos rfl]
  refine ⟨?_, hc, ?_, ?_⟩
  · simp [State.count, Channel.count, State.setWindow]
  · rw [State.warnedFor_of_settings (s := s) (l := .F) (by simp)]
    simp [State.count, Channel.count, State.setWindow]
  · rw [State.warnedFor_of_settings (s := s) (l := .R) (by simp)]
    simp [State.count, Channel.count, State.setWindow]

/-- All that an offer of a DECODE can leave of the contexts: the window DECODING, or a miss. -/
theorem State.chan_offerDecode_cases (s : State) (c : Chan) (f : SpeechFrame) (deadline : Nat) :
    (∃ held, ∀ d, (s.offerDecode c f deadline).chan d = (s.setWindow c (.decoding f held)).chan d)
      ∨ ∃ u : State, (∀ d, u.chan d = (s.setWindow c (.decoding f false)).chan d) ∧ (∀ k, u.line k = s.line k)
        ∧ s.offerDecode c f deadline = u.decodeMiss c := by
  unfold State.offerDecode
  split
  · exact .inl ⟨true, fun d => rfl⟩
  · have hchan := State.chan_offerJob (s.setWindow c (.decoding f false))
      { channel := c, deadline, work := .decode f, discard := false }
    have hline := State.line_offerJob (s.setWindow c (.decoding f false))
      { channel := c, deadline, work := .decode f, discard := false }
    split
    · next u hu =>
      rw [hu] at hchan hline
      exact .inr ⟨u, hchan, fun k => by simpa using hline k, rfl⟩
    · next u hu =>
      rw [hu] at hchan
      exact .inl ⟨false, hchan⟩

theorem State.chan_offerDecode_ne (s : State) {c d : Chan} (h : c ≠ d) (f : SpeechFrame) (deadline : Nat) :
    (s.offerDecode c f deadline).chan d = s.chan d := by
  rcases s.chan_offerDecode_cases c f deadline with ⟨held, hd⟩ | ⟨u, hd, -, hu⟩
  · rw [hd, State.chan_setWindow_ne _ h]
  · rw [hu, State.chan_decodeMiss_ne _ h, hd, State.chan_setWindow_ne _ h]

/-- A DECODE offered for the window of an ACTIVE context: where the window shows a miss, and only there, the miss is counted
and warned (R94, R131). -/
theorem State.offerDecode_spec {s : State} {c : Chan} {a : Active} {comfort : Bool} {expected : BitVec 8}
    {old : Window} (h : s.life c = .active a) (hs : a.up.stream = .running comfort expected old) (f : SpeechFrame)
    (deadline : Nat) :
    ∃ w, s.decodeOffered (s.offerDecode c f deadline) c f deadline w
      ∧ (s.offerDecode c f deadline).life c = .active (a.inWindow w)
      ∧ ((s.offerDecode c f deadline).chan c).continuity = (s.chan c).continuity
      ∧ (∀ k, ((s.offerDecode c f deadline).chan c).counter k
        = if k = .decodeMisses ∧ w = .closed then saturatingSucc ((s.chan c).counter k) else (s.chan c).counter k)
      ∧ ((s.offerDecode c f deadline).chan c).eventsF
        = (if w = .closed then s.warnedFor .F .decodeMiss (s.chan c).eventsF else (s.chan c).eventsF)
      ∧ ((s.offerDecode c f deadline).chan c).eventsR
        = (if w = .closed then s.warnedFor .R .decodeMiss (s.chan c).eventsR else (s.chan c).eventsR) := by
  obtain ⟨w, hoffer, hlife⟩ := State.decodeOffered_offerDecode h hs f deadline
  refine ⟨w, hoffer, by rw [hlife, Active.inWindow_of_running hs], ?_⟩
  have hwin : ∀ v, (s.setWindow c v).life c = .active (a.withWindow comfort expected old v) := State.life_setWindow h hs
  have same : ∀ v, ((s.setWindow c v).chan c).continuity = (s.chan c).continuity
      ∧ (∀ k, ((s.setWindow c v).chan c).counter k = (s.chan c).counter k)
      ∧ ((s.setWindow c v).chan c).eventsF = (s.chan c).eventsF
      ∧ ((s.setWindow c v).chan c).eventsR = (s.chan c).eventsR := fun v => by
    simp [State.setWindow, Channel.counter]
  have inj : ∀ v, a.withWindow comfort expected old w = a.withWindow comfort expected old v → w = v := fun v hv => by
    have hstream := congrArg (·.up.stream) hv
    simp only [Active.withWindow_stream, Uplink.running.injEq, Window.mk.injEq] at hstream
    exact hstream.2.2.2
  rcases s.chan_offerDecode_cases c f deadline with ⟨held, hd⟩ | ⟨u, hd, hline, hu⟩
  · have hw : w = .decoding f held := by
      refine inj _ ?_
      rw [State.life_def, hd, ← State.life_def, hwin] at hlife
      exact (Life.active.inj hlife).symm
    subst hw
    rw [hd]
    simpa using same (.decoding f held)
  · have hul : u.life c = .active (a.withWindow comfort expected old (.decoding f false)) := by
      rw [State.life_def, hd, ← State.life_def, hwin]
    have hw : w = .closed := by
      refine inj _ ?_
      rw [hu, State.life_decodeMiss hul rfl] at hlife
      exact (Life.active.inj hlife).symm
    subst hw
    obtain ⟨hcont, hcount, hF, hR⟩ := u.chan_decodeMiss c
    obtain ⟨scont, scount, sF, sR⟩ := same (.decoding f false)
    have hset : ∀ k, (u.line k).settings = (s.line k).settings := fun k => by rw [hline]
    rw [hd] at hcont hcount hF hR
    rw [hu]
    refine ⟨hcont.trans scont, fun k => ?_, ?_, ?_⟩
    · rw [hcount, scount]
      simp
    · rw [hF, sF, State.warnedFor_of_settings (hset .F), if_pos rfl]
    · rw [hR, sR, State.warnedFor_of_settings (hset .R), if_pos rfl]

/-! ### The partner's DIRECT window (R164 step 4) -/

theorem State.directFrame_eq_some {s : State} {c : Chan} {f : SpeechFrame} {deadline : Nat}
    (h : s.directFrame c = some (f, deadline)) :
    ∃ a comfort expected, s.life c = .active a
      ∧ a.up.stream = .running comfort expected { deadline, state := .direct f } := by
  unfold State.directFrame at h
  split at h
  · next a ha =>
    split at h
    · next comfort expected n g hs =>
      cases h
      exact ⟨a, comfort, expected, ha, hs⟩
    · cases h
  · cases h

/-- Where the uplinks stand alike, so do the DIRECT windows. -/
theorem State.directFrame_of_up {s t : State} {c : Chan} {x y : Active} (hs : s.life c = .active x)
    (ht : t.life c = .active y) (h : y.up = x.up) : t.directFrame c = s.directFrame c := by
  unfold State.directFrame
  rw [hs, ht]
  simp only [h]

theorem State.redirect_of_none {s : State} {c : Chan} (h : s.directFrame c = none) : s.redirect c = s := by
  simp [State.redirect, h]

theorem State.redirect_of_some {s : State} {c : Chan} {f : SpeechFrame} {deadline : Nat}
    (h : s.directFrame c = some (f, deadline)) : s.redirect c = s.offerDecode c f deadline := by
  simp [State.redirect, h]

theorem State.chan_redirect_ne (s : State) {c d : Chan} (h : c ≠ d) : (s.redirect c).chan d = s.chan d := by
  cases hf : s.directFrame c with
  | none => rw [State.redirect_of_none hf]
  | some p => rw [State.redirect_of_some hf, State.chan_offerDecode_ne _ h]

/-! ### The streams of a channel stopped (R23) -/

theorem State.stopStreams_unspliced (s : State) (c : Chan) {a : Active} (h : a.partner = none) :
    s.stopStreams c a = s.abandonJobs c := by
  simp only [State.stopStreams, h]
  rfl

theorem State.stopStreams_spliced (s : State) (c : Chan) {a : Active} {b : Chan} (h : a.partner = some b) :
    s.stopStreams c a = ((s.abandonJobs c).partnerResumed c b).redirect b := by
  simp only [State.stopStreams, h]
  rfl

/-- The stop of the streams changes the channel and its partner alone. -/
theorem State.chan_stopStreams_ne (s : State) {c d : Chan} {a : Active} (hc : c ≠ d) (hd : d ∉ a.partner.toList) :
    (s.stopStreams c a).chan d = s.chan d := by
  cases hp : a.partner with
  | none => rw [State.stopStreams_unspliced s c hp, State.chan_abandonJobs]
  | some b =>
    have hb : b ≠ d := fun hbd => hd (by simp [hp, hbd])
    rw [State.stopStreams_spliced s c hp, State.chan_redirect_ne _ hb, State.chan_partnerResumed_ne _ hc hb,
      State.chan_abandonJobs]

/-- Of its own channel the stop of the streams keeps all but the life, and the end of a splice is recorded for F. -/
theorem State.chan_stopStreams_self (s : State) {c : Chan} {a : Active} (hp : a.partner ≠ some c) :
    ((s.stopStreams c a).chan c).continuity = (s.chan c).continuity
      ∧ ((s.stopStreams c a).chan c).counters = (s.chan c).counters
      ∧ ∀ k, ((s.stopStreams c a).chan c).events k
        = if k = .F ∧ a.partner ≠ none then s.recordedFor .F .spliceEnded (s.chan c).eventsF
          else (s.chan c).events k := by
  cases hb : a.partner with
  | none =>
    rw [State.stopStreams_unspliced s c hb, State.chan_abandonJobs]
    simp
  | some b =>
    have hne : b ≠ c := fun hbc => hp (by rw [hb, hbc])
    rw [State.stopStreams_spliced s c hb, State.chan_redirect_ne _ hne, State.chan_partnerResumed_self _ hne,
      State.chan_abandonJobs, State.recordedFor_of_settings (s := s) (by simp)]
    refine ⟨by simp, by simp, fun k => ?_⟩
    cases k <;> simp [Channel.events]

section Spliced

variable {s : State} {c d : Chan} {a y : Active} (hp : a.partner = some d) (hd : d ≠ c) (hy : s.life d = .active y)
include hd hy

/-- The partner's DIRECT window stands through the end of the splice. -/
theorem State.directFrame_partnerResumed :
    ((s.abandonJobs c).partnerResumed c d).directFrame d = s.directFrame d := by
  refine State.directFrame_of_up hy (y := y.resumed ((s.abandonJobs c).nextAt y.down.phase)) ?_ rfl
  rw [State.life_def, State.chan_partnerResumed_partner hd (by simpa using hy)]

include hp

/-- The partner of a channel whose streams stop, with no DIRECT window: it stays ACTIVE and resumes its downlink. -/
theorem State.chan_stopStreams_partner (hf : s.directFrame d = none) :
    (s.stopStreams c a).pool = (s.abandonJobs c).pool
      ∧ (s.stopStreams c a).chan d
        = { s.chan d with
            life := .active (y.resumed (s.nextAt y.down.phase))
            eventsF := s.recordedFor .F .spliceEnded (s.chan d).eventsF } := by
  rw [← State.directFrame_partnerResumed hd hy] at hf
  rw [State.stopStreams_spliced s c hp, State.redirect_of_none hf, State.pool_partnerResumed,
    State.chan_partnerResumed_partner hd (by simpa using hy)]
  simp

/-- The partner of a channel whose streams stop, with a DIRECT window: its DECODE is offered beside. -/
theorem State.unspliced_stopStreams {f : SpeechFrame} {deadline : Nat} (hf : s.directFrame d = some (f, deadline)) :
    ∃ w, (s.abandonJobs c).decodeOffered (s.stopStreams c a) d f deadline w
      ∧ s.unspliced (s.stopStreams c a) d (y.resumed (s.nextAt y.down.phase)) w := by
  obtain ⟨q, hq⟩ : ∃ q, q = (s.abandonJobs c).partnerResumed c d := ⟨_, rfl⟩
  have hqf : q.directFrame d = some (f, deadline) := by rw [hq, State.directFrame_partnerResumed hd hy, hf]
  have hqd : q.chan d = { s.chan d with
      life := .active (y.resumed (s.nextAt y.down.phase))
      eventsF := s.recordedFor .F .spliceEnded (s.chan d).eventsF } := by
    rw [hq, State.chan_partnerResumed_partner hd (by simpa using hy)]
    simp
  have hql : q.life d = .active (y.resumed (s.nextAt y.down.phase)) := by rw [State.life_def, hqd]
  have hset : ∀ k, (q.line k).settings = (s.line k).settings := fun k => by rw [hq]; simp
  obtain ⟨b, comfort, expected, hb, hstream⟩ := State.directFrame_eq_some hqf
  rw [hql] at hb
  cases hb
  obtain ⟨w, hoffer, hlife, hcont, hcount, hF, hR⟩ := State.offerDecode_spec hql hstream f deadline
  rw [State.stopStreams_spliced s c hp, ← hq, State.redirect_of_some hqf]
  refine ⟨w, State.decodeOffered_of_eq (by rw [hq]; simp) (by rw [hq]; simp) hoffer, hlife, ?_, fun k => ?_, ?_, ?_⟩
  · rw [hcont, hqd]
  · rw [hcount, hqd]
    rfl
  · rw [hF, State.warnedFor_of_settings (hset .F), hqd]
  · rw [hR, State.warnedFor_of_settings (hset .R), hqd]

end Spliced

end Sys2Proof.Machine
end

section
/-! SUPPORT. An ACTIVE channel released: the half of the other line left, the issuing line's row lost, and the other line's
row applied to that half. -/

namespace Sys2Proof.Machine

/-! ### The half that is left (R21, R22) -/

/-- There are two lines. -/
theorem otherLine_eq_of_ne {l k : Line} (h : k ≠ l) : otherLine l = k := by
  cases l <;> cases k <;> simp [otherLine] at h ⊢

/-- The life that a release by a line leaves of an ACTIVE context, before a row PENDING for the other line applies. -/
def State.leftLife (s : State) (l : Line) (a : Active) : Life :=
  match l with
  | .F => .halfR { tag := a.tag, radio := a.radio.derived .m32, timer := s.startedTimer .R }
  | .R => .halfF { tag := a.tag, fixed := a.fixed, timer := s.startedTimer .F, check := none }

/-- What a release by a line makes of the timeslot of an ACTIVE channel: FREE and IDLE by F, IDLE by R (R21, R22). -/
def Timeslot.left (ts : Timeslot) (l : Line) : Timeslot :=
  { ts with entry := if l = .F then .free else ts.entry, source := .idle }

/-- An ACTIVE channel released by a line, with the rows still as they are. -/
def State.halfLeft (s : State) (l : Line) (c : Chan) (a : Active) : State :=
  (((s.stopStreams c a).mapSlot a.fixed.timeslot (·.left l)).setLife c (s.leftLife l a)).record c (otherLine l)
    .peerReleased

/-- The same with the issuing line's row lost. -/
def State.halfLeftRowLost (s : State) (l : Line) (c : Chan) (a : Active) : State := (s.halfLeft l c a).loseRow l c

theorem State.releaseHalf_of_active {s : State} {c : Chan} {a : Active} (h : s.life c = .active a) (l : Line) :
    s.releaseHalf l c = (s.halfLeftRowLost l c a).applyPending (otherLine l) c false := by
  unfold State.releaseHalf
  cases l <;> simp only [h] <;> rfl

section Released

variable {s : State} {c : Chan} {a : Active} (l : Line)

theorem State.line_halfLeft (k : Line) : (s.halfLeft l c a).line k = s.line k := by
  simp [State.halfLeft]

theorem State.line_halfLeftRowLost (k : Line) :
    (s.halfLeftRowLost l c a).line k
      = if l = k ∧ (s.line k).row.latched = some c then { s.line k with row := .empty } else s.line k := by
  rw [State.halfLeftRowLost, State.line_loseRow, State.line_halfLeft]

theorem State.settings_halfLeftRowLost (k : Line) :
    ((s.halfLeftRowLost l c a).line k).settings = (s.line k).settings := by
  rw [State.line_halfLeftRowLost]
  split <;> rfl

theorem State.line_halfLeftRowLost_other :
    (s.halfLeftRowLost l c a).line (otherLine l) = s.line (otherLine l) := by
  rw [State.line_halfLeftRowLost, if_neg fun h => ne_otherLine l h.1]

theorem State.pendingOn_halfLeftRowLost :
    (s.halfLeftRowLost l c a).pendingOn (otherLine l) c = s.pendingOn (otherLine l) c :=
  State.pendingOn_of_line (State.line_halfLeftRowLost_other l) c

theorem State.chan_halfLeftRowLost_ne {d : Chan} (h : c ≠ d) :
    (s.halfLeftRowLost l c a).chan d = (s.stopStreams c a).chan d := by
  rw [State.halfLeftRowLost, State.chan_loseRow, if_neg fun hc => h hc.1, State.halfLeft, State.chan_record_ne _ h,
    State.chan_setLife, if_neg h, State.chan_mapSlot]

/-- The context once the issuing line's row is lost: the half left, with PEER_RELEASED for the other line, and COMMIT_LOST
for the issuing one where its row was PENDING. -/
theorem State.chan_halfLeftRowLost :
    (s.halfLeftRowLost l c a).life c = s.leftLife l a
      ∧ ((s.halfLeftRowLost l c a).chan c).continuity = ((s.stopStreams c a).chan c).continuity
      ∧ ((s.halfLeftRowLost l c a).chan c).counters = ((s.stopStreams c a).chan c).counters
      ∧ ((s.halfLeftRowLost l c a).chan c).events l
        = (if s.pendingOn l c = true then s.recordedFor l .commitLost (((s.stopStreams c a).chan c).events l)
          else ((s.stopStreams c a).chan c).events l)
      ∧ ((s.halfLeftRowLost l c a).chan c).events (otherLine l)
        = s.recordedFor (otherLine l) .peerReleased (((s.stopStreams c a).chan c).events (otherLine l)) := by
  have hr : ∀ k e, (s.halfLeft l c a).recordedFor l k e = s.recordedFor l k e := fun k e =>
    State.recordedFor_of_settings (by rw [State.line_halfLeft]) k e
  have hm : (s.halfLeft l c a).chan c = ({ (s.stopStreams c a).chan c with life := s.leftLife l a } : Channel).setEvents
      (otherLine l) (s.recordedFor (otherLine l) .peerReleased (((s.stopStreams c a).chan c).events (otherLine l))) := by
    rw [State.halfLeft, State.chan_record, if_pos rfl, State.chan_setLife_self, State.chan_mapSlot,
      State.recordedFor_of_settings (s := s) (by simp)]
    cases l <;> rfl
  rw [State.life_def, State.halfLeftRowLost, State.chan_loseRow, State.pendingOn_of_line (State.line_halfLeft l l), hm, hr]
  by_cases hp : s.pendingOn l c = true
  · rw [if_pos ⟨rfl, hp⟩, if_pos hp]
    cases l <;> exact ⟨rfl, rfl, rfl, rfl, rfl⟩
  · rw [if_neg fun hx => hp hx.2, if_neg hp]
    cases l <;> exact ⟨rfl, rfl, rfl, rfl, rfl⟩

/-- The timeslots once the issuing line's row is lost: the channel's own is left, and a reservation of the row freed. -/
theorem State.slot_halfLeftRowLost (x : Slot) :
    (s.halfLeftRowLost l c a).slot x
      = if a.fixed.timeslot = x then
          (if s.pendingOn l c = true ∧ (s.line l).row.timeslot? = some x ∧ ((s.slot x).left l).entry = .reserved c then
            { (s.slot x).left l with entry := .free }
          else (s.slot x).left l)
        else if s.pendingOn l c = true ∧ (s.line l).row.timeslot? = some x ∧ (s.slot x).entry = .reserved c then
          { s.slot x with entry := .free }
        else s.slot x := by
  have hm : (s.halfLeft l c a).slot x = if a.fixed.timeslot = x then (s.slot x).left l else s.slot x := by
    simp [State.halfLeft, State.slot_mapSlot]
  rw [State.halfLeftRowLost, State.slot_loseRow, State.pendingOn_of_line (State.line_halfLeft l l), State.line_halfLeft, hm]
  by_cases hx : a.fixed.timeslot = x
  · simp only [if_pos hx]
  · simp only [if_neg hx]

/-! ### What a release leaves of everything else -/

variable (h : s.life c = .active a)
include h

theorem State.pool_releaseHalf_active : (s.releaseHalf l c).pool = (s.stopStreams c a).pool := by
  simp [State.releaseHalf_of_active h, State.halfLeftRowLost, State.halfLeft]

theorem State.chan_releaseHalf_active_ne {d : Chan} (hd : c ≠ d) :
    (s.releaseHalf l c).chan d = (s.stopStreams c a).chan d := by
  rw [State.releaseHalf_of_active h, State.chan_applyPending_ne _ _ hd, State.chan_halfLeftRowLost_ne l hd]

theorem State.line_releaseHalf_active (k : Line) :
    (s.releaseHalf l c).line k = { s.line k with row :=
      (if (k = l ∧ (s.line k).row.latched = some c) ∨ (k ≠ l ∧ s.pendingOn k c = true) then .empty
      else (s.line k).row) } := by
  rw [State.releaseHalf_of_active h, State.line_applyPending, State.pendingOn_halfLeftRowLost]
  by_cases hk : k = l
  · subst hk
    rw [if_neg fun hx => otherLine_ne k hx.1, State.line_halfLeftRowLost]
    simp only [true_and, ne_eq, not_true_eq_false, false_and, or_false]
    split <;> rfl
  · obtain rfl : otherLine l = k := otherLine_eq_of_ne hk
    rw [State.line_halfLeftRowLost_other]
    simp only [true_and, hk, ne_eq, false_and, not_false_eq_true, false_or]
    split <;> rfl

/-- The context that a release leaves, but for its life (R24, R149). -/
theorem State.chan_releaseHalf_active :
    ((s.releaseHalf l c).chan c).continuity = ((s.stopStreams c a).chan c).continuity
      ∧ ((s.releaseHalf l c).chan c).counters = ((s.stopStreams c a).chan c).counters
      ∧ ((s.releaseHalf l c).chan c).events l
        = (if s.pendingOn l c = true then s.recordedFor l .commitLost (((s.stopStreams c a).chan c).events l)
          else ((s.stopStreams c a).chan c).events l)
      ∧ ((s.releaseHalf l c).chan c).events (otherLine l)
        = (if s.pendingOn (otherLine l) c = true then
            s.recordedFor (otherLine l) .commitApplied
              (s.recordedFor (otherLine l) .peerReleased (((s.stopStreams c a).chan c).events (otherLine l)))
          else s.recordedFor (otherLine l) .peerReleased (((s.stopStreams c a).chan c).events (otherLine l))) := by
  obtain ⟨-, hcont, hcount, hown, hother⟩ := State.chan_halfLeftRowLost (s := s) (c := c) (a := a) l
  rw [State.releaseHalf_of_active h, State.chan_applyPending_self, State.appliedFor, State.pendingOn_halfLeftRowLost,
    State.recordedFor_of_settings (State.settings_halfLeftRowLost l _), ← hcont, ← hcount, ← hown, ← hother]
  cases l <;> exact ⟨rfl, rfl, rfl, rfl⟩

/-! ### The half and the timeslots -/

/-- With no row of the other line PENDING the half stays as it is left. -/
theorem State.life_releaseHalf_active (hp : s.pendingOn (otherLine l) c = false) :
    (s.releaseHalf l c).life c = s.leftLife l a := by
  rw [State.releaseHalf_of_active h,
    State.applyPending_of_not_pending ((State.pendingOn_halfLeftRowLost l).trans hp)]
  exact State.chan_halfLeftRowLost l |>.1

omit h in
/-- A released timeslot once the issuing line's row is lost, where the row names no reservation of it. -/
theorem State.slot_halfLeftRowLost_of_none (hr : (s.line l).row.timeslot? = none) (x : Slot) :
    (s.halfLeftRowLost l c a).slot x = if a.fixed.timeslot = x then (s.slot x).left l else s.slot x := by
  rw [State.slot_halfLeftRowLost, hr]
  simp

/-- Released by F: the timeslot is FREE and IDLE, and a reservation of the lost row freed (R21, R53). -/
theorem State.slot_releaseHalf_active_F (hr : s.rowsOk) (x : Slot) :
    (s.releaseHalf .F c).slot x
      = if a.fixed.timeslot = x then { s.slot x with entry := .free, source := .idle }
        else if s.pendingOn .F c = true ∧ s.lineF.row.timeslot? = some x ∧ (s.slot x).entry = .reserved c then
          { s.slot x with entry := .free }
        else s.slot x := by
  have ht : ((s.halfLeftRowLost .F c a).line (otherLine .F)).row.timeslot? = none := by
    rw [State.line_halfLeftRowLost_other]
    exact (hr .R).1.timeslot?_R
  rw [State.releaseHalf_of_active h, State.slot_applyPending ht, State.slot_halfLeftRowLost]
  have hleft : (s.slot x).left .F = { s.slot x with entry := .free, source := .idle } := rfl
  rw [hleft]
  split
  · split <;> rfl
  · rfl

/-- Released by R, with no row of F PENDING: the timeslot is IDLE (R22). -/
theorem State.slot_releaseHalf_active_R (hr : s.rowsOk) (hp : s.pendingOn .F c = false) (x : Slot) :
    (s.releaseHalf .R c).slot x
      = if a.fixed.timeslot = x then { s.slot x with source := .idle } else s.slot x := by
  rw [State.releaseHalf_of_active h,
    State.applyPending_of_not_pending ((State.pendingOn_halfLeftRowLost .R).trans hp),
    State.slot_halfLeftRowLost_of_none .R (hr .R).1.timeslot?_R]
  rfl

/-- Released by R, with a row of F PENDING: the row is applied to the HALF_F channel (R22, R24, R146), whose timeslot is the
one that the row names, else its own. -/
theorem State.releaseHalf_active_R_pending (hr : s.rowsOk) (hp : s.pendingOn .F c = true) :
    ∃ fixed, (s.releaseHalf .R c).life c = .halfF { tag := a.tag, fixed, timer := s.startedTimer .F, check := none }
      ∧ s.lineF.row.setsFixed a.fixed fixed ∧ fixed.feed = a.fixed.feed
      ∧ fixed.timeslot = s.lineF.row.timeslot?.getD a.fixed.timeslot
      ∧ ∀ x, (s.releaseHalf .R c).slot x
        = if fixed.timeslot = a.fixed.timeslot then
            (if a.fixed.timeslot = x then { s.slot x with source := .idle } else s.slot x)
          else if x = fixed.timeslot then { s.slot x with entry := .bound c, source := .idle }
          else if x = a.fixed.timeslot then { s.slot x with entry := .free, source := .idle }
          else s.slot x := by
  obtain ⟨hn, hi⟩ := (hr .F).1.items ((s.pendingOn_iff .F c).mp hp).2
  have hn : (s.lineF.row.slots.map (·.1)).Nodup := hn
  have hi : ∀ p ∈ s.lineF.row.slots, p.1.line = .F := hi
  have hl : (s.halfLeftRowLost .R c a).life c = .halfF _ := (State.chan_halfLeftRowLost .R).1
  have hf : ((s.halfLeftRowLost .R c a).life c).fixed? = some a.fixed := by rw [hl]; rfl
  have hpm : (s.halfLeftRowLost .R c a).pendingOn .F c = true := (State.pendingOn_halfLeftRowLost .R).trans hp
  have hrow : ((s.halfLeftRowLost .R c a).line .F).row = s.lineF.row :=
    congrArg LineUnit.row (State.line_halfLeftRowLost_other .R)
  have hslot := State.slot_halfLeftRowLost_of_none (s := s) (c := c) (a := a) .R (hr .R).1.timeslot?_R
  have htime := FixedHalf.foldl_item_names s.lineF.row hn a.fixed
  rw [State.releaseHalf_of_active h]
  refine ⟨s.lineF.row.slots.foldl FixedHalf.itemBetween a.fixed, ?_, Row.setsFixed_foldl_itemBetween _ hn _, ?_, ?_,
    fun x => ?_⟩
  · rw [show otherLine .R = .F from rfl, State.life_applyPending_of_pending hpm, hrow, State.life_written_halfF hl hi]
  · rw [FixedHalf.foldl_itemBetween]
  · rw [FixedHalf.foldl_itemBetween]
    exact htime
  · rw [show otherLine .R = .F from rfl, State.slot_applyPending_of_pending hpm, hrow, State.slot_written_halfF hl hi hn,
      FixedHalf.foldl_itemBetween]
    simp only [htime]
    by_cases hx : s.lineF.row.timeslot?.getD a.fixed.timeslot = a.fixed.timeslot
    · rw [if_pos hx, hx, State.moveTimeslot_own _ c false a.fixed hf, hslot]
      rfl
    · rw [if_neg hx, State.slot_moveTimeslot _ c false a.fixed _ x hf (Ne.symm hx)]
      simp only [hslot, if_pos, if_neg (Ne.symm hx)]
      by_cases h1 : x = s.lineF.row.timeslot?.getD a.fixed.timeslot
      · rw [if_pos h1, if_pos h1, h1]
        rfl
      · rw [if_neg h1, if_neg h1]
        by_cases h2 : x = a.fixed.timeslot
        · rw [if_pos h2, if_pos h2, h2]
          rfl
        · rw [if_neg h2, if_neg h2, if_neg (Ne.symm h2)]

/-- Released by F, with a row of R PENDING: the row is applied to the HALF_R channel, its active mode derived under cap 32
(R5, R21, R24). -/
theorem State.releaseHalf_active_F_pending (hr : s.rowsOk) (hp : s.pendingOn .R c = true) :
    ∃ radio, (s.releaseHalf .F c).life c = .halfR { tag := a.tag, timer := s.startedTimer .R, radio }
      ∧ s.lineR.row.setsRadio .m32
        { a.radio with active := Mode.derive a.radio.modeSet a.radio.requested .m32 } radio
      ∧ radio.active = Mode.derive radio.modeSet radio.requested .m32 := by
  obtain ⟨hn, hi⟩ := (hr .R).1.items ((s.pendingOn_iff .R c).mp hp).2
  have hn : (s.lineR.row.slots.map (·.1)).Nodup := hn
  have hi : ∀ p ∈ s.lineR.row.slots, p.1.line = .R := hi
  have hl : (s.halfLeftRowLost .F c a).life c = .halfR _ := (State.chan_halfLeftRowLost .F).1
  have hpm : (s.halfLeftRowLost .F c a).pendingOn .R c = true := (State.pendingOn_halfLeftRowLost .F).trans hp
  have hrow : ((s.halfLeftRowLost .F c a).line .R).row = s.lineR.row :=
    congrArg LineUnit.row (State.line_halfLeftRowLost_other .F)
  have hsets := Row.setsRadio_foldl s.lineR.row hn .m32 (a.radio.derived .m32)
  refine ⟨_, ?_, hsets, ?_⟩
  · rw [State.releaseHalf_of_active h, show otherLine .F = .R from rfl, State.life_applyPending_of_pending hpm, hrow,
      State.life_written_halfR hl hi]
  · obtain ⟨hmode, hset, -, -, hderive, hkeep⟩ := hsets
    by_cases hm : ∃ v, (Item.mode, v) ∈ s.lineR.row.slots ∨ (Item.modeSet, v) ∈ s.lineR.row.slots
    · exact hderive hm
    · have hno : ∀ v, (Item.mode, v) ∉ s.lineR.row.slots ∧ (Item.modeSet, v) ∉ s.lineR.row.slots := by
        simpa only [not_exists, not_or] using hm
      rw [hkeep hno, hmode.2 fun v => (hno v).1, hset.2 fun v => (hno v).2]
      rfl

end Released

end Sys2Proof.Machine
end

section
/-! SUPPORT. RELEASE of an ACTIVE channel: the state that the order leaves, part by part, and the jobs it gives up. -/

namespace Sys2Proof.Machine

/-! ### The jobs of a channel given up for good -/

/-- No job of a channel is left queued, and every running one is marked for discard (R130, R132). -/
def State.givenUp (s : State) (c : Chan) : Prop :=
  (∀ j ∈ s.jobs, j.channel ≠ c)
    ∧ ∀ (e : Fin 4) j, (s.engines[e.val]).job? = some j → j.channel = c → j.discard = true

theorem State.givenUp_of_pool {s t : State} (h : t.pool = s.pool) {c : Chan} (hs : s.givenUp c) : t.givenUp c := by
  obtain ⟨he, hj⟩ := Prod.mk.inj h
  unfold State.givenUp
  rw [he, hj]
  exact hs

theorem State.givenUp_abandonJobs (s : State) (c : Chan) : (s.abandonJobs c).givenUp c := by
  refine ⟨fun j hj => ?_, fun e j hj hc => ?_⟩
  · rw [State.jobs_abandonJobs] at hj
    simpa using (List.mem_filter.mp hj).2
  · rw [State.engines_abandonJobs] at hj
    have mark : ∀ k : Job, (if k.channel = c then { k with discard := true } else k) = j → j.discard = true := by
      intro k hk
      by_cases hkc : k.channel = c
      · rw [if_pos hkc] at hk
        rw [← hk]
      · rw [if_neg hkc] at hk
        exact absurd (hk ▸ hc) hkc
    cases hx : s.engines[e.val] with
    | busy k ends | draining k ends =>
      rw [hx] at hj
      exact mark k (Option.some.inj hj)
    | free | out =>
      rw [hx] at hj
      cases hj

theorem State.givenUp_startHead {s : State} {c : Chan} (h : s.givenUp c) : s.startHead.givenUp c := by
  obtain ⟨hjobs, hengines⟩ := h
  unfold State.startHead
  split
  · next head rest e hj _ =>
    refine ⟨fun j hm => hjobs j (hj ▸ List.mem_cons_of_mem _ hm), fun d j hd hc => ?_⟩
    rw [Vector.getElem_set] at hd
    split at hd
    · cases hd
      exact absurd hc (hjobs _ (hj ▸ List.mem_cons_self))
    · exact hengines d j hd hc
  · exact ⟨hjobs, hengines⟩

theorem State.givenUp_arbitrate {s : State} {c : Chan} (h : s.givenUp c) : s.arbitrate.givenUp c :=
  State.givenUp_startHead (State.givenUp_startHead (State.givenUp_startHead (State.givenUp_startHead h)))

/-- An offer of another channel's job keeps the jobs of a channel given up. -/
theorem State.givenUp_offerJob {s : State} {c : Chan} (h : s.givenUp c) {j : Job} (hj : j.channel ≠ c) :
    (s.offerJob j).1.givenUp c := by
  have hq : ({ s with jobs := insertJob j s.jobs } : State).givenUp c := by
    refine ⟨fun k hk => ?_, h.2⟩
    obtain ⟨ahead, behind, hs, hi, -⟩ := joins_insertJob j s.jobs
    have hk : k ∈ insertJob j s.jobs := hk
    rw [hi, List.mem_append, List.mem_cons] at hk
    rcases hk with hk | rfl | hk
    · exact h.1 k (hs ▸ List.mem_append_left _ hk)
    · exact hj
    · exact h.1 k (hs ▸ List.mem_append_right _ hk)
  have ha := State.givenUp_arbitrate hq
  unfold State.offerJob
  split
  · exact h
  · dsimp only
    split
    · exact ⟨fun k hk => ha.1 k (List.mem_filter.mp hk).1, ha.2⟩
    · exact ha

theorem State.givenUp_offerDecode {s : State} {c d : Chan} (h : s.givenUp c) (hd : d ≠ c) (f : SpeechFrame)
    (deadline : Nat) : (s.offerDecode d f deadline).givenUp c := by
  unfold State.offerDecode
  split
  · exact State.givenUp_of_pool (s.pool_setWindow _ _) h
  · have ho := State.givenUp_offerJob (State.givenUp_of_pool (s.pool_setWindow d (.decoding f false)) h)
      (j := { channel := d, deadline, work := .decode f, discard := false }) hd
    split
    · next u hu =>
      rw [hu] at ho
      exact State.givenUp_of_pool (u.pool_decodeMiss _) ho
    · next u hu =>
      rw [hu] at ho
      exact ho

theorem State.givenUp_stopStreams (s : State) {c : Chan} {a : Active} (hp : a.partner ≠ some c) :
    (s.stopStreams c a).givenUp c := by
  have hs := s.givenUp_abandonJobs c
  cases hb : a.partner with
  | none => rwa [State.stopStreams_unspliced s c hb]
  | some b =>
    have hne : b ≠ c := fun hbc => hp (by rw [hb, hbc])
    have hq := State.givenUp_of_pool ((s.abandonJobs c).pool_partnerResumed c b) hs
    rw [State.stopStreams_spliced s c hb]
    cases hf : ((s.abandonJobs c).partnerResumed c b).directFrame b with
    | none => rwa [State.redirect_of_none hf]
    | some p =>
      rw [State.redirect_of_some hf]
      exact State.givenUp_offerDecode hq hne _ _

/-! ### What is said of an event from one state to another -/

theorem State.decodeOffered_after {s t t' : State} (hp : t'.pool = t.pool) (hc : t'.clock = t.clock) {c : Chan}
    {f : SpeechFrame} {deadline : Nat} {w : WindowState} (h : s.decodeOffered t c f deadline w) :
    s.decodeOffered t' c f deadline w := by
  obtain ⟨he, hj⟩ := Prod.mk.inj hp
  unfold State.decodeOffered State.jobOffered at *
  rwa [hp, he, hj, hc]

theorem State.unspliced_of_eq {s s' t t' : State} {c : Chan} (hs : s'.chan c = s.chan c)
    (hl : ∀ l, (s'.line l).settings = (s.line l).settings) (ht : t'.chan c = t.chan c) {z : Active} {w : WindowState}
    (h : s.unspliced t c z w) : s'.unspliced t' c z w := by
  unfold State.unspliced State.recordedFor State.warnedFor at *
  rw [State.life_def] at *
  simpa only [hs, hl, ht] using h

theorem State.directFrame_touch (s : State) (l : Line) (c : Chan) : (s.touch l).directFrame c = s.directFrame c := by
  unfold State.directFrame
  rw [State.life_touch]

theorem State.line_withRowsOf (s t : State) (l : Line) :
    (s.withRowsOf t).line l = { s.line l with row := (t.line l).row } := by
  cases l <;> rfl

theorem State.device_withRowsOf (s t : State) : (s.withRowsOf t).device = s.device := by
  simp [State.device, State.withRowsOf]

/-- A recorded kind that the line's event mask allows stands in the record. -/
theorem State.recordedFor_bit {s : State} {l : Line} {k : Kind} (h : (s.line l).settings.eventMask.getLsbD k.bit = true)
    (e : EventRecord) : (s.recordedFor l k e).kinds.getLsbD k.bit = true := by
  rw [State.recordedFor, if_pos h]
  cases k <;> simp [Kind.bit]

theorem State.recordedFor_keeps (s : State) (l : Line) (k : Kind) {e : EventRecord} {n : Nat}
    (h : e.kinds.getLsbD n = true) : (s.recordedFor l k e).kinds.getLsbD n = true := by
  unfold State.recordedFor
  split
  · simp [h]
  · exact h

/-! ### The state after the order -/

/-- The part after a RELEASE carried out and answered. -/
def State.released (s : State) (o : Order) : State :=
  ((s.touch o.line).releaseHalf o.line o.channel).settle.formReply o.line .done o.echoed 0

theorem exec_release_active {s : State} {o : Order} {a : Active} (h : s.addressed o) (hl : s.life o.channel = .active a) :
    exec (.release o) s = .next (s.released o) :=
  exec_release h (by rw [hl]; cases o.line <;> rfl)

theorem State.answered_released (s : State) (o : Order) : (s.released o).answered o .done o.echoed 0 :=
  State.answered_formReply _ _ _ _ _

@[simp] theorem State.device_released (s : State) (o : Order) : (s.released o).device = s.device := by
  simp [State.released]

@[simp] theorem State.link_released (s : State) (o : Order) : (s.released o).link = s.link := by
  simp [State.released]

theorem State.chan_released (s : State) (o : Order) (d : Chan) :
    (s.released o).chan d = ((s.touch o.line).releaseHalf o.line o.channel).chan d := by
  simp [State.released]

theorem State.slot_released (s : State) (o : Order) (x : Slot) :
    (s.released o).slot x = ((s.touch o.line).releaseHalf o.line o.channel).slot x := by
  simp [State.released]

theorem State.row_released (s : State) (o : Order) (k : Line) :
    ((s.released o).line k).row = (((s.touch o.line).releaseHalf o.line o.channel).line k).row := by
  by_cases hk : o.line = k
  · rw [State.released, ← hk, State.line_formReply_self, State.line_settle]
  · rw [State.released, State.line_formReply_ne _ hk, State.line_settle]

section Active

variable {s : State} {o : Order} {a : Active} (hl : s.life o.channel = .active a)
include hl

theorem State.life_touched : (s.touch o.line).life o.channel = .active a := by rwa [State.life_touch]

theorem State.pool_released : (s.released o).pool = ((s.touch o.line).stopStreams o.channel a).pool := by
  rw [← State.pool_releaseHalf_active o.line (State.life_touched hl)]
  simp [State.released]

/-- The issuing line's row latched to the channel is EMPTY afterwards (R149). -/
theorem State.row_released_own :
    ((s.released o).line o.line).row
      = if (s.line o.line).row.latched = some o.channel then { latched := none, slots := [], pending := false }
        else (s.line o.line).row := by
  rw [State.row_released, State.line_releaseHalf_active o.line (State.life_touched hl)]
  simp [Row.empty]

/-- The other line's row PENDING on the channel is EMPTY afterwards (R24). -/
theorem State.row_released_other :
    ((s.released o).line (otherLine o.line)).row
      = if s.pendingOn (otherLine o.line) o.channel = true then { latched := none, slots := [], pending := false }
        else (s.line (otherLine o.line)).row := by
  rw [State.row_released, State.line_releaseHalf_active o.line (State.life_touched hl)]
  simp [Row.empty]

/-- Both Line Units follow the order but for their rows. -/
theorem State.lines_released :
    ((s.withRowsOf (s.released o)).line o.line).sameButTaking ((s.released o).line o.line)
      ∧ ((s.withRowsOf (s.released o)).line (otherLine o.line)).sameButList
        ((s.released o).line (otherLine o.line)) := by
  constructor
  · rw [State.line_withRowsOf, State.row_released]
    refine State.sameButTaking_formReply ?_ _ _ _
    rw [State.line_settle, State.line_releaseHalf_active o.line (State.life_touched hl), State.line_touch_self]
    rfl
  · rw [State.line_withRowsOf, State.row_released, State.released, State.line_formReply_other, State.line_settle,
      State.line_releaseHalf_active o.line (State.life_touched hl), State.line_touch_other]
    rfl

/-- The contexts of the other channels, but for a splice partner, stay. -/
theorem State.sameChannels_released : s.sameChannels (s.released o) (o.channel :: a.partner.toList) := by
  intro d hd
  rw [List.mem_cons, not_or] at hd
  obtain ⟨hc, hp⟩ := hd
  rw [State.chan_released, State.chan_releaseHalf_active_ne o.line (State.life_touched hl) (Ne.symm hc),
    State.chan_stopStreams_ne _ (Ne.symm hc) hp, State.chan_touch]

/-- The context after the order, but for its life, where the channel is not its own partner. -/
theorem State.chan_released_self (hp : a.partner ≠ some o.channel) :
    ((s.released o).chan o.channel).continuity = (s.chan o.channel).continuity
      ∧ (∀ k, ((s.released o).chan o.channel).counter k = (s.chan o.channel).counter k)
      ∧ ∃ e : Line → EventRecord,
        (∀ k, e k = if k = .F ∧ a.partner ≠ none then s.recordedFor .F .spliceEnded (s.chan o.channel).eventsF
          else (s.chan o.channel).events k)
        ∧ ((s.released o).chan o.channel).events o.line
          = (if s.pendingOn o.line o.channel = true then s.recordedFor o.line .commitLost (e o.line) else e o.line)
        ∧ ((s.released o).chan o.channel).events (otherLine o.line)
          = (if s.pendingOn (otherLine o.line) o.channel = true then
              s.recordedFor (otherLine o.line) .commitApplied
                (s.recordedFor (otherLine o.line) .peerReleased (e (otherLine o.line)))
            else s.recordedFor (otherLine o.line) .peerReleased (e (otherLine o.line))) := by
  obtain ⟨hcont, hcount, hown, hother⟩ := State.chan_releaseHalf_active o.line (State.life_touched hl)
  obtain ⟨scont, scount, sevents⟩ := (s.touch o.line).chan_stopStreams_self hp
  simp only [State.pendingOn_touch, State.recordedFor_touch] at hown hother
  rw [State.chan_released]
  refine ⟨by rw [hcont, scont, State.chan_touch], fun k => ?_, _, fun k => ?_, hown, hother⟩
  · rw [Channel.counter, Channel.counter]
    simp only [hcount, scount, State.chan_touch]
  · rw [sevents, State.recordedFor_touch, State.chan_touch]

/-- Both lines' records where rows were PENDING: COMMIT_LOST, COMMIT_APPLIED and PEER_RELEASED as far as the masks allow
them (R24, R149). -/
theorem State.events_released :
    (s.pendingOn o.line o.channel = true →
      (s.line o.line).settings.eventMask.getLsbD Kind.commitLost.bit = true →
      (((s.released o).chan o.channel).events o.line).kinds.getLsbD Kind.commitLost.bit = true)
    ∧ (s.pendingOn (otherLine o.line) o.channel = true →
      ((s.line (otherLine o.line)).settings.eventMask.getLsbD Kind.commitApplied.bit = true →
        (((s.released o).chan o.channel).events (otherLine o.line)).kinds.getLsbD Kind.commitApplied.bit = true)
      ∧ ((s.line (otherLine o.line)).settings.eventMask.getLsbD Kind.peerReleased.bit = true →
        (((s.released o).chan o.channel).events (otherLine o.line)).kinds.getLsbD Kind.peerReleased.bit = true)) := by
  obtain ⟨-, -, hown, hother⟩ := State.chan_releaseHalf_active o.line (State.life_touched hl)
  simp only [State.pendingOn_touch, State.recordedFor_touch] at hown hother
  rw [State.chan_released]
  refine ⟨fun hp hm => ?_, fun hp => ⟨fun hm => ?_, fun hm => ?_⟩⟩
  · rw [hown, if_pos hp]
    exact State.recordedFor_bit hm _
  · rw [hother, if_pos hp]
    exact State.recordedFor_bit hm _
  · rw [hother, if_pos hp]
    exact State.recordedFor_keeps _ _ _ (State.recordedFor_bit hm _)

/-- The timeslots after a release by F. -/
theorem State.slot_released_F (ho : o.line = .F) (hr : s.rowsOk) (x : Slot) :
    (s.released o).slot x
      = if a.fixed.timeslot = x then { s.slot x with entry := .free, source := .idle }
        else if s.pendingOn .F o.channel = true ∧ s.lineF.row.timeslot? = some x
            ∧ (s.slot x).entry = .reserved o.channel then
          { s.slot x with entry := .free }
        else s.slot x := by
  have hrow : (s.touch o.line).lineF.row = s.lineF.row := s.row_touch o.line .F
  have h := State.slot_releaseHalf_active_F (State.life_touched hl) (State.rowsOk_touch hr o.line) x
  simp only [State.pendingOn_touch, State.slot_touch, hrow] at h
  rw [State.slot_released, ← h, ho]

/-- The timeslots after a release by R, with no row of F PENDING. -/
theorem State.slot_released_R (ho : o.line = .R) (hr : s.rowsOk) (hp : s.pendingOn .F o.channel = false) (x : Slot) :
    (s.released o).slot x = if a.fixed.timeslot = x then { s.slot x with source := .idle } else s.slot x := by
  have h := State.slot_releaseHalf_active_R (State.life_touched hl) (State.rowsOk_touch hr o.line)
    (by rwa [State.pendingOn_touch]) x
  rw [State.slot_touch] at h
  rw [State.slot_released, ← h, ho]

/-- The half left by R, with a row of F PENDING. -/
theorem State.released_R_pending (ho : o.line = .R) (hr : s.rowsOk) (hp : s.pendingOn .F o.channel = true) :
    ∃ fixed, (s.released o).life o.channel
        = .halfF { tag := a.tag, fixed, timer := s.startedTimer .F, check := none }
      ∧ s.lineF.row.setsFixed a.fixed fixed ∧ fixed.feed = a.fixed.feed
      ∧ fixed.timeslot = s.lineF.row.timeslot?.getD a.fixed.timeslot
      ∧ ∀ x, (s.released o).slot x
        = if fixed.timeslot = a.fixed.timeslot then
            (if a.fixed.timeslot = x then { s.slot x with source := .idle } else s.slot x)
          else if x = fixed.timeslot then { s.slot x with entry := .bound o.channel, source := .idle }
          else if x = a.fixed.timeslot then { s.slot x with entry := .free, source := .idle }
          else s.slot x := by
  have hrow : (s.touch o.line).lineF.row = s.lineF.row := s.row_touch o.line .F
  obtain ⟨fixed, hlife, hsets, hfeed, htime, hslot⟩ := State.releaseHalf_active_R_pending (State.life_touched hl)
    (State.rowsOk_touch hr o.line) (by rwa [State.pendingOn_touch])
  rw [hrow] at hsets htime
  simp only [State.slot_touch] at hslot
  refine ⟨fixed, ?_, hsets, hfeed, htime, fun x => ?_⟩
  · rw [State.life_def, State.chan_released, ← s.startedTimer_touch o.line, ← hlife, ho]
    rfl
  · rw [State.slot_released, ← hslot, ho]

/-- The life left with no row of the other line PENDING. -/
theorem State.life_released (hp : s.pendingOn (otherLine o.line) o.channel = false) :
    (s.released o).life o.channel = s.leftLife o.line a := by
  rw [State.life_def, State.chan_released, ← State.life_def,
    State.life_releaseHalf_active o.line (State.life_touched hl) (by rwa [State.pendingOn_touch])]
  cases o.line <;> simp [State.leftLife]

/-- Every timeslot stays but the channel's own and the one that a PENDING row of F names. -/
theorem State.sameSlots_released (hr : s.rowsOk) :
    s.sameSlots (s.released o)
      (a.fixed.timeslot :: if s.pendingOn .F o.channel = true then s.lineF.row.timeslot?.toList else []) := by
  intro x hx
  rw [List.mem_cons, not_or] at hx
  obtain ⟨hxa, hxr⟩ := hx
  have hnamed : s.pendingOn .F o.channel = true → s.lineF.row.timeslot? ≠ some x := fun hp ht => by
    rw [if_pos hp, ht] at hxr
    exact hxr (by simp)
  cases ho : o.line with
  | F =>
    rw [State.slot_released_F hl ho hr, if_neg (Ne.symm hxa), if_neg fun h => hnamed h.1 h.2.1]
  | R =>
    cases hp : s.pendingOn .F o.channel with
    | false => rw [State.slot_released_R hl ho hr hp, if_neg (Ne.symm hxa)]
    | true =>
      obtain ⟨fixed, -, -, -, htime, hslot⟩ := State.released_R_pending hl ho hr hp
      rw [hslot, if_neg (Ne.symm hxa), if_neg hxa]
      by_cases hsame : fixed.timeslot = a.fixed.timeslot
      · rw [if_pos hsame]
      · have hne : x ≠ fixed.timeslot := by
          rintro rfl
          cases ht : s.lineF.row.timeslot? with
          | none => exact hsame (by rw [htime, ht, Option.getD_none])
          | some y => exact hnamed hp (by rw [htime, ht, Option.getD_some])
        rw [if_neg hsame, if_neg hne]

/-- What the order leaves as it was, but for the rows. -/
theorem State.orderFrame_released (hr : s.rowsOk) :
    (s.withRowsOf (s.released o)).orderFrame (s.released o) o (o.channel :: a.partner.toList)
      (a.fixed.timeslot :: if s.pendingOn .F o.channel = true then s.lineF.row.timeslot?.toList else []) :=
  ⟨by rw [State.device_withRowsOf, State.device_released], State.sameChannels_released hl,
    State.sameSlots_released hl hr, State.lines_released hl⟩

end Active

end Sys2Proof.Machine
end

section
/-! SUPPORT. The two statements about RELEASE of an ACTIVE channel, from the parts of the state that the order leaves. -/

namespace Sys2Proof.Machine

section Active

variable {s : State} {o : Order} {a : Active} (hl : s.life o.channel = .active a)
include hl

/-- The pool of the part after the order is the one that the withdrawals and marks leave, where no DIRECT window of a partner
has its DECODE offered. -/
theorem State.pool_released_of_no_direct {d : Chan} {y : Active}
    (hp : a.partner = none ∨ (a.partner = some d ∧ d ≠ o.channel ∧ s.life d = .active y))
    (hf : a.partner = none ∨ s.directFrame d = none) :
    (s.released o).pool = ((s.touch o.line).abandonJobs o.channel).pool := by
  rw [State.pool_released hl]
  rcases hp with hn | ⟨hs, hd, hy⟩
  · rw [State.stopStreams_unspliced _ _ hn]
  · rcases hf with hn | hf
    · rw [State.stopStreams_unspliced _ _ hn]
    · exact (State.chan_stopStreams_partner hs hd (by rwa [State.life_touch])
        (by rwa [State.directFrame_touch])).1

/-- The partner of a spliced channel once that is released: resumed, or with the DECODE of its DIRECT window offered
(R164). -/
theorem State.partner_released {d : Chan} {y : Active} (hs : a.partner = some d) (hd : d ≠ o.channel)
    (hy : s.life d = .active y) :
    (s.directFrame d = none →
      (s.released o).chan d = { s.chan d with
        life := .active (y.resumed (s.nextAt y.down.phase))
        eventsF := s.recordedFor .F .spliceEnded (s.chan d).eventsF })
    ∧ ∀ f deadline, s.directFrame d = some (f, deadline) →
      ∃ w, ((s.touch o.line).abandonJobs o.channel).decodeOffered (s.released o) d f deadline w
        ∧ s.unspliced (s.released o) d (y.resumed (s.nextAt y.down.phase)) w := by
  have hy1 : (s.touch o.line).life d = .active y := by rwa [State.life_touch]
  have hnext : (s.touch o.line).nextAt y.down.phase = s.nextAt y.down.phase := State.nextAt_of_device (by simp) _
  have hchan : (s.released o).chan d = ((s.touch o.line).stopStreams o.channel a).chan d := by
    rw [State.chan_released, State.chan_releaseHalf_active_ne o.line (State.life_touched hl) (Ne.symm hd)]
  refine ⟨fun hf => ?_, fun f deadline hf => ?_⟩
  · rw [hchan, (State.chan_stopStreams_partner hs hd hy1 (by rwa [State.directFrame_touch])).2]
    simp [hnext]
  · obtain ⟨w, hoffer, hspl⟩ := State.unspliced_stopStreams hs hd hy1
      (show (s.touch o.line).directFrame d = some (f, deadline) by rwa [State.directFrame_touch])
    rw [hnext] at hspl
    exact ⟨w, State.decodeOffered_after (State.pool_released hl) (State.clock_of_device (by simp)) hoffer,
      State.unspliced_of_eq (by simp) (fun l => by simp) hchan hspl⟩

end Active

/-- Settles O33: the parts of the state that the order leaves, with the pool that the withdrawals and marks leave as the
state between. -/
theorem releaseLeavesTheOtherHalf : Obligations.ReleaseLeavesTheOtherHalf := by
  rintro o s a d y l hr ha hl rfl hpart
  have hpart' : a.partner = none ∨ (a.partner = some d ∧ d ≠ o.channel ∧ s.life d = .active y) :=
    hpart.imp_right fun ⟨hs, hd, hy, _⟩ => ⟨hs, hd, hy⟩
  have hself : a.partner ≠ some o.channel := by
    rcases hpart' with hn | ⟨hs, hd, -⟩
    · simp [hn]
    · rw [hs]
      exact fun h => hd (Option.some.inj h)
  obtain ⟨hcont, hcount, e, he, hown, hother⟩ := State.chan_released_self hl hself
  refine ⟨s.released o, (s.touch o.line).abandonJobs o.channel, e, exec_release_active ha hl, s.answered_released o,
    State.orderFrame_released hl hr,
    State.row_released_own hl, State.row_released_other hl, s.link_released o, by simp, ?_, fun e => ?_,
    State.pool_released_of_no_direct hl hpart', hcount, hcont, he, hown, hother, fun ho => ⟨?_, fun x hp ht hx => ?_,
      fun hp => ?_⟩, fun ho hp => ⟨?_, ?_⟩, fun hs => ?_⟩
  · rw [State.jobs_abandonJobs, State.touch_jobs]
  · rw [State.engines_abandonJobs]
    simp only [State.touch_engines]
  · rw [State.slot_released_F hl ho hr, if_pos rfl]
  · rw [State.slot_released_F hl ho hr, if_neg (Ne.symm hx)]
    simp [hp, ht]
  · rw [State.life_released hl (by rwa [ho]), ho]
    rfl
  · rw [State.slot_released_R hl ho hr hp, if_pos rfl]
  · rw [State.life_released hl (by rwa [ho]), ho]
    rfl
  · rcases hpart with hn | ⟨-, hd, hy, hph⟩
    · rw [hs] at hn
      cases hn
    · obtain ⟨hlt, hle, hat⟩ := State.nextAt_spec hph.1 (hph.2 d y hy).1
      exact ⟨_, _, hlt, hle, hat, rfl, State.partner_released hl hs hd hy⟩

/-- The half that remains once the other line's PENDING row has been applied to it (R21, R22, R24). -/
theorem State.leftWithRow_released {s : State} {o : Order} {a : Active} (hl : s.life o.channel = .active a)
    (hr : s.rowsOk) (hp : s.pendingOn (otherLine o.line) o.channel = true) :
    s.leftWithRow (s.released o) o.line o.channel a := by
  refine ⟨fun ho => ?_, fun ho => ?_⟩
  · rw [ho] at hp
    obtain ⟨radio, hlife, hsets, hactive⟩ := State.releaseHalf_active_F_pending (State.life_touched hl)
      (State.rowsOk_touch hr o.line) (by rwa [State.pendingOn_touch])
    have hrow : (s.touch o.line).lineR.row = s.lineR.row := s.row_touch o.line .R
    rw [hrow] at hsets
    refine ⟨radio, ?_, hsets, hactive⟩
    rw [State.life_def, State.chan_released, ← s.startedTimer_touch o.line, ← hlife, ho]
    rfl
  · rw [ho] at hp
    obtain ⟨fixed, hlife, hsets, hfeed, htime, hslot⟩ := State.released_R_pending hl ho hr hp
    refine ⟨fixed, hlife, hsets, hfeed, fun hno => ?_, fun hsame => ?_, fun v x hv hx => ?_⟩
    · rw [htime, Row.timeslot?_eq_none.mpr hno, Option.getD_none]
    · rw [hslot, if_pos hsame, if_pos rfl]
    · have hnd := ((hr .F).1.items ((s.pendingOn_iff .F o.channel).mp hp).2).1
      have hvx : (Fin.ofNat 128 v.toNat : Slot) = x := by
        apply Fin.ext
        simp [Fin.ofNat, ← hx, Nat.mod_eq_of_lt x.isLt]
      have hfx : fixed.timeslot = x := by
        rw [htime, show s.lineF.row.timeslot? = _ from Row.timeslot?_of_mem hnd hv, Option.getD_some, hvx]
      refine ⟨hfx, fun hne => ⟨?_, ?_⟩⟩
      · rw [hslot, hfx, if_neg hne, if_pos rfl]
      · rw [hslot, hfx, if_neg hne, if_neg (Ne.symm hne), if_pos rfl]

/-- Settles O34: the issuing line's PENDING row lost, the other line's applied to the half that remains. -/
theorem releaseLosesAndAppliesPendingRows : Obligations.ReleaseLosesAndAppliesPendingRows := by
  intro o s a ha hl hr hm
  obtain ⟨hlost, happlied⟩ := State.events_released hl
  refine ⟨s.released o, exec_release_active ha hl, s.device_released o, fun hp => ⟨?_, hlost hp, fun x hx ho => ?_⟩,
    fun hp => ⟨?_, (happlied hp).1, (happlied hp).2, fun hself => ?_, fun ho => ?_, State.leftWithRow_released hl hr hp⟩⟩
  · rw [State.row_released_own hl, if_pos ((s.pendingOn_iff _ _).mp hp).2]
  · obtain ⟨hpF, ht, hown⟩ := (hm x o.channel).2.mp hx
    have hne : a.fixed.timeslot ≠ x := hown a.fixed (by rw [hl]; rfl)
    rw [State.slot_released_F hl ho hr, if_neg hne, if_pos ⟨hpF, ht, hx⟩]
  · rw [State.row_released_other hl, if_pos hp]
  · exact State.givenUp_of_pool (State.pool_released hl) ((s.touch o.line).givenUp_stopStreams hself)
  · rw [State.slot_released_F hl ho hr, if_pos rfl]

end Sys2Proof.Machine
end

section
/-! SUPPORT. The speech arithmetic keeps the ranges of R39: what expansion, gain and the adaptive code give, from operands
of any size where the rule saturates and from operands in range where it does not. -/

namespace Sys2Proof.Machine

/-! ### Samples and blocks -/

theorem sampleInRange_zero : sampleInRange 0 := ⟨by decide, by decide⟩

/-- Saturation brings any integer into the linear range (R39). -/
theorem sampleInRange_saturate (x : Int) : sampleInRange (Speech.saturate x) := by
  unfold sampleInRange Speech.saturate Speech.clamp
  omega

/-- The largest magnitude of an octet is that of segment 7 and level 15 (R27). -/
theorem expandedMagnitude_le (o : Octet) : Speech.expandedMagnitude o ≤ 8031 := by
  have hlevel : 2 * (o.toNat % 16) + 33 ≤ 63 := by omega
  have hsegment : 2 ^ (o.toNat / 16 % 8) ≤ 2 ^ 7 := Nat.pow_le_pow_right (by omega) (by omega)
  have hproduct := Nat.mul_le_mul hlevel hsegment
  unfold Speech.expandedMagnitude
  omega

/-- An expanded octet lies well within the linear range, so the rings need no saturation (R27). -/
theorem sampleInRange_expand (o : Octet) : sampleInRange (Speech.expand o) := by
  have hle := expandedMagnitude_le o
  unfold sampleInRange Speech.expand
  split <;> omega

theorem blockInRange_nil : blockInRange [] := fun _ hx => nomatch hx

theorem blockInRange_cons {x : Int} {b : Block} : blockInRange (x :: b) ↔ sampleInRange x ∧ blockInRange b :=
  List.forall_mem_cons

theorem blockInRange_replicate_zero (n : Nat) : blockInRange (List.replicate n 0) := fun _ hx =>
  List.eq_of_mem_replicate hx ▸ sampleInRange_zero

/-- A gain saturates, so the block it is applied to may hold anything (R29). -/
theorem blockInRange_gainBlock (g : Nat) (b : Block) : blockInRange (Speech.gainBlock g b) :=
  List.forall_mem_map.mpr fun _ _ => sampleInRange_saturate _

/-- A ring stays in range as an expanded octet takes the place of its oldest sample (R56). -/
theorem blockInRange_pushRing {ring : Block} (h : blockInRange ring) (o : Octet) :
    blockInRange (pushRing ring (Speech.expand o)) := by
  intro x hx
  rcases List.mem_append.mp hx with hx | hx
  · exact h x (List.mem_of_mem_drop hx)
  · exact List.mem_singleton.mp hx ▸ sampleInRange_expand o

/-! ### The adaptive code -/

/-- A coder's state within the ranges of R39. -/
def coderInRange (st : Speech.Coder) : Prop := sampleInRange st.predictor ∧ st.stepIndex ≤ 63

/-- The shared update saturates the predictor and clamps the step index (R32 steps 5 and 6). -/
theorem coderInRange_update (m : Mode) (st : Speech.Coder) (negative : Bool) (k : Nat) :
    coderInRange (Speech.update m st negative k) := by
  refine ⟨sampleInRange_saturate _, ?_⟩
  simp only [Speech.update, Speech.clamp]
  omega

/-- The end state of an ENCODE: the start state of an empty run, else the last update (R36). -/
theorem coderInRange_encodeSamples (m : Mode) {st : Speech.Coder} (h : coderInRange st) (xs : List Int) :
    coderInRange (Speech.encodeSamples m st xs).2 := by
  induction xs generalizing st with
  | nil => exact h
  | cons x xs ih => exact ih (coderInRange_update m st _ _)

theorem coderInRange_encodeFrame (m : Mode) {st : Speech.Coder} (h : coderInRange st) (b : Block) :
    coderInRange (Speech.encodeFrame m st b).2 :=
  coderInRange_encodeSamples m h b

theorem coderInRange_decodeSample (m : Mode) {st : Speech.Coder} (h : coderInRange st) (bits : List Bool) :
    coderInRange (Speech.decodeSample m st bits) := by
  cases bits with
  | nil => exact h
  | cons sign k => exact coderInRange_update m st sign _

/-- Every decoded sample is a predictor (R35). -/
theorem blockInRange_decodeSamples (m : Mode) (count : Nat) {st : Speech.Coder} (h : coderInRange st)
    (bits : List Bool) : blockInRange (Speech.decodeSamples m count st bits) := by
  induction count generalizing st bits with
  | zero => exact blockInRange_nil
  | succ count ih =>
    have hnext := coderInRange_decodeSample m h (bits.take m.bits)
    exact blockInRange_cons.mpr ⟨hnext.1, ih hnext _⟩

/-- The block of a DECODE job (R38). -/
theorem blockInRange_decodeFrame {f : SpeechFrame} (h : f.inRange) :
    blockInRange (Speech.decodeFrame f.mode ⟨f.predictor, f.stepIndex⟩ f.payload) :=
  blockInRange_decodeSamples f.mode _ (st := ⟨f.predictor, f.stepIndex⟩) h _

end Sys2Proof.Machine
end

section
/-! SUPPORT. The values of R39 and R185 gathered by the part that holds them, and the plain updates of the state that
keep them. -/

namespace Sys2Proof.Machine

/-! ### The values of one context -/

/-- The start state of a queued frame within the ranges of R39. -/
def Frame.inRange : Frame → Prop
  | .speech f => f.inRange
  | .quiet _ _ => True

/-- The samples of a held job within the range of R39. -/
def Held.inRange : Held → Prop
  | .record _ => True
  | .job e _ => blockInRange e.samples

/-- What a decode window holds, where the stream has one, within the ranges of R39. -/
def Uplink.inRange : Uplink → Prop
  | .priming _ _ => True
  | .running _ _ w => w.state.inRange

/-- The downlink fields within the ranges of R39. -/
def Downlink.inRange (d : Downlink) : Prop :=
  blockInRange d.ring ∧ coderInRange ⟨d.predictor, d.stepIndex⟩ ∧ ∀ i ∈ d.held, i.inRange

/-- The uplink fields within the ranges of R39. -/
def UplinkFields.inRange (u : UplinkFields) : Prop :=
  blockInRange u.lastGood ∧ (∀ f ∈ u.queue, f.inRange) ∧ u.stream.inRange

theorem Uplink.inRange_iff (u : Uplink) :
    u.inRange ↔ ∀ comfort expected w, u = .running comfort expected w → w.state.inRange := by
  cases u with
  | priming reference count => exact ⟨fun _ _ _ _ hu => (nomatch hu), fun _ => trivial⟩
  | running comfort expected w => exact ⟨fun h _ _ _ hu => by cases hu; exact h, fun h => h _ _ _ rfl⟩

/-- The values of an ACTIVE context are those of its two streams. -/
theorem Active.inRange_iff (a : Active) : a.inRange ↔ a.down.inRange ∧ a.up.inRange := by
  have hqueue : (∀ f, Frame.speech f ∈ a.up.queue → f.inRange) ↔ ∀ f ∈ a.up.queue, f.inRange :=
    ⟨fun h f hf => by cases f with
      | speech f => exact h f hf
      | quiet n level => trivial,
     fun h f hf => h _ hf⟩
  have hheld : (∀ e deadline, Held.job e deadline ∈ a.down.held → blockInRange e.samples)
      ↔ ∀ i ∈ a.down.held, i.inRange :=
    ⟨fun h i hi => by cases i with
      | record r => trivial
      | job e deadline => exact h e deadline hi,
     fun h e deadline hi => h _ hi⟩
  rw [Active.inRange, hqueue, hheld, ← Uplink.inRange_iff]
  simp only [Downlink.inRange, coderInRange, UplinkFields.inRange]
  tauto

/-- The values of a context, which holds none outside ACTIVE. -/
def Life.inRange : Life → Prop
  | .active a => a.inRange
  | .free | .halfF _ | .halfR _ => True

/-- The fields of a profile within the ranges of R185. -/
def Profile.inRange (p : Profile) : Prop :=
  ∀ f : Fin 9, f.val < 8 → (profileRange f.val).1 ≤ p.field f.val ∧ p.field f.val ≤ (profileRange f.val).2

/-- The values of the job that an engine runs. -/
def Engine.inRange (e : Engine) : Prop := ∀ j, e.job? = some j → j.work.inRange

theorem Engine.inRange_mapJob {e : Engine} (h : e.inRange) {f : Job → Job} (hf : ∀ j, (f j).work = j.work) :
    (e.mapJob f).inRange := by
  cases e with
  | free => exact h
  | out => exact h
  | busy j ends => exact fun k hk => by cases hk; exact hf j ▸ h j rfl
  | draining j ends => exact fun k hk => by cases hk; exact hf j ▸ h j rfl

/-! ### The values of the part -/

/-- The invariant of this family: the samples, predictors and step indices of the contexts, of the Job Queue and of the
engines within the ranges of R39, and the profile fields within those of R185. -/
structure State.valuesOk (s : State) : Prop where
  lives    : ∀ c, (s.life c).inRange
  jobs     : ∀ j ∈ s.jobs, j.work.inRange
  engines  : ∀ e : Fin 4, (s.engines[e.val]).inRange
  profiles : s.profilesOk

theorem State.valuesOk_iff (s : State) : s.valuesOk ↔ s.rangesOk ∧ s.profilesOk := by
  have hlives : (∀ c, (s.life c).inRange) ↔ ∀ c a, s.life c = .active a → a.inRange := by
    refine forall_congr' fun c => ?_
    cases s.life c with
    | active b => exact ⟨fun h a ha => by cases ha; exact h, fun h => h b rfl⟩
    | _ => exact ⟨fun _ _ ha => (nomatch ha), fun _ => trivial⟩
  refine ⟨fun h => ⟨⟨hlives.mp h.lives, h.jobs, h.engines⟩, h.profiles⟩, fun h => ?_⟩
  obtain ⟨⟨hl, hj, he⟩, hp⟩ := h
  exact ⟨hlives.mpr hl, hj, he, hp⟩

/-- The values of an ACTIVE context of the part. -/
theorem State.valuesOk.active {s : State} (h : s.valuesOk) {c : Chan} {a : Active} (ha : s.life c = .active a) :
    a.down.inRange ∧ a.up.inRange :=
  a.inRange_iff.mp (by simpa [ha, Life.inRange] using h.lives c)

/-! ### The plain updates -/

section Updates

variable {s : State} (h : s.valuesOk)
include h

/-- Only the contexts, the pool and the profiles hold values. -/
theorem State.valuesOk.of_eq {t : State} (hc : t.channels = s.channels) (hj : t.jobs = s.jobs)
    (he : t.engines = s.engines) (hp : t.profiles = s.profiles) : t.valuesOk := by
  refine ⟨?_, hj ▸ h.jobs, he ▸ h.engines, ?_⟩
  · simpa only [State.life, State.chan, hc] using h.lives
  · simpa only [State.profilesOk, hp] using h.profiles

theorem State.valuesOk.setChan (c : Chan) {ch : Channel} (hch : ch.life.inRange) : (s.setChan c ch).valuesOk := by
  refine ⟨fun d => ?_, h.jobs, h.engines, h.profiles⟩
  rw [State.life_def, State.chan_setChan]
  split
  · exact hch
  · exact h.lives d

theorem State.valuesOk.mapChan (c : Chan) {f : Channel → Channel}
    (hf : ∀ ch, ch.life.inRange → (f ch).life.inRange) : (s.mapChan c f).valuesOk :=
  h.setChan c (hf _ (h.lives c))

/-- A change of a context that leaves its lifecycle and the parts present in it. -/
theorem State.valuesOk.mapChan_of_life (c : Chan) {f : Channel → Channel} (hf : ∀ ch, (f ch).life = ch.life) :
    (s.mapChan c f).valuesOk :=
  h.mapChan c fun ch hch => (hf ch).symm ▸ hch

theorem State.valuesOk.setLife (c : Chan) {l : Life} (hl : l.inRange) : (s.setLife c l).valuesOk :=
  h.mapChan c fun _ _ => hl

theorem State.valuesOk.mapActive (c : Chan) {f : Active → Active} (hf : ∀ a, a.inRange → (f a).inRange) :
    (s.mapActive c f).valuesOk := by
  have hc := h.lives c
  unfold State.mapActive
  split
  · next a ha =>
    rw [ha] at hc
    exact h.setLife c (hf a hc)
  · exact h

theorem State.valuesOk.setUp (c : Chan) {up : UplinkFields} (hu : up.inRange) : (s.setUp c up).valuesOk :=
  h.mapActive c fun a ha => (Active.inRange_iff _).mpr ⟨((Active.inRange_iff a).mp ha).1, hu⟩

theorem State.valuesOk.mapSlot (x : Slot) (f : Timeslot → Timeslot) : (s.mapSlot x f).valuesOk :=
  h.of_eq rfl rfl rfl rfl

theorem State.valuesOk.setLine (l : Line) (u : LineUnit) : (s.setLine l u).valuesOk := by
  cases l <;> exact h.of_eq rfl rfl rfl rfl

theorem State.valuesOk.mapLine (l : Line) (f : LineUnit → LineUnit) : (s.mapLine l f).valuesOk := h.setLine l _

theorem State.valuesOk.setJobs {jobs : List Job} (hj : ∀ j ∈ jobs, j.work.inRange) :
    ({ s with jobs := jobs } : State).valuesOk :=
  ⟨h.lives, hj, h.engines, h.profiles⟩

theorem State.valuesOk.setEngine (e : Fin 4) {g : Engine} (hg : g.inRange) :
    ({ s with engines := s.engines.set e.val g } : State).valuesOk := by
  refine ⟨h.lives, h.jobs, fun d => ?_, h.profiles⟩
  rw [Vector.getElem_set]
  split
  · exact hg
  · exact h.engines d

theorem State.valuesOk.setProfile (p : Fin 8) {q : Profile} (hq : q.inRange) :
    ({ s with profiles := s.profiles.set p.val q } : State).valuesOk := by
  refine ⟨h.lives, h.jobs, h.engines, fun d f hf => ?_⟩
  rw [Vector.getElem_set]
  split
  · exact hq f hf
  · exact h.profiles d f hf

/-- A fold of updates each of which keeps the values. -/
theorem State.valuesOk.foldl {β : Type} {f : State → β → State} (hf : ∀ s b, s.valuesOk → (f s b).valuesOk)
    (l : List β) : (l.foldl f s).valuesOk := by
  induction l generalizing s with
  | nil => exact h
  | cons b l ih => exact ih (hf s b h)

end Updates

end Sys2Proof.Machine
end

section
/-! SUPPORT. The named operations keep the values in range: events and counters, records, the pool, the decode window
and the held items. -/

namespace Sys2Proof.Machine

/-! ### What an operation makes of one context -/

theorem Channel.life_record (ch : Channel) (u : LineUnit) (l : Line) (k : Kind) (causes : BitVec 5) :
    (ch.record u l k causes).life = ch.life := by
  unfold Channel.record
  split
  · cases l <;> rfl
  · rfl

/-- The work of an ENCODE: its samples and its start state. -/
theorem Work.inRange_encode {e : EncodeWork} (he : blockInRange e.samples) {start : Speech.Coder}
    (hs : coderInRange start) : (Work.encode e start).inRange :=
  ⟨he, hs⟩

theorem mem_insertJob {j k : Job} {jobs : List Job} (h : k ∈ insertJob j jobs) : k = j ∨ k ∈ jobs := by
  obtain ⟨ahead, behind, hb, ha, -, -⟩ := joins_insertJob j jobs
  rw [ha] at h
  rw [hb]
  simpa [or_left_comm] using h

section Operations

variable {s : State} (h : s.valuesOk)
include h

/-! ### Events and counters -/

theorem State.valuesOk.count (c : Chan) (k : Counter) : (s.count c k).valuesOk := h.mapChan_of_life c fun _ => rfl

theorem State.valuesOk.record (c : Chan) (l : Line) (k : Kind) : (s.record c l k).valuesOk :=
  h.mapChan_of_life c fun ch => ch.life_record _ l k 0

theorem State.valuesOk.warn (c : Chan) (k : Cause) : (s.warn c k).valuesOk :=
  h.mapChan_of_life c fun ch => by rw [Channel.life_record, Channel.life_record]

theorem State.valuesOk.recordLine (l : Line) (k : LineKind) : (s.recordLine l k).valuesOk := h.mapLine l _

theorem State.valuesOk.settle : s.settle.valuesOk := h.of_eq rfl rfl rfl rfl

/-! ### Records -/

theorem State.valuesOk.startTransmit : s.startTransmit.valuesOk := by
  unfold State.startTransmit
  split
  · exact h.of_eq rfl rfl rfl rfl
  · exact h

theorem State.valuesOk.offerRecord (r : Record) : (s.offerRecord r).valuesOk := by
  unfold State.offerRecord
  split
  · have hq : ({ s with transmit := s.transmit ++ [r] } : State).valuesOk := h.of_eq rfl rfl rfl rfl
    exact (hq.count _ _).startTransmit
  · exact ((h.count _ _).recordLine _ _).recordLine _ _

/-! ### The pool -/

theorem State.valuesOk.startHead : s.startHead.valuesOk := by
  unfold State.startHead
  split
  · next j rest e hj _ =>
    have hjobs : ∀ k ∈ j :: rest, k.work.inRange := hj ▸ h.jobs
    have hbusy : (Engine.busy j (s.clock + Speech.jobClocks j.mode)).inRange := fun k hk => by
      cases hk
      exact hjobs j List.mem_cons_self
    exact (h.setJobs fun k hk => hjobs k (List.mem_cons_of_mem j hk)).setEngine e hbusy
  · exact h

theorem State.valuesOk.arbitrate : s.arbitrate.valuesOk := h.startHead.startHead.startHead.startHead

theorem State.valuesOk.unqueue (c : Chan) (k : JobKind) : (s.unqueue c k).valuesOk :=
  h.setJobs fun j hj => h.jobs j (List.mem_of_mem_filter hj)

theorem State.valuesOk.abandonJob (c : Chan) (k : JobKind) : (s.abandonJob c k).valuesOk := by
  have hq := h.unqueue c k
  refine ⟨hq.lives, hq.jobs, fun e => ?_, hq.profiles⟩
  simp only [State.abandonJob, Vector.getElem_map]
  exact Engine.inRange_mapJob (h.engines e) fun j => by split <;> rfl

theorem State.valuesOk.offerJob {j : Job} (hj : j.work.inRange) : (s.offerJob j).1.valuesOk := by
  have hq : ({ s with jobs := insertJob j s.jobs } : State).valuesOk := h.setJobs fun k hk => by
    rcases mem_insertJob hk with rfl | hk
    · exact hj
    · exact h.jobs k hk
  unfold State.offerJob
  split
  · exact h
  · dsimp only
    split
    · exact hq.arbitrate.unqueue _ _
    · exact hq.arbitrate

/-! ### Misses -/

theorem State.valuesOk.setWindow (c : Chan) {w : WindowState} (hw : w.inRange) : (s.setWindow c w).valuesOk :=
  h.mapActive c fun a ha => by
    split
    · next comfort expected old _ =>
      obtain ⟨hdown, hgood, hqueue, -⟩ := (Active.inRange_iff a).mp ha
      exact (Active.inRange_iff _).mpr ⟨hdown, hgood, hqueue, hw⟩
    · exact ha

theorem State.valuesOk.decodeMiss (c : Chan) : (s.decodeMiss c).valuesOk :=
  ((h.setWindow c (w := .closed) trivial).count c _).warn c _

theorem State.valuesOk.encodeMiss (c : Chan) : (s.encodeMiss c).valuesOk := (h.count c _).warn c _

/-! ### Held items -/

theorem State.valuesOk.heldItems (c : Chan) : ∀ i ∈ s.heldItems c, i.inRange := by
  unfold State.heldItems
  split
  · next a ha => exact (h.active ha).1.2.2
  · exact fun _ hi => nomatch hi

theorem State.valuesOk.setHeld (c : Chan) {items : List Held} (hi : ∀ i ∈ items, i.inRange) :
    (s.setHeld c items).valuesOk :=
  h.mapActive c fun a ha => by
    obtain ⟨⟨hring, hcoder, -⟩, hup⟩ := (Active.inRange_iff a).mp ha
    exact (Active.inRange_iff _).mpr ⟨⟨hring, hcoder, hi⟩, hup⟩

theorem State.valuesOk.offerEncode (c : Chan) {e : EncodeWork} (he : blockInRange e.samples) (deadline : Nat) :
    (s.offerEncode c e deadline).1.valuesOk := by
  unfold State.offerEncode
  split
  · next a ha => exact h.offerJob (Work.inRange_encode he (h.active ha).1.2.1)
  · exact h

theorem State.valuesOk.releaseItems (c : Chan) {items : List Held} (hi : ∀ i ∈ items, i.inRange) :
    (State.releaseItems c items s).valuesOk := by
  induction items generalizing s with
  | nil => exact h.setHeld c hi
  | cons i rest ih =>
    obtain ⟨hhead, hrest⟩ := List.forall_mem_cons.mp hi
    cases i with
    | record r => exact ih (h.offerRecord r) hrest
    | job e deadline =>
      have hoffer := h.offerEncode c hhead deadline
      rw [State.releaseItems]
      split
      · next t ht =>
        rw [ht] at hoffer
        exact ih (hoffer.encodeMiss c) hrest
      · next t ht =>
        rw [ht] at hoffer
        exact hoffer.setHeld c hrest

theorem State.valuesOk.releaseHeld (c : Chan) : (s.releaseHeld c).valuesOk := h.releaseItems c (h.heldItems c)

theorem State.valuesOk.handOn (c : Chan) {i : Held} (hi : i.inRange) : (s.handOn c i).valuesOk := by
  have hone : ∀ k ∈ [i], k.inRange := List.forall_mem_singleton.mpr hi
  unfold State.handOn
  split
  · exact h.setHeld c (List.forall_mem_append.mpr ⟨h.heldItems c, hone⟩)
  · exact h.releaseItems c hone

/-! ### The frame of a decode window -/

theorem State.valuesOk.offerDecode (c : Chan) {f : SpeechFrame} (hf : f.inRange) (deadline : Nat) :
    (s.offerDecode c f deadline).valuesOk := by
  have hwindow : ∀ held, (s.setWindow c (.decoding f held)).valuesOk := fun held => h.setWindow c hf
  unfold State.offerDecode
  split
  · exact hwindow true
  · have hoffer := (hwindow false).offerJob (j := { channel := c, deadline, work := .decode f, discard := false }) hf
    split
    · next t ht =>
      rw [ht] at hoffer
      exact hoffer.decodeMiss c
    · next t ht =>
      rw [ht] at hoffer
      exact hoffer

theorem State.valuesOk.takeFrame (c : Chan) {f : Frame} (hf : f.inRange) (deadline : Nat) :
    (s.takeFrame c f deadline).valuesOk := by
  cases f with
  | quiet n level => exact h.setWindow c (w := .quietNoted level) trivial
  | speech f =>
    rw [State.takeFrame]
    split
    · split
      · exact h.setWindow c (w := .direct f) hf
      · exact h.offerDecode c hf deadline
    · exact h.offerDecode c hf deadline

theorem State.valuesOk.openWindow (c : Chan) {up : UplinkFields} (hu : up.inRange) (comfort : Bool)
    (expected : BitVec 8) : (s.openWindow c up comfort expected).valuesOk := by
  obtain ⟨hgood, hqueue, -⟩ := hu
  have hwaiting := h.setUp c (up := { up with
      queue := up.queue.filter fun g => !decide (g.sequence = expected)
      stream := .running comfort expected { deadline := s.time + 152, state := .waiting } })
    ⟨hgood, fun g hg => hqueue g (List.mem_of_mem_filter hg), trivial⟩
  unfold State.openWindow
  dsimp only
  split
  · next f hf => exact hwaiting.takeFrame c (hqueue f (List.mem_of_find?_eq_some hf)) _
  · exact hwaiting

end Operations

end Sys2Proof.Machine
end

section
/-! SUPPORT. Staging rows, the lifecycle and the end of a splice keep the values in range. -/

namespace Sys2Proof.Machine

/-! ### The halves of a context, which hold no such value -/

theorem Life.inRange_mapFixed {l : Life} (h : l.inRange) (f : FixedHalf → FixedHalf) : (l.mapFixed f).inRange := by
  cases l <;> exact h

theorem Life.inRange_mapRadio {l : Life} (h : l.inRange) (f : RadioHalf → RadioHalf) : (l.mapRadio f).inRange := by
  cases l <;> exact h

theorem Life.inRange_rederived {l : Life} (h : l.inRange) : l.rederived.inRange := by
  cases l <;> exact h

theorem Life.inRange_applyItem {l : Life} (h : l.inRange) (i : Item) (v : BitVec 16) : (l.applyItem i v).inRange := by
  cases i with
  | timeslot => exact h
  | gainToFixed | gainToRadio | quietThreshold =>
    rw [Life.applyItem]
    exact Life.inRange_mapFixed h _
  | mode | modeSet | align | dtx =>
    rw [Life.applyItem]
    exact Life.inRange_mapRadio h _

theorem Active.inRange_setDown {a : Active} (h : a.inRange) {d : Downlink} (hd : d.inRange) :
    Active.inRange { a with down := d } :=
  (Active.inRange_iff _).mpr ⟨hd, ((Active.inRange_iff a).mp h).2⟩

/-- A context enters ACTIVE with zeros in its ring, predictor 0 and step index 8 (R12). -/
theorem State.entry_inRange (s : State) (c : Chan) (tag : BitVec 14) (fixed : FixedHalf) (radio : RadioHalf) :
    (s.entry c tag fixed radio).inRange :=
  (Active.inRange_iff _).mpr
    ⟨⟨blockInRange_replicate_zero 320, ⟨sampleInRange_zero, (by decide : 8 ≤ 63)⟩, fun _ hi => nomatch hi⟩,
      blockInRange_replicate_zero _, fun _ hf => (nomatch hf), trivial⟩

section Operations

variable {s : State} (h : s.valuesOk)
include h

/-! ### Rows -/

theorem State.valuesOk.moveTimeslot (c : Chan) (atPoint : Bool) (x : Slot) : (s.moveTimeslot c atPoint x).valuesOk := by
  unfold State.moveTimeslot
  split
  · exact h
  · dsimp only
    split
    · exact h
    · refine ((h.mapSlot x _).mapSlot _ _).mapChan c fun ch hch => ?_
      dsimp only
      exact Life.inRange_mapFixed hch _

theorem State.valuesOk.applySlot (c : Chan) (atPoint : Bool) (p : Item × BitVec 16) :
    (State.applySlot c atPoint s p).valuesOk := by
  unfold State.applySlot
  split
  · exact h.moveTimeslot c atPoint _
  · exact h.mapChan c fun _ hch => Life.inRange_applyItem hch _ _

theorem State.valuesOk.applyRow (l : Line) (atPoint : Bool) : (s.applyRow l atPoint).valuesOk := by
  unfold State.applyRow
  dsimp only
  split
  · exact h
  · next c _ =>
    have hslots := h.foldl (f := State.applySlot c atPoint) (fun _ p ht => ht.applySlot c atPoint p)
      (s.line l).row.slots
    refine (State.valuesOk.record ?_ c l _).mapLine l _
    split
    · exact hslots.mapChan c fun _ hch => Life.inRange_rederived hch
    · exact hslots

theorem State.valuesOk.applyPending (l : Line) (c : Chan) (atPoint : Bool) : (s.applyPending l c atPoint).valuesOk := by
  unfold State.applyPending
  split
  · exact h.applyRow l atPoint
  · exact h

theorem State.valuesOk.applyBoth (c : Chan) (atPoint : Bool) : (s.applyBoth c atPoint).valuesOk :=
  (h.applyPending .F c atPoint).applyPending .R c atPoint

theorem State.valuesOk.loseRow (l : Line) (c : Chan) : (s.loseRow l c).valuesOk := by
  unfold State.loseRow
  dsimp only
  split
  · refine State.valuesOk.mapLine ?_ l _
    split
    · refine State.valuesOk.record ?_ c l _
      split
      · exact h.mapSlot _ _
      · exact h
    · exact h
  · exact h

/-! ### The end of a splice -/

theorem State.valuesOk.sever (c : Chan) : (s.sever c).valuesOk :=
  (h.mapActive c (f := fun a => { a with partner := none }) fun _ ha => ha).record c _ _

/-- The ring of a resumed downlink starts from zeros (R164). -/
theorem State.valuesOk.resume (c : Chan) : (s.resume c).valuesOk :=
  h.mapActive c fun a ha => by
    obtain ⟨⟨-, hcoder, hheld⟩, -⟩ := (Active.inRange_iff a).mp ha
    exact Active.inRange_setDown ha ⟨blockInRange_replicate_zero 320, hcoder, hheld⟩

theorem State.valuesOk.directFrame {c : Chan} {f : SpeechFrame} {deadline : Nat}
    (hf : s.directFrame c = some (f, deadline)) : f.inRange := by
  obtain ⟨a, comfort, expected, ha, hs⟩ := State.directFrame_eq_some hf
  have hstream := (h.active ha).2.2.2
  rw [hs] at hstream
  exact hstream

theorem State.valuesOk.redirect (c : Chan) : (s.redirect c).valuesOk := by
  cases hf : s.directFrame c with
  | none => rwa [State.redirect_of_none hf]
  | some p =>
    rw [State.redirect_of_some hf]
    exact h.offerDecode c (h.directFrame hf) _

theorem State.valuesOk.endSplice (a b : Chan) : (s.endSplice a b).valuesOk := by
  have hresumed := (((h.sever a).sever b).resume a).resume b
  unfold State.endSplice
  dsimp only
  split
  · exact (hresumed.redirect a).redirect b
  · exact (hresumed.redirect b).redirect a

theorem State.valuesOk.stopStreams (c : Chan) (a : Active) : (s.stopStreams c a).valuesOk := by
  have habandoned := (h.abandonJob c .decode).abandonJob c .encode
  unfold State.stopStreams
  dsimp only
  split
  · exact habandoned
  · next b _ => exact (((habandoned.sever c).sever b).resume b).redirect b

/-! ### The halves -/

theorem State.valuesOk.abortCheck (c : Chan) (x : HalfF) : (s.abortCheck c x).valuesOk := by
  unfold State.abortCheck
  split
  · exact h
  · have hlife := (h.mapChan_of_life c (f := fun ch => { ch with continuity := { result := .aborted, delay := 0 } })
      fun _ => rfl).setLife c (l := .halfF { x with check := none }) trivial
    exact (hlife.record c _ _).mapSlot _ _

theorem State.valuesOk.releaseHalf (l : Line) (c : Chan) : (s.releaseHalf l c).valuesOk := by
  unfold State.releaseHalf
  split
  · next x _ => exact (((h.abortCheck c x).mapSlot _ _).setLife c (l := .free) trivial).loseRow .F c
  · exact (h.setLife c (l := .free) trivial).loseRow .R c
  · next a _ =>
    have hstopped := (h.stopStreams c a).mapSlot a.fixed.timeslot fun ts => { ts with entry := .free, source := .idle }
    have hleft := hstopped.setLife c
      (l := .halfR { tag := a.tag, radio := a.radio.derived .m32, timer := s.halfWaitTimer .R }) trivial
    exact ((hleft.record c _ _).loseRow .F c).applyPending .R c false
  · next a _ =>
    have hstopped := (h.stopStreams c a).mapSlot a.fixed.timeslot fun ts => { ts with source := .idle }
    have hleft := hstopped.setLife c
      (l := .halfF { tag := a.tag, fixed := a.fixed, timer := s.halfWaitTimer .F, check := none }) trivial
    exact ((hleft.record c _ _).loseRow .R c).applyPending .F c false
  · exact h

end Operations

end Sys2Proof.Machine
end

section
/-! SUPPORT. Arrivals, playout instants, boundaries and completions keep the values in range. -/

namespace Sys2Proof.Machine

/-! ### What a stream writes -/

/-- The frame of a readable record is handed over only within the ranges of R39 (R71, R72). -/
theorem goodFrame_inRange {modeSet : BitVec 3} {r : List Octet} {f : Frame} (h : goodFrame modeSet r = some f) :
    f.inRange := by
  unfold goodFrame at h
  dsimp only at h
  split at h
  · split at h
    · cases h
    · split at h
      · next hgood =>
        simp only [Bool.and_eq_true, decide_eq_true_eq] at hgood
        obtain ⟨⟨⟨-, hlow⟩, hhigh⟩, hindex⟩ := hgood
        cases h
        exact ⟨⟨hlow, hhigh⟩, hindex⟩
      · cases h
  · split at h
    · cases h
      trivial
    · cases h
  · cases h

theorem mem_insertFrame {reference : BitVec 8} {f g : Frame} {queue : List Frame}
    (h : g ∈ insertFrame reference f queue) : g = f ∨ g ∈ queue := by
  induction queue with
  | nil => simpa [insertFrame] using h
  | cons k rest ih =>
    unfold insertFrame at h
    split at h
    · exact List.mem_cons.mp h
    · rcases List.mem_cons.mp h with rfl | h
      · exact .inr List.mem_cons_self
      · exact (ih h).imp_right (List.mem_cons_of_mem k)

/-- The uplink fields that an instant leaves hold as last good block the one of a READY window or the one before it. -/
theorem chooseBlock_inRange {a : Active} {comfort comfort' : Bool} {w : WindowState} {block : Block}
    {up : UplinkFields} (ha : a.up.inRange) (hw : w.inRange)
    (h : chooseBlock a comfort w = some (block, up, comfort')) : up.inRange := by
  obtain ⟨-, hqueue, hstream⟩ := id ha
  cases w with
  | ready f b =>
    cases h
    exact ⟨hw.2, hqueue, hstream⟩
  | quietNoted level =>
    cases h
    exact ha
  | closed =>
    unfold chooseBlock at h
    dsimp only at h
    split at h <;> cases h <;> exact ha
  | waiting | decoding f held | direct f => cases h

/-- What an instant of a spliced channel sends holds a block under the to-fixed gain at most. -/
def Sent.inRange : Sent → Prop
  | .translation samples => blockInRange samples
  | .nothing | .record _ | .missed => True

theorem chooseSplice_inRange {a : Active} {comfort comfort' : Bool} {w : WindowState} {b : Chan} {target : Life}
    {sequence : BitVec 8} {sent : Sent} {up : UplinkFields} (ha : a.up.inRange) (hw : w.inRange)
    (h : chooseSplice a comfort w b target sequence = some (sent, up, comfort')) : sent.inRange ∧ up.inRange := by
  obtain ⟨-, hqueue, hstream⟩ := id ha
  cases w with
  | direct f =>
    cases h
    exact ⟨by split <;> trivial, ha⟩
  | ready f block =>
    cases h
    refine ⟨?_, hw.2, hqueue, hstream⟩
    split
    · trivial
    · exact blockInRange_gainBlock _ _
  | quietNoted level =>
    cases h
    exact ⟨trivial, ha⟩
  | closed =>
    unfold chooseSplice at h
    dsimp only at h
    split at h <;> cases h <;> exact ⟨trivial, ha⟩
  | waiting | decoding f held => cases h

theorem updateActivity_inRange (x threshold hangover : Nat) {d : Downlink} (h : d.inRange) :
    (updateActivity x threshold hangover d).inRange := by
  unfold updateActivity
  split
  · split
    · exact h
    · split <;> exact h
  · split
    · exact h
    · split <;> exact h

theorem afterBoundary_inRange (time : Nat) {a : Active} (h : a.inRange) : (afterBoundary time a).inRange :=
  Active.inRange_setDown h (updateActivity_inRange _ _ _ ((Active.inRange_iff a).mp h).1)

/-- The frame of a boundary stands under the to-radio gain, which saturates (R29, R57). -/
theorem blockInRange_boundaryFrame (a : Active) : blockInRange (boundaryFrame a) := by
  unfold boundaryFrame
  exact blockInRange_gainBlock _ _

theorem boundaryItem_inRange {c : Chan} {time : Nat} {a : Active} {i : Held} (h : boundaryItem c time a = some i) :
    i.inRange := by
  unfold boundaryItem at h
  split at h
  · cases h
    dsimp only [Held.inRange]
    exact blockInRange_boundaryFrame a
  · cases h
    trivial
  · cases h

theorem Life.inRange_checkOctet (s : State) (ch : Channel) (x : HalfF) (k : Check) (o : Octet) :
    (ch.checkOctet s x k o).life.inRange := by
  unfold Channel.checkOctet
  split
  · trivial
  · dsimp only
    split
    · rw [Channel.life_record]
      trivial
    · trivial

/-- At a frame sync the ring of a collecting channel takes an expanded octet, and no other value changes (R55, R56). -/
theorem Life.inRange_onSync (s : State) (incoming : Vector Octet 128) {ch : Channel} (h : ch.life.inRange) :
    (ch.onSync s incoming).life.inRange := by
  unfold Channel.onSync
  split
  · dsimp only
    split
    · exact Life.inRange_checkOctet s ch _ _ _
    · trivial
  · trivial
  · next a ha =>
    rw [ha] at h
    obtain ⟨⟨hring, hcoder, hheld⟩, hup⟩ := (Active.inRange_iff a).mp h
    refine (Active.inRange_iff _).mpr ⟨⟨?_, hcoder, hheld⟩, hup⟩
    dsimp only
    split
    · exact blockInRange_pushRing hring _
    · exact hring
  · exact h

section Operations

variable {s : State} (h : s.valuesOk)
include h

/-! ### Arrivals -/

theorem State.valuesOk.insertArrival (c : Chan) {up : UplinkFields} (hu : up.inRange) (reference : BitVec 8)
    {f : Frame} (hf : f.inRange) : (s.insertArrival c up reference f).valuesOk := by
  obtain ⟨hgood, hqueue, hstream⟩ := hu
  unfold State.insertArrival
  split
  · refine (State.valuesOk.setUp h c ?_).count c _
    refine ⟨hgood, fun g hg => ?_, hstream⟩
    rcases mem_insertFrame hg with rfl | hg
    · exact hf
    · exact hqueue g hg
  · split
    · refine (((State.valuesOk.setUp h c ?_).count c _).count c _).warn c _
      refine ⟨hgood, fun g hg => ?_, hstream⟩
      rcases List.mem_append.mp hg with hg | hg
      · exact hqueue g (List.mem_of_mem_drop hg)
      · exact List.mem_singleton.mp hg ▸ hf
    · exact (h.count c _).warn c _

theorem State.valuesOk.resync (c : Chan) {up : UplinkFields} (hu : up.inRange) {f : Frame} (hf : f.inRange) :
    (s.resync c up f).valuesOk := by
  refine (((h.abandonJob c _).setUp c ?_).count c _).warn c _
  exact ⟨hu.1, List.forall_mem_singleton.mpr hf, trivial⟩

theorem State.valuesOk.windowArrival (c : Chan) (w : Window) {f : Frame} (hf : f.inRange) :
    (s.windowArrival c w f).valuesOk := by
  unfold State.windowArrival
  split
  · exact (h.takeFrame c hf _).count c _
  all_goals exact h.count c _

theorem State.valuesOk.classify (c : Chan) {a : Active} (ha : a.up.inRange) {f : Frame} (hf : f.inRange) :
    (s.classify c a f).valuesOk := by
  have haccept : ∀ stream : Uplink, stream.inRange →
      ((s.setUp c { a.up with queue := [f], stream }).count c .framesAccepted).valuesOk := fun stream hstream => by
    refine (h.setUp c ?_).count c _
    exact ⟨ha.1, List.forall_mem_singleton.mpr hf, hstream⟩
  unfold State.classify
  dsimp only
  split
  · next reference count hs =>
    split
    · exact haccept _ (by rw [hs]; trivial)
    · exact haccept _ (by rw [hs]; trivial)
    · split
      · exact h.count c _
      · split
        · split
          · exact h.count c _
          · exact h.insertArrival c ha _ hf
        · exact h.resync c ha hf
  · split
    · exact h.count c _
    · split
      · exact h.windowArrival c _ hf
      · split
        · split
          · exact h.count c _
          · exact h.insertArrival c ha _ hf
        · exact h.resync c ha hf

theorem State.valuesOk.arrival (octets : List Octet) : (s.arrival octets).valuesOk := by
  unfold State.arrival
  dsimp only
  split
  · exact h.of_eq rfl rfl rfl rfl
  · split
    · next a ha =>
      split
      · next f hf => exact (h.classify _ (h.active ha).2 (goodFrame_inRange hf)).settle
      · exact h.count _ _
    · exact h.of_eq rfl rfl rfl rfl

/-! ### Playout instants -/

theorem State.valuesOk.primingInstant (c : Chan) {a : Active} (ha : a.up.inRange) (reference : Option (BitVec 8))
    (count : Nat) : (s.primingInstant c a reference count).valuesOk := by
  have hgoesOn : ∀ n, (s.setUp c { a.up with stream := .priming reference n }).valuesOk := fun n =>
    h.setUp c ⟨ha.1, ha.2.1, trivial⟩
  unfold State.primingInstant
  dsimp only
  split
  · split
    · exact h.openWindow c ha _ _
    · exact hgoesOn _
  · exact hgoesOn _

theorem State.valuesOk.concealed (c : Chan) (a : Active) (lossRun : Nat) : (s.concealed c a lossRun).valuesOk := by
  unfold State.concealed
  dsimp only
  split
  · exact (h.count c _).warn c _
  · exact h.count c _

theorem State.valuesOk.playBlock (a : Active) (b : Block) : (s.playBlock a b).valuesOk := by
  unfold State.playBlock
  exact h.mapSlot _ _

theorem State.valuesOk.runningInstant (c : Chan) {a : Active} (ha : a.up.inRange) (comfort : Bool)
    (expected : BitVec 8) {w : Window} (hw : w.state.inRange) : (s.runningInstant c a comfort expected w).valuesOk := by
  unfold State.runningInstant
  split
  · exact h
  · next block up comfort' hb =>
    refine State.valuesOk.openWindow ?_ c (chooseBlock_inRange ha hw hb) _ _
    split
    · exact (h.playBlock a block).concealed c a _
    · exact h.playBlock a block

theorem State.valuesOk.plainInstant (c : Chan) {a : Active} (ha : a.up.inRange) : (s.plainInstant c a).valuesOk := by
  unfold State.plainInstant
  split
  · exact (h.playBlock a _).primingInstant c ha _ _
  · next w hs =>
    have hstream := ha.2.2
    rw [hs] at hstream
    exact h.runningInstant c ha _ _ hstream

theorem State.valuesOk.sendToward (b : Chan) (target : Active) {sent : Sent} (hs : sent.inRange) :
    (s.sendToward b target sent).valuesOk := by
  cases sent with
  | nothing => exact h
  | record r => exact h.handOn b (i := .record r) trivial
  | translation samples => exact h.handOn b (i := .job _ _) hs
  | missed => exact h.encodeMiss b

theorem State.valuesOk.advanceSequence (b : Chan) : (s.advanceSequence b).valuesOk :=
  h.mapActive b fun a ha => Active.inRange_setDown ha ((Active.inRange_iff a).mp ha).1

theorem State.valuesOk.splicedInstant (c : Chan) {a : Active} (ha : a.up.inRange) (b : Chan) (target : Active) :
    (s.splicedInstant c a b target).valuesOk := by
  unfold State.splicedInstant
  split
  · exact (h.advanceSequence b).primingInstant c ha _ _
  · next w hstream =>
    have hw := ha.2.2
    rw [hstream] at hw
    split
    · exact h
    · next sent up comfort' hchoice =>
      obtain ⟨hsent, hup⟩ := chooseSplice_inRange ha hw hchoice
      refine State.valuesOk.openWindow (State.valuesOk.advanceSequence ?_ b) c hup _ _
      split
      · exact (h.sendToward b target hsent).concealed c a _
      · exact h.sendToward b target hsent

theorem State.valuesOk.takeInstant (c : Chan) : (s.takeInstant c).valuesOk := by
  unfold State.takeInstant
  split
  · next a ha =>
    have hup : (a.nextInstant s.time).up.inRange := (h.active ha).2
    split
    · exact (h.plainInstant c hup).settle
    · next b _ =>
      dsimp only
      split
      · exact ((h.applyBoth b true).splicedInstant c hup b _).settle
      · exact (h.applyBoth b true).settle
  · exact h

theorem State.valuesOk.closeWindow (c : Chan) (w : Window) : (s.closeWindow c w).valuesOk := by
  unfold State.closeWindow
  split
  · exact h.setWindow c (w := .closed) trivial
  · split
    · exact h.decodeMiss c
    · split
      · exact (h.unqueue c _).decodeMiss c
      · exact h
  all_goals exact h

/-! ### Boundaries -/

theorem State.valuesOk.reportActivity (c : Chan) (a : Active) : (s.reportActivity c a).valuesOk := by
  have hfixed : (if a.copyF = a.down.activity then s else s.record c .F .activityChanged).valuesOk := by
    split
    · exact h
    · exact h.record c _ _
  unfold State.reportActivity
  dsimp only
  split
  · exact hfixed
  · exact hfixed.record c _ _

theorem State.valuesOk.boundary (c : Chan) {a : Active} (ha : a.inRange) : (s.boundary c a).valuesOk := by
  have hafter := h.setLife c (l := .active (afterBoundary s.time a)) (afterBoundary_inRange s.time ha)
  unfold State.boundary
  dsimp only
  refine State.valuesOk.reportActivity ?_ c _
  split
  · next i hi => exact hafter.handOn c (boundaryItem_inRange hi)
  · exact hafter

theorem State.valuesOk.takeBoundary (c : Chan) : (s.takeBoundary c).valuesOk := by
  have hrows := h.applyBoth c true
  unfold State.takeBoundary
  dsimp only
  split
  · next a ha => exact (hrows.boundary c ((Active.inRange_iff a).mpr (hrows.active ha))).settle
  · exact hrows.settle

/-! ### Completions and start deadlines -/

theorem State.valuesOk.encodeResult (c : Chan) (e : EncodeWork) {start : Speech.Coder} (hs : coderInRange start) :
    (s.encodeResult c e start).valuesOk := by
  have hlast := coderInRange_encodeFrame e.mode hs e.samples
  exact (h.offerRecord _).mapActive c fun a ha => by
    obtain ⟨⟨hring, -, hheld⟩, -⟩ := (Active.inRange_iff a).mp ha
    exact Active.inRange_setDown ha ⟨hring, hlast, hheld⟩

theorem State.valuesOk.decodeResult (c : Chan) {f : SpeechFrame} (hf : f.inRange) : (s.decodeResult c f).valuesOk :=
  h.mapActive c fun a ha => by
    obtain ⟨hdown, hgood, hqueue, hstream⟩ := (Active.inRange_iff a).mp ha
    split
    · next deadline g hs =>
      rw [hs] at hstream
      exact (Active.inRange_iff _).mpr ⟨hdown, hgood, hqueue, hstream, blockInRange_decodeFrame hf⟩
    · exact ha

theorem State.valuesOk.deliver {j : Job} (hj : j.work.inRange) : (s.deliver j).valuesOk := by
  unfold State.deliver
  split
  · exact h
  · split
    · next e start hw =>
      rw [hw] at hj
      exact h.encodeResult _ e hj.2
    · next f hw =>
      rw [hw] at hj
      exact h.decodeResult _ hj

theorem State.valuesOk.offerHeldDecode (c : Chan) : (s.offerHeldDecode c).valuesOk := by
  unfold State.offerHeldDecode
  split
  · next a ha =>
    split
    · next f hs =>
      have hstream := (h.active ha).2.2.2
      rw [hs] at hstream
      exact h.offerDecode c hstream _
    · exact h
  · exact h

theorem State.valuesOk.afterCompletion (j : Job) : (s.afterCompletion j).valuesOk := by
  unfold State.afterCompletion
  split
  · exact h.releaseHeld _
  · exact h.offerHeldDecode _

theorem State.valuesOk.complete (e : Fin 4) {j : Job} (hj : (s.engines[e.val]).job? = some j) :
    (s.complete e j).valuesOk := by
  have hleft : (s.engines[e.val]).afterJob.inRange := by
    cases he : s.engines[e.val] with
    | free | out | busy k ends | draining k ends => exact fun _ hk => nomatch hk
  exact (((h.setEngine e hleft).deliver (h.engines e j hj)).afterCompletion j).arbitrate.settle

theorem State.valuesOk.dropLateHeld (c : Chan) : (s.dropLateHeld c).valuesOk :=
  h.setHeld c fun i hi => h.heldItems c i (List.mem_of_mem_eraseP hi)

theorem State.valuesOk.encodeDeadline (c : Chan) : (s.encodeDeadline c).valuesOk := by
  unfold State.encodeDeadline
  split
  · exact (((h.unqueue c _).encodeMiss c).releaseHeld c).settle
  · split
    · have hdropped := (h.dropLateHeld c).encodeMiss c
      dsimp only
      refine State.valuesOk.settle ?_
      split
      · exact hdropped
      · exact hdropped.releaseHeld c
    · exact h

theorem State.valuesOk.decodeDeadline (c : Chan) : (s.decodeDeadline c).valuesOk := by
  unfold State.decodeDeadline
  split
  · exact ((h.unqueue c _).decodeMiss c).settle
  · split
    · exact (h.decodeMiss c).settle
    · exact h

/-! ### Frame syncs -/

theorem State.valuesOk.frameSync (incoming : Vector Octet 128) : (s.frameSync incoming).valuesOk := by
  refine State.valuesOk.settle ⟨fun c => ?_, h.jobs, h.engines, h.profiles⟩
  simp only [State.life, State.chan, Vector.getElem_map]
  exact Life.inRange_onSync s incoming (h.lives c)

end Operations

end Sys2Proof.Machine
end

section
/-! SUPPORT. The orders keep the values in range; a write into the PROFILE space is brought into its field's range. -/

namespace Sys2Proof.Machine

/-! ### Profile fields (R185) -/

theorem profileRange_le (f : Fin 9) : (profileRange f.val).1 ≤ (profileRange f.val).2 := by
  revert f
  decide

/-- A value brought into a range that is not empty lies in it. -/
theorem clampNat_mem {range : Nat × Nat} (h : range.1 ≤ range.2) (v : Nat) :
    range.1 ≤ clampNat range v ∧ clampNat range v ≤ range.2 := by
  unfold clampNat
  omega

/-- A stored field reads back, and the seven others stay. -/
theorem Profile.field_setField (p : Profile) (f g : Fin 8) (v : Nat) :
    (p.setField f.val v).field g.val = if g = f then v else p.field g.val := by
  fin_cases f <;> fin_cases g <;> rfl

/-- A check value changes no field it covers. -/
theorem Profile.field_checked (p : Profile) (v : Nat) (g : Fin 8) : (p.checked v).field g.val = p.field g.val := by
  fin_cases g <;> rfl

section Orders

variable {s : State} (h : s.valuesOk)
include h

/-! ### Taking an order -/

theorem State.valuesOk.touch (l : Line) : (s.touch l).valuesOk := by
  unfold State.touch
  dsimp only
  refine State.valuesOk.mapLine ?_ l _
  split
  · exact (h.mapLine l _).recordLine l _
  · exact h

theorem State.valuesOk.done : s.done.state.valuesOk := h

theorem State.valuesOk.carryOut (o : Order) (owned : Bool) {body : State → Effect} (hbody : (body s).state.valuesOk) :
    (carryOut o owned body s).state.valuesOk := by
  unfold Machine.carryOut
  split
  · exact h
  · split
    · exact h
    · exact hbody

/-- An order keeps the values where its verb does, whoever it is for. -/
theorem State.valuesOk.takeOrder (o : Order) (owned broadcast : Bool) (ch : State → BitVec 7)
    {body : State → Effect} (hbody : ∀ {t : State}, t.valuesOk → (body t).state.valuesOk) :
    (takeOrder o owned broadcast ch body s).valuesOk := by
  have htouch := h.touch o.line
  have hcarried := htouch.carryOut o owned (hbody htouch)
  unfold Machine.takeOrder
  split
  · exact h
  · split
    · refine State.valuesOk.mapLine ?_ _ _
      split
      · exact hcarried
      · exact htouch
    · split
      · exact hcarried.setLine _ _
      · exact h.mapLine _ _

/-! ### The orders on channels -/

theorem State.valuesOk.bindFree (c : Chan) (x : Slot) (fixed : FixedHalf) (tag : BitVec 14) :
    (s.bindFree c x fixed tag).valuesOk :=
  (h.mapSlot x fun ts => { ts with entry := .bound c, source := .idle }).mapChan c
    (f := fun ch => ch.fresh (.halfF { tag, fixed, timer := s.halfWaitTimer .F, check := none })) fun _ _ => trivial

theorem State.valuesOk.bindHalfR (c : Chan) (x : Slot) (fixed : FixedHalf) (half : HalfR) :
    (s.bindHalfR c x fixed half).valuesOk :=
  (((h.mapSlot x fun ts => { ts with entry := .bound c, source := .idle }).setLife c
    (l := .active (s.entry c half.tag fixed (half.radio.derived fixed.cap))) (s.entry_inRange c _ _ _)).record
    c _ _).settle

theorem State.valuesOk.bindEffect (c : Chan) (x : Slot) (p : Fin 8) (tag : BitVec 14) :
    (bindEffect c x p tag s).state.valuesOk := by
  unfold Machine.bindEffect
  dsimp only
  split
  · exact h
  · exact h
  · split
    · exact h
    · split
      · exact h
      · exact h.bindFree c x _ tag
  · next half _ =>
    split
    · exact h
    · split
      · exact h
      · split
        · exact h
        · exact h.bindHalfR c x _ half

theorem State.valuesOk.attachFree (c : Chan) (radio : RadioHalf) (tag : BitVec 14) :
    (s.attachFree c radio tag).valuesOk :=
  h.mapChan c (f := fun ch => ch.fresh (.halfR { tag, radio, timer := s.halfWaitTimer .R })) fun _ _ => trivial

theorem State.valuesOk.attachHalfF (c : Chan) (radio : RadioHalf) (x : HalfF) : (s.attachHalfF c radio x).valuesOk :=
  (((h.abortCheck c x).setLife c (l := .active (s.entry c x.tag x.fixed radio)) (s.entry_inRange c _ _ _)).record
    c _ _).settle

theorem State.valuesOk.attachEffect (c : Chan) (modeSet : BitVec 3) (requested : BitVec 2) (tag : BitVec 14) :
    (attachEffect c modeSet requested tag s).state.valuesOk := by
  unfold Machine.attachEffect
  dsimp only
  split
  · exact h
  · exact h
  · exact h
  · split
    · exact h
    · exact h.attachFree c _ tag
  · split
    · exact h
    · split
      · exact h
      · exact h.attachHalfF c _ _

theorem State.valuesOk.releaseEffect (l : Line) (c : Chan) : (releaseEffect l c s).state.valuesOk := by
  unfold Machine.releaseEffect
  split
  · exact (h.releaseHalf l c).settle
  · exact h

/-- The last good block of an uplink primed anew is silence (R105). -/
theorem State.valuesOk.primeAnew (c : Chan) (a : Active) : (s.primeAnew c a).valuesOk := by
  refine (h.abandonJob c _).setUp c ?_
  exact ⟨blockInRange_replicate_zero _, fun _ hf => (nomatch hf), trivial⟩

theorem State.valuesOk.handoverEffect (c : Chan) : (handoverEffect c s).state.valuesOk := by
  unfold Machine.handoverEffect
  split
  · exact h.primeAnew c _
  · exact h

theorem State.valuesOk.startCheck (c : Chan) (x : HalfF) : (s.startCheck c x).valuesOk := by
  unfold State.startCheck
  refine (h.mapChan c ?_).mapSlot _ _
  exact fun _ _ => trivial

theorem State.valuesOk.checkEffect (c : Chan) : (checkEffect c s).state.valuesOk := by
  unfold Machine.checkEffect
  split
  · split
    · exact h
    · split
      · exact h
      · exact h.startCheck c _
  · exact h

theorem State.valuesOk.joinSplice (c : Chan) {a : Active} (ha : a.inRange) (partner : Chan) :
    (s.joinSplice c a partner).valuesOk := by
  unfold State.joinSplice State.idleSlot
  exact (h.setLife c (l := .active { a with partner := some partner, down := a.down.spliced }) ha).mapSlot _ _

theorem State.valuesOk.spliceEffect (a b : Chan) : (spliceEffect a b s).state.valuesOk := by
  unfold Machine.spliceEffect
  split
  · next x y hx hy =>
    split
    · exact h
    · exact (h.joinSplice a ((Active.inRange_iff x).mpr (h.active hx)) b).joinSplice b
        ((Active.inRange_iff y).mpr (h.active hy)) a
  · exact h

theorem State.valuesOk.unspliceEffect (c : Chan) : (unspliceEffect c s).state.valuesOk := by
  unfold Machine.unspliceEffect
  split
  · exact (h.endSplice c _).settle
  · exact h

/-! ### Staging orders -/

theorem State.valuesOk.stageInto (l : Line) (c : Chan) (i : Item) (v : BitVec 16) : (s.stageInto l c i v).valuesOk := by
  unfold State.stageInto
  exact h.mapLine l _

theorem State.valuesOk.stageEffect (l : Line) (c : Chan) (i : Item) (v : BitVec 16) :
    (stageEffect l c i v s).state.valuesOk := by
  unfold Machine.stageEffect
  dsimp only
  split
  · exact h
  · split
    · exact h
    · split
      · exact h
      · split
        · exact h
        · split
          · exact h
          · split
            · exact h
            · exact h.stageInto l c i _

theorem State.valuesOk.reserveFor (row : Row) (c : Chan) : (s.reserveFor row c).valuesOk := by
  unfold State.reserveFor
  split
  · exact h.mapSlot _ _
  · exact h

theorem State.valuesOk.commitEffect (l : Line) : (commitEffect l s).state.valuesOk := by
  unfold Machine.commitEffect
  dsimp only
  split
  · exact h
  · next c _ =>
    split
    · exact h
    · split
      · exact h
      · split
        · dsimp only
          exact (h.reserveFor _ c).mapLine l _
        · exact ((h.reserveFor _ c).applyRow l false).settle

theorem State.valuesOk.cancelEffect (l : Line) : (cancelEffect l s).state.valuesOk := by
  unfold Machine.cancelEffect
  split
  · exact h
  · exact (h.mapLine l _).done

/-! ### Orders that read, clear and write -/

theorem State.valuesOk.readChannelEffect (l : Line) (c : Chan) (aspect : Fin 16) :
    (readChannelEffect l c aspect s).state.valuesOk := by
  unfold Machine.readChannelEffect
  dsimp only
  split
  · exact h.mapActive c fun a ha => by cases l <;> exact ha
  · split
    · exact h
    · split <;> exact h

theorem State.valuesOk.clearEventsEffect (l : Line) (c : Chan) (kinds : BitVec 9) :
    (clearEventsEffect l c kinds s).state.valuesOk :=
  (h.mapChan_of_life c fun ch => by cases l <;> rfl).settle

theorem State.valuesOk.clearLineEventsEffect (l : Line) (kinds : BitVec 5) :
    (clearLineEventsEffect l kinds s).state.valuesOk := by
  unfold Machine.clearLineEventsEffect
  dsimp only
  exact h.mapLine l _

theorem State.valuesOk.selectItemEffect (l : Line) (sp : Space) (index : Fin 128) :
    (selectItemEffect l sp index s).state.valuesOk := by
  unfold Machine.selectItemEffect
  split
  · exact h
  · dsimp only
    exact h.mapLine l _

theorem State.valuesOk.advancePointer (l : Line) : (s.advancePointer l).valuesOk := by
  unfold State.advancePointer
  exact h.mapLine l _

theorem State.valuesOk.setSettings (l : Line) (f : Settings → Settings) : (s.setSettings l f).valuesOk := by
  unfold State.setSettings
  exact h.mapLine l _

theorem State.valuesOk.stored (l : Line) (clamped : Bool) (v : Nat) : (s.stored l clamped v).state.valuesOk :=
  h.advancePointer l

theorem State.valuesOk.writeProfile (l : Line) (index v : Nat) : (s.writeProfile l index v).state.valuesOk := by
  have hfield : index % 9 < 9 := Nat.mod_lt _ (by decide)
  unfold State.writeProfile
  refine (h.setProfile (profileOf index) fun g hg => ?_).stored l _ _
  have hold := h.profiles (profileOf index) g hg
  split
  · rwa [Profile.field_checked _ _ ⟨g.val, hg⟩]
  · next h8 =>
    rw [Profile.field_setField _ ⟨index % 9, by omega⟩ ⟨g.val, hg⟩]
    split
    · next hgf =>
      have hval : g.val = index % 9 := congrArg Fin.val hgf
      rw [hval]
      exact clampNat_mem (profileRange_le ⟨index % 9, hfield⟩) v
    · exact hold

theorem State.valuesOk.writePattern (l : Line) (index v : Nat) : (s.writePattern l index v).state.valuesOk := by
  have hpattern : ∀ (pattern : Vector Octet 16) (mask : BitVec 16),
      ({ s with pattern := pattern, mask := mask } : State).valuesOk := fun _ _ => h.of_eq rfl rfl rfl rfl
  unfold State.writePattern
  dsimp only
  split
  · exact h
  · split
    · exact (hpattern _ s.mask).stored l _ _
    · exact (hpattern s.pattern _).stored l _ _

theorem State.valuesOk.writeSetting (l : Line) (offset v : Nat) : (s.writeSetting l offset v).state.valuesOk := by
  unfold State.writeSetting
  split
  · exact ((h.setSettings l _).mapLine l _).stored l _ _
  · split
    · exact (h.setSettings l _).stored l _ _
    · exact h
  · exact (h.setSettings l _).stored l _ _
  · exact (h.setSettings l _).stored l _ _

theorem State.valuesOk.writeItemEffect (l : Line) (v : BitVec 16) : (writeItemEffect l v s).state.valuesOk := by
  unfold Machine.writeItemEffect State.writeAt
  split
  · exact h
  · split
    · exact h.writeProfile l _ _
    · exact h.writePattern l _ _
    · exact h.writeSetting l _ _
    · exact h

/-! ### Service orders -/

theorem State.valuesOk.engineOutEffect (e : Fin 4) : (engineOutEffect e s).state.valuesOk := by
  have hout : (s.engines[e.val]).serviceOut.inRange := by
    have hold := h.engines e
    cases he : s.engines[e.val] <;> rw [he] at hold <;> exact hold
  exact h.setEngine e hout

theorem State.valuesOk.engineInEffect (e : Fin 4) : (engineInEffect e s).state.valuesOk := by
  have hin : (s.engines[e.val]).serviceIn.inRange := by
    have hold := h.engines e
    cases he : s.engines[e.val] <;> rw [he] at hold <;> exact hold
  exact (h.setEngine e hin).arbitrate

theorem State.valuesOk.restartEffect (l : Line) : (restartEffect l s).state.valuesOk := by
  unfold Machine.restartEffect
  dsimp only
  split
  · exact h.of_eq rfl rfl rfl rfl
  · split
    · exact h.of_eq rfl rfl rfl rfl
    · exact (h.mapLine l _).recordLine _ _

end Orders

end Sys2Proof.Machine
end

section
/-! SUPPORT. Every command, and with it every step, keeps the values in range. -/

namespace Sys2Proof.Machine

/-- The values of the part right after power-on and on the RESET pin, whatever waits. -/
theorem State.valuesOk_powerOn (s : State) : s.powerOn.valuesOk :=
  ((State.valuesOk_iff State.reset).mpr ⟨State.reset_rangesOk, State.reset_profilesOk⟩).of_eq rfl rfl rfl rfl

section Commands

variable {s : State} (h : s.valuesOk)
include h

/-- The core clock alone moved on. -/
theorem State.valuesOk.setClock (n : Nat) : ({ s with clock := n } : State).valuesOk := h.of_eq rfl rfl rfl rfl

theorem State.valuesOk.beginSampleTime : s.beginSampleTime.valuesOk := h.of_eq rfl rfl rfl rfl

/-- A restart leaves no context, no job and no running engine, and keeps the profiles (R198). -/
theorem State.valuesOk.restarted (cause : RestartCause) : (s.restarted cause).valuesOk := by
  refine ⟨fun c => ?_, fun j hj => (nomatch hj), fun e j hj => ?_, h.profiles⟩
  · simp [State.restarted, State.life, State.chan, Channel.reset, Life.inRange]
  · simp [State.restarted, Engine.job?] at hj

/-! ### Timers -/

theorem State.valuesOk.halfWaitExpiry (c : Chan) : (s.halfWaitExpiry c).valuesOk := by
  unfold State.halfWaitExpiry
  split
  · next l _ => exact ((h.releaseHalf l c).record c l _).settle
  · exact h

theorem State.valuesOk.severAll : s.severAll.valuesOk :=
  h.foldl (fun t c ht => by
    split
    · exact ht.sever c
    · exact ht) _

theorem State.valuesOk.watchdogRelease (l : Line) : (s.watchdogRelease l).valuesOk :=
  (h.severAll.foldl (fun _ c ht => ht.releaseHalf l c) _).mapLine l _

theorem State.valuesOk.watchdogExpiry (l : Line) : (s.watchdogExpiry l).valuesOk := by
  have hsilent := (h.mapLine l fun u => { u with silent := true, expiry := none }).recordLine (otherLine l)
    .partnerSilent
  unfold State.watchdogExpiry
  dsimp only
  refine State.valuesOk.settle ?_
  split
  · exact hsilent.watchdogRelease l
  · exact hsilent

/-! ### Events that are due or not -/

/-- An event that is not due leaves the state as it is (log 3). -/
theorem State.valuesOk.ifDue {t : State} (ht : t.valuesOk) (p : Prop) [Decidable p] :
    (if p then t else s).valuesOk := by
  split
  · exact ht
  · exact h

theorem State.valuesOk.spoil (l : Line) : (s.spoil l).valuesOk := h.ifDue (h.mapLine l _) _

theorem State.valuesOk.noReply (l : Line) : (s.noReply l).valuesOk := h.ifDue (h.mapLine l _) _

theorem State.valuesOk.tick : s.tick.valuesOk := h.ifDue (h.setClock _) _

end Commands

/-- A command leaves a next state, with the values in range where they were (R39, R185). -/
theorem State.valuesOk.exec {s : State} (h : s.valuesOk) (i : Instr) : ∃ t, exec i s = .next t ∧ t.valuesOk := by
  cases i with
  | powerOn => exact ⟨_, rfl, s.valuesOk_powerOn⟩
  | resetLow => exact ⟨_, rfl, s.valuesOk_powerOn.of_eq rfl rfl rfl rfl⟩
  | resetRise =>
    refine ⟨_, rfl, h.ifDue ?_ _⟩
    exact s.valuesOk_powerOn.of_eq rfl rfl rfl rfl
  | ready strapF strapR =>
    refine ⟨_, rfl, h.ifDue ?_ _⟩
    exact h.of_eq rfl rfl rfl rfl
  | frameSync incoming =>
    refine ⟨_, rfl, ?_⟩
    split
    · exact h.beginSampleTime
    · refine h.ifDue ?_ _
      exact h.of_eq rfl rfl rfl rfl
    · exact h.ifDue (h.frameSync incoming) _
  | continuityTimeout c =>
    refine ⟨_, rfl, ?_⟩
    split
    · refine h.ifDue ((State.valuesOk.record (h.mapChan c ?_) c _ _).settle) _
      exact fun _ _ => trivial
    · exact h
  | downlinkBoundary c => exact ⟨_, rfl, h.ifDue (h.takeBoundary c) _⟩
  | playoutInstant c => exact ⟨_, rfl, h.ifDue (h.takeInstant c) _⟩
  | windowStartDeadline c =>
    refine ⟨_, rfl, ?_⟩
    split
    · exact h.ifDue (h.closeWindow c _).settle _
    · exact h
  | jobStartDeadline c kind =>
    refine ⟨_, rfl, ?_⟩
    cases kind with
    | encode => exact h.encodeDeadline c
    | decode => exact h.decodeDeadline c
  | jobCompletion e =>
    refine ⟨_, rfl, ?_⟩
    split
    · next j ends hj _ =>
      have hdone := (h.setClock (max s.clock ends)).complete e hj
      exact h.ifDue hdone _
    · exact h
  | recordArrival octets =>
    have hbegun : ({ s with begun := s.begun - 1 } : State).valuesOk := h.of_eq rfl rfl rfl rfl
    exact ⟨_, rfl, h.ifDue (hbegun.arrival octets) _⟩
  | recordTransmitted =>
    refine ⟨_, rfl, ?_⟩
    split
    · next ends _ =>
      have hidle : ({ s with clock := max s.clock ends, sending := none } : State).valuesOk := h.of_eq rfl rfl rfl rfl
      exact h.ifDue hidle.startTransmit _
    · exact h
  | halfWaitExpiry c => exact ⟨_, rfl, h.ifDue (h.halfWaitExpiry c) _⟩
  | watchdogExpiry l => exact ⟨_, rfl, h.ifDue (h.watchdogExpiry l) _⟩
  | restartLapse l => exact ⟨_, rfl, h.ifDue ((h.mapLine l _).recordLine l _) _⟩
  | earlySelectRise l => exact ⟨_, rfl, (h.spoil l).noReply l⟩
  | orderCrcMismatch l => exact ⟨_, rfl, (h.spoil l).noReply l⟩
  | extraClock l => exact ⟨_, rfl, h.spoil l⟩
  | nop o => exact ⟨_, rfl, h.takeOrder o _ _ _ fun ht => ht⟩
  | bind o x p tag => exact ⟨_, rfl, h.takeOrder o _ _ _ fun ht => ht.bindEffect _ x p tag⟩
  | attach o modeSet requested tag =>
    exact ⟨_, rfl, h.takeOrder o _ _ _ fun ht => ht.attachEffect _ modeSet requested tag⟩
  | release o => exact ⟨_, rfl, h.takeOrder o _ _ _ fun ht => ht.releaseEffect _ _⟩
  | handover o => exact ⟨_, rfl, h.takeOrder o _ _ _ fun ht => ht.handoverEffect _⟩
  | check o => exact ⟨_, rfl, h.takeOrder o _ _ _ fun ht => ht.checkEffect _⟩
  | splice o partner => exact ⟨_, rfl, h.takeOrder o _ _ _ fun ht => ht.spliceEffect _ partner⟩
  | unsplice o => exact ⟨_, rfl, h.takeOrder o _ _ _ fun ht => ht.unspliceEffect _⟩
  | stage o item v => exact ⟨_, rfl, h.takeOrder o _ _ _ fun ht => ht.stageEffect _ _ item v⟩
  | commit o => exact ⟨_, rfl, h.takeOrder o _ _ _ fun ht => ht.commitEffect _⟩
  | cancel o => exact ⟨_, rfl, h.takeOrder o _ _ _ fun ht => ht.cancelEffect _⟩
  | readChannel o aspect => exact ⟨_, rfl, h.takeOrder o _ _ _ fun ht => ht.readChannelEffect _ _ aspect⟩
  | nextEvent o => exact ⟨_, rfl, h.takeOrder o _ _ _ fun ht => ht⟩
  | clearEvents o kinds => exact ⟨_, rfl, h.takeOrder o _ _ _ fun ht => ht.clearEventsEffect _ _ kinds⟩
  | clearLineEvents o kinds => exact ⟨_, rfl, h.takeOrder o _ _ _ fun ht => ht.clearLineEventsEffect _ kinds⟩
  | selectItem o sp index => exact ⟨_, rfl, h.takeOrder o _ _ _ fun ht => ht.selectItemEffect _ sp index⟩
  | readItem o => exact ⟨_, rfl, h.takeOrder o _ _ _ fun ht => ht.advancePointer _⟩
  | writeItem o v => exact ⟨_, rfl, h.takeOrder o _ _ _ fun ht => ht.writeItemEffect _ v⟩
  | engineServiceOut o e => exact ⟨_, rfl, h.takeOrder o _ _ _ fun ht => ht.engineOutEffect e⟩
  | engineServiceIn o e => exact ⟨_, rfl, h.takeOrder o _ _ _ fun ht => ht.engineInEffect e⟩
  | restart o => exact ⟨_, rfl, h.takeOrder o _ _ _ fun ht => ht.restartEffect _⟩
  | restartExecution =>
    refine ⟨_, rfl, ?_⟩
    split
    · exact h.restarted _
    · exact h
  | recordStart =>
    refine ⟨_, rfl, h.ifDue ?_ _⟩
    exact h.of_eq rfl rfl rfl rfl
  | unknownVerb o code => exact ⟨_, rfl, h.takeOrder o _ _ _ fun ht => ht⟩

/-- A step is a command on the state with the rest of the queue, or one core clock (log 1). -/
theorem State.valuesOk.step {s : State} (h : s.valuesOk) : ∃ t, step s = .next t ∧ t.valuesOk := by
  unfold Machine.step State.front
  cases s.pending with
  | nil => exact ⟨_, rfl, h.tick⟩
  | cons i rest => exact State.valuesOk.exec (s := { s with pending := rest }) (h.of_eq rfl rfl rfl rfl) i

/-- Settles O60, by the lemmas that each named operation keeps the values, put together command by command. -/
theorem stepKeepsValuesInRange : Obligations.StepKeepsValuesInRange := by
  intro s t hranges hprofiles hstep
  obtain ⟨u, hu, hok⟩ := State.valuesOk.step ((State.valuesOk_iff s).mpr ⟨hranges, hprofiles⟩)
  rw [hstep] at hu
  cases hu
  exact (State.valuesOk_iff t).mp hok

end Sys2Proof.Machine
end

section
/-! SUPPORT. The instant of an unspliced channel in PRIMING: the silence it plays, what it leaves of the contexts, and the
two statements about it. -/

namespace Sys2Proof.Machine

/-! ### The silence block on the highway (R29, R45, R61) -/

theorem gain_zero (g : Nat) : Speech.gain g 0 = 0 := by
  simp [Speech.gain, Speech.saturate, Speech.clamp]

theorem compress_zero : Speech.compress 0 = 0 := by decide

/-- A silence block plays as octets of 00H under any gain. -/
theorem map_compress_gainBlock_silence (g : Nat) :
    (Speech.gainBlock g Speech.silence).map Speech.compress = List.replicate 160 0 := by
  rw [Speech.gainBlock, Speech.silence, List.map_replicate, List.map_replicate, gain_zero, compress_zero]

theorem State.slot_playBlock_silence (s : State) (a : Active) (x : Slot) :
    (s.playBlock a Speech.silence).slot x
      = if a.fixed.timeslot = x then { s.slot x with source := .block (List.replicate 159 0), out := 0 }
        else s.slot x := by
  rw [State.playBlock, State.slot_mapSlot, map_compress_gainBlock_silence]
  rfl

/-! ### Contexts of which the life alone has changed -/

/-- Every channel as it was, but for what one channel's lifecycle state and its parts have become. -/
def State.sameButLife (s t : State) (c : Chan) : Prop :=
  ∀ d, t.chan d = if c = d then { s.chan d with life := t.life d } else s.chan d

theorem State.sameButLife.chan_self {s t : State} {c : Chan} (h : s.sameButLife t c) {l : Life} (hl : t.life c = l) :
    t.chan c = { s.chan c with life := l } := by
  rw [h c, if_pos rfl, hl]

theorem State.sameButLife.sameChannels {s t : State} {c : Chan} (h : s.sameButLife t c) : s.sameChannels t [c] :=
  fun d hd => by rw [h d, if_neg fun hc => hd (List.mem_singleton.mpr hc.symm)]

theorem State.sameButLife.trans {s t u : State} {c : Chan} (h : s.sameButLife t c) (h' : t.sameButLife u c) :
    s.sameButLife u c := fun d => by
  rw [h' d, h d]
  split <;> rfl

theorem State.sameButLife_of_chan {s t : State} (h : ∀ d, t.chan d = s.chan d) (c : Chan) : s.sameButLife t c :=
  fun d => by
    rw [State.life_def, h d]
    split <;> rfl

theorem State.sameButLife_mapActive (s : State) (c : Chan) (f : Active → Active) :
    s.sameButLife (s.mapActive c f) c := fun d => by
  rw [State.life_def, State.chan_mapActive]
  split
  · unfold Channel.mapActive
    split <;> rfl
  · rfl

/-- A DECODE offered before its start deadline is held or offered, never a miss (R94, R127). -/
theorem State.sameButLife_offerDecode (s : State) (c : Chan) (f : SpeechFrame) {deadline : Nat}
    (h : s.time < deadline) : s.sameButLife (s.offerDecode c f deadline) c := by
  have hwindow : ∀ w, s.sameButLife (s.setWindow c w) c := fun w => s.sameButLife_mapActive c _
  unfold State.offerDecode
  split
  · exact hwindow _
  · have htime : (s.setWindow c (.decoding f false)).time = s.time := State.time_of_device (by simp)
    rw [State.offerJob_before _ _ (by rw [htime]; exact h)]
    refine (hwindow (.decoding f false)).trans (State.sameButLife_of_chan (fun d => ?_) c)
    rw [State.chan_arbitrate]
    rfl

theorem State.sameButLife_takeFrame (s : State) (c : Chan) (f : Frame) {deadline : Nat} (h : s.time < deadline) :
    s.sameButLife (s.takeFrame c f deadline) c := by
  have hwindow : ∀ w, s.sameButLife (s.setWindow c w) c := fun w => s.sameButLife_mapActive c _
  cases f with
  | quiet n level => exact hwindow _
  | speech f =>
    rw [State.takeFrame]
    split
    · split
      · exact hwindow _
      · exact s.sameButLife_offerDecode c f h
    · exact s.sameButLife_offerDecode c f h

/-- A window opens with its start deadline ahead, so nothing it takes is a miss (R92, R94). -/
theorem State.sameButLife_openWindow (s : State) (c : Chan) (up : UplinkFields) (comfort : Bool)
    (expected : BitVec 8) : s.sameButLife (s.openWindow c up comfort expected) c := by
  have hup : ∀ u, s.sameButLife (s.setUp c u) c := fun u => s.sameButLife_mapActive c _
  unfold State.openWindow
  dsimp only
  split
  · refine (hup _).trans (State.sameButLife_takeFrame _ c _ ?_)
    rw [State.time_of_device (State.device_setUp s c _)]
    omega
  · exact hup _

/-- What is said of a window that opens depends on the pool and the device part of the state before it alone. -/
theorem State.windowOpens_of_eq {s s1 t : State} (hp : s1.pool = s.pool) (hd : s1.device = s.device) {c : Chan}
    {partner : Option Active} {queue rest : List Frame} {expected : BitVec 8} {w : WindowState}
    (h : s1.windowOpens t c partner queue expected rest w) : s.windowOpens t c partner queue expected rest w := by
  obtain ⟨hwaits, htakes⟩ := h
  rw [hp] at hwaits
  rw [State.time_of_device hd] at htakes
  refine ⟨hwaits, fun ahead f behind hq hf hn => ?_⟩
  obtain ⟨hrest, hw⟩ := htakes ahead f behind hq hf hn
  exact ⟨hrest, State.windowTakes_of_eq hp hd hw⟩

/-- The lists brought up to date change both Line Units in their event lists alone (R190). -/
theorem State.sameLines_settle {s t : State} (h : ∀ l, t.line l = s.line l) : s.sameLines t.settle := by
  have hF : t.lineF = s.lineF := h .F
  have hR : t.lineR = s.lineR := h .R
  unfold State.sameLines LineUnit.sameButList State.settle
  rw [hF, hR]
  exact ⟨rfl, rfl⟩

/-! ### The instant (R88, R89, R90) -/

/-- The instant of an unspliced channel in PRIMING plays silence and counts. -/
theorem exec_playoutInstant_priming {s : State} {c : Chan} {a : Active} {reference : Option (BitVec 8)} {count : Nat}
    (hl : s.life c = .active a) (hp : a.partner = none) (hi : a.up.instant ≤ s.time)
    (hs : a.up.stream = .priming reference count) :
    exec (.playoutInstant c) s
      = .next ((s.playBlock a Speech.silence).primingInstant c (a.nextInstant s.time) reference count).settle := by
  have hdue : s.instantDue c = true := by simp [State.instantDue, hl, hs, State.reached, hi]
  have hnext : (a.nextInstant s.time).up.stream = .priming reference count := hs
  show execPlayoutInstant c s = _
  simp only [execPlayoutInstant, hdue, if_true, State.takeInstant, hl, hp, State.plainInstant, hnext]
  rfl

/-- Priming goes on where the end condition does not hold (R89). -/
theorem State.primingInstant_goes_on (s : State) (c : Chan) {a : Active} (reference : Option (BitVec 8)) {count : Nat}
    (h : ¬(a.fixed.primingDepth ≤ a.up.queue.length
      ∨ (a.up.queue ≠ [] ∧ a.fixed.primingDepth + 2 ≤ min 255 (count + 1)))) :
    s.primingInstant c a reference count
      = s.setUp c { a.up with stream := .priming reference (min 255 (count + 1)) } := by
  unfold State.primingInstant
  cases hq : a.up.queue with
  | nil => rfl
  | cons head rest =>
    refine if_neg ?_
    simpa [hq] using h

/-- Priming ends with the head frame, whose sequence the first window expects (R90). -/
theorem State.primingInstant_ends (s : State) (c : Chan) {a : Active} (reference : Option (BitVec 8)) {count : Nat}
    {head : Frame} {rest : List Frame} (hq : a.up.queue = head :: rest)
    (h : a.fixed.primingDepth ≤ a.up.queue.length ∨ a.fixed.primingDepth + 2 ≤ min 255 (count + 1)) :
    s.primingInstant c a reference count = s.openWindow c a.up false head.sequence := by
  unfold State.primingInstant
  split
  · next x y hxy =>
    rw [hq] at hxy
    cases hxy
    exact if_pos h
  · next hnil =>
    rw [hq] at hnil
    cases hnil

/-- What the instant leaves beside the contexts, whether it ends PRIMING or not: the silence on its timeslot, and the
event lists of both lines brought up to date. -/
theorem State.frame_primingInstant (s : State) (c : Chan) (a a' : Active) (reference : Option (BitVec 8)) (count : Nat)
    {t : State} (ht : t = ((s.playBlock a Speech.silence).primingInstant c a' reference count).settle) :
    t.device = s.device ∧ s.sameSlots t [a.fixed.timeslot] ∧ t.link = s.link ∧ s.sameLines t
      ∧ t.slot a.fixed.timeslot
        = { s.slot a.fixed.timeslot with source := .block (List.replicate 159 0), out := 0 } := by
  have hline : ∀ l, ((s.playBlock a Speech.silence).primingInstant c a' reference count).line l = s.line l := by simp
  subst ht
  refine ⟨by simp, fun x hx => ?_, by simp, State.sameLines_settle hline, ?_⟩
  · rw [State.slot_settle, State.slot_primingInstant, State.slot_playBlock_silence,
      if_neg fun hc => hx (List.mem_singleton.mpr hc.symm)]
  · rw [State.slot_settle, State.slot_primingInstant, State.slot_playBlock_silence, if_pos rfl]

/-- Settles O11: the silence on the timeslot, and the uplink fields with the count and the next instant. -/
theorem primingInstantPlaysSilence : Obligations.PrimingInstantPlaysSilence := by
  intro c s a reference count hl hp hi hs hnot _
  obtain ⟨hdevice, hslots, hlink, hlines, hslot⟩ :=
    s.frame_primingInstant c a (a.nextInstant s.time) reference count rfl
  have hgoes := (s.playBlock a Speech.silence).primingInstant_goes_on c (a := a.nextInstant s.time) reference hnot
  have hplay := State.sameButLife_of_chan (s.chan_playBlock a Speech.silence) c
  have hbut : s.sameButLife
      ((s.playBlock a Speech.silence).primingInstant c (a.nextInstant s.time) reference count).settle c := by
    rw [hgoes]
    exact hplay.trans (State.sameButLife_mapActive _ c _)
  refine ⟨_, exec_playoutInstant_priming hl hp hi hs, ⟨hdevice, hbut.sameChannels, hslots⟩, ?_, hlink, hlines,
    hbut.chan_self ?_, hslot⟩
  · rw [State.pool_settle, hgoes, State.pool_setUp, State.pool_playBlock]
  · rw [State.life_settle, hgoes, State.setUp, State.mapActive, State.life_playBlock, hl]
    exact State.life_setLife_self _ c _

/-- Settles O12: the window that the head frame opens, in the state that plays the silence. -/
theorem primingEndsWithTheHeadFrame : Obligations.PrimingEndsWithTheHeadFrame := by
  intro c s a reference count head rest hl hp hi hs hq hend
  obtain ⟨hdevice, hslots, hlink, hlines, hslot⟩ :=
    s.frame_primingInstant c a (a.nextInstant s.time) reference count rfl
  have hends := (s.playBlock a Speech.silence).primingInstant_ends c (a := a.nextInstant s.time) reference hq hend
  have hplay := State.sameButLife_of_chan (s.chan_playBlock a Speech.silence) c
  have hbut : s.sameButLife
      ((s.playBlock a Speech.silence).primingInstant c (a.nextInstant s.time) reference count).settle c := by
    rw [hends]
    exact hplay.trans (State.sameButLife_openWindow _ c _ _ _)
  obtain ⟨queue, w, hopens, hlife⟩ := State.windowOpens_openWindow ((s.life_playBlock a Speech.silence c).trans hl)
    none (.inl ⟨hp, rfl⟩) (a.nextInstant s.time).up false head.sequence
  have hwindow : s.windowOpens
      ((s.playBlock a Speech.silence).primingInstant c (a.nextInstant s.time) reference count).settle c none a.up.queue
      head.sequence queue w := by
    rw [hends]
    exact State.windowOpens_of_eq (s.pool_playBlock a _) (s.device_playBlock a _) hopens
  refine ⟨_, queue, w, exec_playoutInstant_priming hl hp hi hs, ⟨hdevice, hbut.sameChannels, hslots⟩, hlink, hlines,
    hslot, hwindow, fun hother => (hwindow.2 [] head rest hq rfl hother).1, hbut.chan_self ?_⟩
  rw [State.life_settle, hends, hlife]
  rfl

end Sys2Proof.Machine
end

section
/-! SUPPORT. What the relations of the staging rows and of the timeslot map see of the part: the two rows, the map entries,
and of every context the lifecycle state with the timeslot of its fixed half. The operations of the streams leave all of it
as it is. -/

namespace Sys2Proof.Machine

/-! ### The places -/

/-- Where a context stands: its lifecycle state, and the timeslot that its fixed half names, if it has one (R1, R3). -/
def Life.place (l : Life) : Lifecycle × Option Slot := (l.lifecycle, l.fixed?.map (·.timeslot))

/-- The staging rows, the map entries, and where every context stands. -/
@[ext] structure Places where
  row   : Line → Row
  entry : Slot → Entry
  place : Chan → Lifecycle × Option Slot

/-- The places of a state. -/
def State.places (s : State) : Places :=
  { row := fun l => (s.line l).row, entry := fun x => (s.slot x).entry, place := fun c => (s.life c).place }

@[simp] theorem State.row_places (s : State) (l : Line) : s.places.row l = (s.line l).row := rfl
@[simp] theorem State.entry_places (s : State) (x : Slot) : s.places.entry x = (s.slot x).entry := rfl
@[simp] theorem State.place_places (s : State) (c : Chan) : s.places.place c = (s.life c).place := rfl

theorem State.places_eq_of {s t : State} (hr : ∀ l, (t.line l).row = (s.line l).row)
    (he : ∀ x, (t.slot x).entry = (s.slot x).entry) (hp : ∀ c, (t.life c).place = (s.life c).place) :
    t.places = s.places :=
  Places.ext (funext hr) (funext he) (funext hp)

/-! ### The plain updates -/

theorem State.places_mapChan_keeps (s : State) (c : Chan) {f : Channel → Channel}
    (h : ∀ ch, (f ch).life.place = ch.life.place) : (s.mapChan c f).places = s.places := by
  refine State.places_eq_of (by simp) (by simp) fun d => ?_
  rw [State.life_def, State.chan_mapChan]
  split
  · exact h _
  · rfl

theorem State.places_mapActive (s : State) (c : Chan) {f : Active → Active}
    (h : ∀ a, (f a).fixed.timeslot = a.fixed.timeslot) : (s.mapActive c f).places = s.places := by
  refine State.places_eq_of (by simp) (by simp) fun d => ?_
  rw [State.life_def, State.chan_mapActive]
  split
  · unfold Channel.mapActive
    split
    · next a ha => simp [Life.place, Life.lifecycle, Life.fixed?, h, State.life_def, ha]
    · rfl
  · rfl

theorem State.places_setLife_keeps (s : State) (c : Chan) {l : Life} (h : l.place = (s.life c).place) :
    (s.setLife c l).places = s.places := by
  refine State.places_eq_of (by simp) (by simp) fun d => ?_
  rw [State.life_setLife]
  split
  · next hc => rw [h, hc]
  · rfl

theorem State.places_mapSlot_keeps (s : State) (x : Slot) {f : Timeslot → Timeslot} (h : ∀ ts, (f ts).entry = ts.entry) :
    (s.mapSlot x f).places = s.places := by
  refine State.places_eq_of (by simp) (fun y => ?_) (by simp)
  rw [State.slot_mapSlot]
  split
  · exact h _
  · rfl

theorem State.places_mapLine_keeps (s : State) (l : Line) {f : LineUnit → LineUnit} (h : ∀ u, (f u).row = u.row) :
    (s.mapLine l f).places = s.places := by
  refine State.places_eq_of (fun k => ?_) (by simp) (by simp)
  rw [State.line_mapLine]
  split
  · exact h _
  · rfl

/-- A fold of updates that leave the places leaves them. -/
theorem State.places_foldl {β : Type} (s : State) (f : State → β → State) (h : ∀ s b, (f s b).places = s.places)
    (l : List β) : (l.foldl f s).places = s.places :=
  foldl_keeps State.places f h l s

/-! ### Events, counters and records -/

@[simp] theorem State.places_count (s : State) (c : Chan) (k : Counter) : (s.count c k).places = s.places :=
  s.places_mapChan_keeps c fun _ => rfl

@[simp] theorem State.places_record (s : State) (c : Chan) (l : Line) (k : Kind) : (s.record c l k).places = s.places :=
  s.places_mapChan_keeps c fun ch => by rw [Channel.life_record]

@[simp] theorem State.places_warn (s : State) (c : Chan) (k : Cause) : (s.warn c k).places = s.places :=
  s.places_mapChan_keeps c fun ch => by rw [Channel.life_record, Channel.life_record]

@[simp] theorem State.places_recordLine (s : State) (l : Line) (k : LineKind) : (s.recordLine l k).places = s.places :=
  s.places_mapLine_keeps l fun u => by split <;> rfl

@[simp] theorem State.places_settle (s : State) : s.settle.places = s.places :=
  State.places_eq_of (fun l => by rw [State.line_settle]) (by simp) (by simp)

@[simp] theorem State.places_startTransmit (s : State) : s.startTransmit.places = s.places :=
  State.places_eq_of (by simp) (by simp) (by simp)

@[simp] theorem State.places_offerRecord (s : State) (r : Record) : (s.offerRecord r).places = s.places := by
  unfold State.offerRecord
  split
  · rw [State.places_startTransmit, State.places_count]
    rfl
  · simp

/-! ### The pool -/

@[simp] theorem State.places_with_pool (s : State) (jobs : List Job) (engines : Vector Engine 4) :
    ({ s with jobs := jobs, engines := engines } : State).places = s.places := rfl

@[simp] theorem State.places_arbitrate (s : State) : s.arbitrate.places = s.places :=
  State.places_eq_of (by simp) (by simp) (by simp)

@[simp] theorem State.places_unqueue (s : State) (c : Chan) (k : JobKind) : (s.unqueue c k).places = s.places := rfl

@[simp] theorem State.places_abandonJob (s : State) (c : Chan) (k : JobKind) : (s.abandonJob c k).places = s.places := rfl

@[simp] theorem State.places_offerJob (s : State) (j : Job) : (s.offerJob j).1.places = s.places :=
  State.places_eq_of (by simp) (by simp) (by simp)

@[simp] theorem State.places_setWindow (s : State) (c : Chan) (w : WindowState) : (s.setWindow c w).places = s.places :=
  s.places_mapActive c fun a => by split <;> rfl

@[simp] theorem State.places_decodeMiss (s : State) (c : Chan) : (s.decodeMiss c).places = s.places := by
  simp [State.decodeMiss]

@[simp] theorem State.places_encodeMiss (s : State) (c : Chan) : (s.encodeMiss c).places = s.places := by
  simp [State.encodeMiss]

@[simp] theorem State.places_setHeld (s : State) (c : Chan) (items : List Held) : (s.setHeld c items).places = s.places :=
  s.places_mapActive c fun _ => rfl

@[simp] theorem State.places_offerEncode (s : State) (c : Chan) (e : EncodeWork) (n : Nat) :
    (s.offerEncode c e n).1.places = s.places :=
  State.places_eq_of (by simp) (by simp) (by simp)

@[simp] theorem State.places_releaseItems (s : State) (c : Chan) (items : List Held) :
    (State.releaseItems c items s).places = s.places := by
  induction items generalizing s with
  | nil => simp [State.releaseItems]
  | cons i rest ih =>
    cases i with
    | record r => simp [State.releaseItems, ih]
    | job e n =>
      have hoffer := s.places_offerEncode c e n
      rw [State.releaseItems]
      split <;> next t ht => rw [ht] at hoffer; simp [ih, hoffer]

@[simp] theorem State.places_releaseHeld (s : State) (c : Chan) : (s.releaseHeld c).places = s.places := by
  simp [State.releaseHeld]

@[simp] theorem State.places_handOn (s : State) (c : Chan) (i : Held) : (s.handOn c i).places = s.places := by
  unfold State.handOn
  split <;> simp

/-! ### The decode window -/

@[simp] theorem State.places_offerDecode (s : State) (c : Chan) (f : SpeechFrame) (n : Nat) :
    (s.offerDecode c f n).places = s.places := by
  unfold State.offerDecode
  split
  · simp
  · have hoffer := (s.setWindow c (.decoding f false)).places_offerJob
      { channel := c, deadline := n, work := .decode f, discard := false }
    split <;> next t ht => rw [ht] at hoffer; simpa using hoffer

@[simp] theorem State.places_takeFrame (s : State) (c : Chan) (f : Frame) (n : Nat) :
    (s.takeFrame c f n).places = s.places := by
  cases f with
  | quiet => simp [State.takeFrame]
  | speech f =>
    rw [State.takeFrame]
    split
    · split <;> simp
    · simp

@[simp] theorem State.places_setUp (s : State) (c : Chan) (up : UplinkFields) : (s.setUp c up).places = s.places :=
  s.places_mapActive c fun _ => rfl

@[simp] theorem State.places_openWindow (s : State) (c : Chan) (up : UplinkFields) (comfort : Bool) (n : BitVec 8) :
    (s.openWindow c up comfort n).places = s.places := by
  unfold State.openWindow
  dsimp only
  split <;> simp

/-! ### Arrivals -/

@[simp] theorem State.places_insertArrival (s : State) (c : Chan) (up : UplinkFields) (n : BitVec 8) (f : Frame) :
    (s.insertArrival c up n f).places = s.places := by
  unfold State.insertArrival
  split
  · simp
  · split <;> simp

@[simp] theorem State.places_resync (s : State) (c : Chan) (up : UplinkFields) (f : Frame) :
    (s.resync c up f).places = s.places := by
  simp [State.resync]

@[simp] theorem State.places_windowArrival (s : State) (c : Chan) (w : Window) (f : Frame) :
    (s.windowArrival c w f).places = s.places := by
  unfold State.windowArrival
  split <;> simp

@[simp] theorem State.places_classify (s : State) (c : Chan) (a : Active) (f : Frame) :
    (s.classify c a f).places = s.places := by
  unfold State.classify
  dsimp only
  split
  · split
    · simp
    · simp
    · split
      · simp
      · split
        · split <;> simp
        · simp
  · split
    · simp
    · split
      · simp
      · split
        · split <;> simp
        · simp

@[simp] theorem State.places_arrival (s : State) (octets : List Octet) : (s.arrival octets).places = s.places := by
  unfold State.arrival
  dsimp only
  split
  · rfl
  · split
    · split <;> simp
    · rfl

/-! ### Playout instants -/

@[simp] theorem State.places_primingInstant (s : State) (c : Chan) (a : Active) (r : Option (BitVec 8)) (n : Nat) :
    (s.primingInstant c a r n).places = s.places := by
  unfold State.primingInstant
  dsimp only
  split
  · split <;> simp
  · simp

@[simp] theorem State.places_concealed (s : State) (c : Chan) (a : Active) (n : Nat) :
    (s.concealed c a n).places = s.places := by
  unfold State.concealed
  dsimp only
  split <;> simp

@[simp] theorem State.places_playBlock (s : State) (a : Active) (b : Block) : (s.playBlock a b).places = s.places :=
  s.places_mapSlot_keeps _ fun _ => rfl

@[simp] theorem State.places_plainInstant (s : State) (c : Chan) (a : Active) : (s.plainInstant c a).places = s.places := by
  unfold State.plainInstant
  split
  · simp
  · unfold State.runningInstant
    split
    · rfl
    · dsimp only
      split <;> simp

@[simp] theorem State.places_sendToward (s : State) (b : Chan) (a : Active) (m : Sent) :
    (s.sendToward b a m).places = s.places := by
  cases m <;> simp [State.sendToward]

@[simp] theorem State.places_advanceSequence (s : State) (b : Chan) : (s.advanceSequence b).places = s.places :=
  s.places_mapActive b fun _ => rfl

@[simp] theorem State.places_splicedInstant (s : State) (c : Chan) (a : Active) (b : Chan) (e : Active) :
    (s.splicedInstant c a b e).places = s.places := by
  unfold State.splicedInstant
  split
  · simp
  · split
    · rfl
    · dsimp only
      split <;> simp

@[simp] theorem State.places_closeWindow (s : State) (c : Chan) (w : Window) : (s.closeWindow c w).places = s.places := by
  unfold State.closeWindow
  split
  · simp
  · split
    · simp
    · split <;> simp
  all_goals rfl

/-! ### Boundaries -/

@[simp] theorem State.places_reportActivity (s : State) (c : Chan) (a : Active) :
    (s.reportActivity c a).places = s.places := by
  unfold State.reportActivity
  dsimp only
  split <;> split <;> simp

/-- A boundary keeps the fixed half, and with it the timeslot. -/
theorem State.places_boundary {s : State} {c : Chan} {a : Active} (h : s.life c = .active a) :
    (s.boundary c a).places = s.places := by
  have hafter := s.places_setLife_keeps c (l := .active (afterBoundary s.time a)) (by rw [h]; rfl)
  unfold State.boundary
  dsimp only
  split <;> simp [hafter]

/-! ### Completions and start deadlines -/

@[simp] theorem State.places_encodeResult (s : State) (c : Chan) (e : EncodeWork) (m : Speech.Coder) :
    (s.encodeResult c e m).places = s.places := by
  unfold State.encodeResult
  dsimp only
  exact (State.places_mapActive _ c (by simp)).trans (s.places_offerRecord _)

@[simp] theorem State.places_decodeResult (s : State) (c : Chan) (f : SpeechFrame) :
    (s.decodeResult c f).places = s.places :=
  s.places_mapActive c fun a => by split <;> rfl

@[simp] theorem State.places_deliver (s : State) (j : Job) : (s.deliver j).places = s.places := by
  unfold State.deliver
  split
  · rfl
  · split <;> simp

@[simp] theorem State.places_offerHeldDecode (s : State) (c : Chan) : (s.offerHeldDecode c).places = s.places := by
  unfold State.offerHeldDecode
  split
  · split <;> simp
  · rfl

@[simp] theorem State.places_afterCompletion (s : State) (j : Job) : (s.afterCompletion j).places = s.places := by
  unfold State.afterCompletion
  split <;> simp

@[simp] theorem State.places_complete (s : State) (e : Fin 4) (j : Job) : (s.complete e j).places = s.places := by
  simp [State.complete]

@[simp] theorem State.places_encodeDeadline (s : State) (c : Chan) : (s.encodeDeadline c).places = s.places := by
  unfold State.encodeDeadline
  split
  · simp
  · split
    · dsimp only
      split <;> simp [State.dropLateHeld]
    · rfl

@[simp] theorem State.places_decodeDeadline (s : State) (c : Chan) : (s.decodeDeadline c).places = s.places := by
  unfold State.decodeDeadline
  split
  · simp
  · split <;> simp

/-! ### The end of a splice and the stop of the streams -/

@[simp] theorem State.places_idleSlot (s : State) (x : Slot) : (s.idleSlot x).places = s.places :=
  s.places_mapSlot_keeps x fun _ => rfl

@[simp] theorem State.places_sever (s : State) (c : Chan) : (s.sever c).places = s.places := by
  rw [State.sever, State.places_record]
  exact s.places_mapActive c fun _ => rfl

@[simp] theorem State.places_resume (s : State) (c : Chan) : (s.resume c).places = s.places :=
  s.places_mapActive c fun _ => rfl

@[simp] theorem State.places_redirect (s : State) (c : Chan) : (s.redirect c).places = s.places := by
  unfold State.redirect
  split <;> simp

@[simp] theorem State.places_endSplice (s : State) (a b : Chan) : (s.endSplice a b).places = s.places := by
  unfold State.endSplice
  dsimp only
  split <;> simp

@[simp] theorem State.places_stopStreams (s : State) (c : Chan) (a : Active) : (s.stopStreams c a).places = s.places := by
  unfold State.stopStreams
  dsimp only
  split <;> simp

@[simp] theorem State.places_severAll (s : State) : s.severAll.places = s.places :=
  s.places_foldl _ (fun s c => by split <;> simp) _

/-- A check ends on a HALF_F context, which keeps its fixed half (R172). -/
theorem State.places_abortCheck {s : State} {c : Chan} {h : HalfF} (hl : s.life c = .halfF h) :
    (s.abortCheck c h).places = s.places := by
  refine State.places_eq_of (by simp) (fun x => ?_) fun d => ?_
  · rw [State.slot_abortCheck]
    split <;> rfl
  · rw [State.life_def, State.chan_abortCheck hl]
    split
    · next hd => rw [← hd, hl]; rfl
    · rfl

/-! ### Frame syncs -/

theorem Life.place_onSync (s : State) (incoming : Vector Octet 128) (ch : Channel) :
    (ch.onSync s incoming).life.place = ch.life.place := by
  unfold Channel.onSync
  split
  · next h hl =>
    dsimp only
    split
    · unfold Channel.checkOctet
      split
      · simp [Life.place, Life.lifecycle, Life.fixed?, hl, FixedHalf.onSync]
      · dsimp only
        split
        · simp [Channel.life_record, Life.place, Life.lifecycle, Life.fixed?, hl, FixedHalf.onSync]
        · simp [Life.place, Life.lifecycle, Life.fixed?, hl, FixedHalf.onSync]
    · simp [Life.place, Life.lifecycle, Life.fixed?, hl, FixedHalf.onSync]
  · next h hl => simp [Life.place, Life.lifecycle, Life.fixed?, hl]
  · next a hl => simp [Life.place, Life.lifecycle, Life.fixed?, hl, FixedHalf.onSync]
  · rfl

theorem Timeslot.entry_onSync (ts : Timeslot) : ts.onSync.entry = ts.entry := by
  unfold Timeslot.onSync
  split <;> rfl

@[simp] theorem State.places_frameSync (s : State) (incoming : Vector Octet 128) :
    (s.frameSync incoming).places = s.places := by
  unfold State.frameSync
  rw [State.places_settle]
  refine State.places_eq_of (fun l => ?_) (fun x => ?_) fun c => ?_
  · cases l <;> rfl
  · simp [State.slot, Timeslot.entry_onSync]
  · simp [State.life, State.chan, Life.place_onSync]

/-! ### Orders -/

@[simp] theorem State.places_touch (s : State) (l : Line) : (s.touch l).places = s.places :=
  State.places_eq_of (by simp) (by simp) (by simp)

@[simp] theorem State.places_formReply (s : State) (l : Line) (r : Result) (n : BitVec 7) (d : BitVec 24) :
    (s.formReply l r n d).places = s.places :=
  s.places_mapLine_keeps l (f := fun u => { u with
    orderError := false
    reply := some
      { node := u.node, previousError := u.orderError, result := r, attention := s.attention l, channel := n
        data := d } }) fun _ => rfl

@[simp] theorem State.places_advancePointer (s : State) (l : Line) : (s.advancePointer l).places = s.places :=
  s.places_mapLine_keeps l fun _ => rfl

@[simp] theorem State.places_setSettings (s : State) (l : Line) (f : Settings → Settings) :
    (s.setSettings l f).places = s.places :=
  s.places_mapLine_keeps l fun _ => rfl

end Sys2Proof.Machine
end

section
/-! SUPPORT. The relations of the staging rows and of the timeslot map, on the places alone: what keeps them. -/

namespace Sys2Proof.Machine

/-! ### The relations -/

/-- Whether a context that stands at a place holds a line's half (R137). -/
def placeHolds (q : Lifecycle × Option Slot) (l : Line) : Prop :=
  match l with
  | .F => q.2.isSome = true
  | .R => q.1 = .halfR ∨ q.1 = .active

/-- Whether a line's row is PENDING on a channel (R137). -/
def Places.pendingOn (p : Places) (l : Line) (c : Chan) : Prop :=
  (p.row l).pending = true ∧ (p.row l).latched = some c

/-- The rows well formed and latched to channels that hold the line's half, and the map in step with the contexts and the
F row. A release passes through such places with a row PENDING on a channel that is ACTIVE no more. -/
structure Places.mapped (p : Places) : Prop where
  row      : ∀ l, (p.row l).ok l
  held     : ∀ l c, (p.row l).latched = some c → placeHolds (p.place c) l
  bound    : ∀ x c, p.entry x = .bound c ↔ (p.place c).2 = some x
  reserved : ∀ x c, p.entry x = .reserved c ↔
    p.pendingOn .F c ∧ (p.row .F).timeslot? = some x ∧ (p.place c).2 ≠ some x

/-- The relations of R51 and R137: beside the above, a row is PENDING on ACTIVE channels only. -/
structure Places.ok (p : Places) : Prop extends p.mapped where
  active : ∀ l c, p.pendingOn l c → (p.place c).1 = .active

theorem Life.placeHolds_iff (l : Life) (k : Line) : placeHolds l.place k ↔ l.holds k = true := by
  cases k <;> cases l <;> simp [placeHolds, Life.holds, Life.place, Life.fixed?, Life.radio?, Life.lifecycle]

theorem Life.place_eq_some (l : Life) (x : Slot) :
    l.place.2 = some x ↔ ∃ f, l.fixed? = some f ∧ f.timeslot = x :=
  Option.map_eq_some_iff

/-- The relations of a state are those of its places. -/
theorem State.places_ok_iff (s : State) : s.places.ok ↔ s.rowsOk ∧ s.mapOk := by
  have hpending : ∀ l c, s.places.pendingOn l c ↔ s.pendingOn l c = true := fun l c => (s.pendingOn_iff l c).symm
  have hother : ∀ x c, (s.places.place c).2 ≠ some x ↔ ∀ f, (s.life c).fixed? = some f → f.timeslot ≠ x := fun x c => by
    rw [ne_eq, State.place_places, Life.place_eq_some]
    simp
  constructor
  · rintro ⟨⟨hrow, hheld, hbound, hreserved⟩, hactive⟩
    refine ⟨fun l => ⟨hrow l, fun c hc => ⟨(Life.placeHolds_iff _ l).mp (hheld l c hc), fun hp => hactive l c ⟨hp, hc⟩⟩⟩,
      fun x c => ⟨?_, ?_⟩⟩
    · exact (hbound x c).trans (Life.place_eq_some _ x)
    · rw [← hpending, ← hother]
      exact hreserved x c
  · rintro ⟨hrows, hmap⟩
    refine ⟨⟨fun l => (hrows l).1, fun l c hc => (Life.placeHolds_iff _ l).mpr ((hrows l).2 c hc).1, fun x c => ?_,
      fun x c => ?_⟩,
      fun l c hp => ((hrows l).2 c hp.2).2 hp.1⟩
    · exact (hmap x c).1.trans (Life.place_eq_some _ x).symm
    · rw [hpending, hother]
      exact (hmap x c).2

/-! ### Updates of the places -/

/-- The places with one row replaced. -/
def Places.setRow (p : Places) (l : Line) (r : Row) : Places :=
  { p with row := fun k => if k = l then r else p.row k }

/-- The places with one map entry replaced. -/
def Places.setEntry (p : Places) (x : Slot) (e : Entry) : Places :=
  { p with entry := fun y => if y = x then e else p.entry y }

/-- The places with one channel put elsewhere. -/
def Places.setPlace (p : Places) (c : Chan) (q : Lifecycle × Option Slot) : Places :=
  { p with place := fun d => if d = c then q else p.place d }

/-- A channel that has a timeslot moved to the one that a row names, if it names one (R54). -/
def Places.move (p : Places) (c : Chan) (new : Option Slot) : Places :=
  match (p.place c).2, new with
  | some old, some x =>
    if old = x then p
    else ((p.setEntry x (.bound c)).setEntry old .free).setPlace c ((p.place c).1, some x)
  | _, _ => p

/-- A line's row lost to a channel, with the reservation that it held (R24, R149). -/
def Places.lose (p : Places) (l : Line) (c : Chan) : Places :=
  if (p.row l).latched = some c then
    { p with
      row := fun k => if k = l then .empty else p.row k
      entry := fun x =>
        if (p.row l).pending = true ∧ (p.row l).timeslot? = some x ∧ p.entry x = .reserved c then .free
        else p.entry x }
  else p

theorem Row.empty_ok (l : Line) : Row.empty.ok l := ⟨rfl, rfl⟩

theorem Places.move_none (p : Places) (c : Chan) : p.move c none = p := by
  unfold Places.move
  split <;> simp_all

theorem Places.move_own {p : Places} {c : Chan} {x : Slot} (h : (p.place c).2 = some x) : p.move c (some x) = p := by
  simp [Places.move, h]

theorem Places.move_new {p : Places} {c : Chan} {old x : Slot} (h : (p.place c).2 = some old) (hx : old ≠ x) :
    p.move c (some x) = ((p.setEntry x (.bound c)).setEntry old .free).setPlace c ((p.place c).1, some x) := by
  simp [Places.move, h, hx]

section Updates

variable {p : Places} (h : p.mapped)
include h

/-- Of the F row alone does the map hold a reservation. -/
theorem Places.mapped.setRow_empty_R : (p.setRow .R .empty).mapped := by
  obtain ⟨hrow, hheld, hbound, hreserved⟩ := h
  refine ⟨fun k => ?_, fun k d => ?_, hbound, hreserved⟩
  · cases k
    · exact hrow .F
    · exact Row.empty_ok .R
  · cases k
    · exact hheld .F d
    · exact fun hd => nomatch hd

/-- The F row of a map without a reservation emptied. -/
theorem Places.mapped.setRow_empty_F (hno : ∀ x d, p.entry x ≠ .reserved d) : (p.setRow .F .empty).mapped := by
  obtain ⟨hrow, hheld, hbound, hreserved⟩ := h
  refine ⟨fun k => ?_, fun k d => ?_, hbound, fun x d => ?_⟩
  · cases k
    · exact Row.empty_ok .F
    · exact hrow .R
  · cases k
    · exact fun hd => nomatch hd
    · exact hheld .R d
  · exact ⟨fun hx => absurd hx (hno x d), fun hx => nomatch hx.1.1⟩

/-- A channel moved to the timeslot reserved for it, with the F row emptied (R54). -/
theorem Places.mapped.moved {c : Chan} {old x : Slot} (hp : p.pendingOn .F c) (hx : (p.row .F).timeslot? = some x)
    (hold : (p.place c).2 = some old) (hne : old ≠ x) :
    ((((p.setEntry x (.bound c)).setEntry old .free).setPlace c ((p.place c).1, some x)).setRow .F .empty).mapped := by
  have hempty := Row.empty_ok
  obtain ⟨hrow, hheld, hbound, hreserved⟩ := h
  refine ⟨fun k => ?_, fun k d => ?_, fun y d => ?_, fun y d => ?_⟩
  · cases k
    · exact Row.empty_ok .F
    · exact hrow .R
  · cases k
    · exact fun hd => nomatch hd
    · intro hd
      have := hheld .R d hd
      simp only [Places.setRow, Places.setPlace]
      split
      · next hdc => exact hdc ▸ this
      · exact this
  · have := hbound y d
    have := hbound old c
    have := hreserved x c
    simp only [Places.setRow, Places.setPlace, Places.setEntry]
    grind
  · have := hreserved y d
    simp only [Places.setRow, Places.setPlace, Places.setEntry]
    grind [Places.pendingOn, Row.empty]

end Updates

/-- A PENDING row applied to the channel it is latched to (R144). -/
theorem Places.mapped.apply {p : Places} (h : p.mapped) {l : Line} {c : Chan} (hp : p.pendingOn l c) :
    ((p.move c (p.row l).timeslot?).setRow l .empty).mapped := by
  cases l with
  | R =>
    rw [(h.row .R).timeslot?_R, Places.move_none]
    exact h.setRow_empty_R
  | F =>
    have hnamed : ∀ x d, p.entry x = .reserved d → (p.row .F).timeslot? = some x ∧ (p.place c).2 ≠ some x := by
      intro x d hx
      obtain ⟨hd, ht, hne⟩ := (h.reserved x d).mp hx
      have hdc : d = c := Option.some.inj (hd.2.symm.trans hp.2)
      exact ⟨ht, hdc ▸ hne⟩
    obtain ⟨old, hold⟩ := Option.isSome_iff_exists.mp (h.held .F c hp.2)
    cases ht : (p.row .F).timeslot? with
    | none =>
      rw [Places.move_none]
      exact h.setRow_empty_F fun x d hx => by simpa [ht] using (hnamed x d hx).1
    | some x =>
      by_cases hx : old = x
      · rw [Places.move_own (hx ▸ hold)]
        refine h.setRow_empty_F fun y d hy => ?_
        obtain ⟨hty, hne⟩ := hnamed y d hy
        exact hne (by rw [hold, hx, ← ht, hty])
      · rw [Places.move_new hold hx]
        exact h.moved hp ht hold hx

/-! ### What the updates leave of the rows and the lifecycles -/

@[simp] theorem Places.row_move (p : Places) (c : Chan) (x : Option Slot) : (p.move c x).row = p.row := by
  unfold Places.move
  split
  · split <;> rfl
  · rfl

/-- A move changes no lifecycle state. -/
@[simp] theorem Places.lifecycle_move (p : Places) (c d : Chan) (x : Option Slot) :
    ((p.move c x).place d).1 = (p.place d).1 := by
  unfold Places.move
  split
  · split
    · rfl
    · simp only [Places.setPlace]
      split
      · next hd => rw [hd]
      · rfl
  · rfl

@[simp] theorem Places.place_lose (p : Places) (l : Line) (c : Chan) : (p.lose l c).place = p.place := by
  unfold Places.lose
  split <;> rfl

theorem Places.pendingOn_lose (p : Places) (l k : Line) (c d : Chan) :
    (p.lose l c).pendingOn k d ↔ p.pendingOn k d ∧ ¬(k = l ∧ d = c) := by
  unfold Places.lose Places.pendingOn
  split
  · by_cases hk : k = l
    · subst hk
      simp only [if_true]
      grind [Row.empty]
    · simp [hk]
  · grind

theorem Places.pendingOn_setRow_empty (p : Places) (l k : Line) (d : Chan) :
    (p.setRow l .empty).pendingOn k d ↔ p.pendingOn k d ∧ k ≠ l := by
  unfold Places.setRow Places.pendingOn
  by_cases hk : k = l
  · simp [hk, Row.empty]
  · simp [hk]

/-- Places in step again, of which every PENDING row was PENDING before on a channel that is as ACTIVE as it was. -/
theorem Places.ok.of_mapped {p q : Places} (h : p.ok) (hq : q.mapped)
    (hp : ∀ l d, q.pendingOn l d → p.pendingOn l d ∧ (q.place d).1 = (p.place d).1) : q.ok :=
  ⟨hq, fun l d hd => (hp l d hd).2.trans (h.active l d (hp l d hd).1)⟩

/-- A PENDING row applied at a point (R144). -/
theorem Places.ok.apply {p : Places} (h : p.ok) {l : Line} {c : Chan} (hp : p.pendingOn l c) :
    ((p.move c (p.row l).timeslot?).setRow l .empty).ok := by
  refine h.of_mapped (h.tomapped.apply hp) fun k d hd => ?_
  rw [Places.pendingOn_setRow_empty] at hd
  simp only [Places.pendingOn, Places.row_move] at hd
  exact ⟨hd.1, Places.lifecycle_move p c d _⟩

/-! ### Halves released -/

section Release

variable {p : Places} (h : p.mapped)
include h

/-- The F line's half gone from a channel: the timeslot left, the F row lost (R20, R21, R24). -/
theorem Places.mapped.release_F {c : Chan} {x : Slot} {lc : Lifecycle} (hx : (p.place c).2 = some x)
    (hR : placeHolds (p.place c) .R → placeHolds (lc, none) .R) :
    (((p.setEntry x .free).setPlace c (lc, none)).lose .F c).mapped := by
  obtain ⟨hrow, hheld, hbound, hreserved⟩ := h
  refine ⟨fun k => ?_, fun k d => ?_, fun y d => ?_, fun y d => ?_⟩
  · unfold Places.lose
    split
    · cases k
      · exact Row.empty_ok .F
      · exact hrow .R
    · exact hrow k
  · have hk := hheld k d
    cases k <;> simp only [Places.lose, Places.setEntry, Places.setPlace] <;> grind [Row.empty, placeHolds]
  · have hy := hbound y d
    have hxc := hbound x c
    simp only [Places.lose, Places.setEntry, Places.setPlace]
    grind
  · have hy := hreserved y d
    have hxc := hbound x c
    simp only [Places.pendingOn, Places.lose, Places.setEntry, Places.setPlace] at *
    grind [Row.empty]

/-- The R line's half gone from a channel: the R row lost, which holds no reservation (R20, R22, R24). -/
theorem Places.mapped.release_R {c : Chan} {lc : Lifecycle} :
    ((p.setPlace c (lc, (p.place c).2)).lose .R c).mapped := by
  obtain ⟨hrow, hheld, hbound, hreserved⟩ := h
  have hR := (hrow .R).timeslot?_R
  refine ⟨fun k => ?_, fun k d => ?_, fun y d => ?_, fun y d => ?_⟩
  · unfold Places.lose
    split
    · cases k
      · exact hrow .F
      · exact Row.empty_ok .R
    · exact hrow k
  · have hk := hheld k d
    cases k <;> simp only [Places.lose, Places.setPlace] <;> grind [Row.empty, placeHolds]
  · have hy := hbound y d
    simp only [Places.lose, Places.setPlace]
    grind
  · have hy := hreserved y d
    simp only [Places.pendingOn, Places.lose, Places.setPlace] at *
    grind [Row.empty]

end Release

end Sys2Proof.Machine
end

section
/-! SUPPORT. The places after the operations that change them: halves made and released, rows staged, committed, applied
and lost, and what each keeps of the relations. -/

namespace Sys2Proof.Machine

/-! ### Halves made, rows staged and committed, on the places -/

/-- The timeslot that a committed row names, if it names one, reserved where it is FREE (R53, R141). -/
def Places.reserve (p : Places) (named : Option Slot) (c : Chan) : Places :=
  match named with
  | some x => if p.entry x = .free then p.setEntry x (.reserved c) else p
  | none => p

/-- A half of a line gone from a channel, the line's row lost: the other half stays, in lifecycle state `lc`
(R20 to R22, R24). -/
def Places.left (p : Places) (l : Line) (c : Chan) (lc : Lifecycle) : Places :=
  match l with
  | .F =>
    ((match (p.place c).2 with
      | some x => p.setEntry x .free
      | none => p).setPlace c (lc, none)).lose .F c
  | .R => (p.setPlace c (lc, (p.place c).2)).lose .R c

@[simp] theorem Places.row_reserve (p : Places) (named : Option Slot) (c : Chan) : (p.reserve named c).row = p.row := by
  unfold Places.reserve
  split
  · split <;> rfl
  · rfl

@[simp] theorem Places.place_reserve (p : Places) (named : Option Slot) (c : Chan) :
    (p.reserve named c).place = p.place := by
  unfold Places.reserve
  split
  · split <;> rfl
  · rfl

theorem Places.entry_reserve_bound (p : Places) (named : Option Slot) (c d : Chan) (y : Slot) :
    (p.reserve named c).entry y = .bound d ↔ p.entry y = .bound d := by
  unfold Places.reserve
  split
  · split
    · simp only [Places.setEntry]
      grind
    · rfl
  · rfl

section Updates

variable {p : Places} (h : p.ok)
include h

/-- A fixed half made on a channel that has none, with a FREE timeslot (R14, R15). -/
theorem Places.ok.bind {c : Chan} {x : Slot} {lc : Lifecycle} (hc : (p.place c).2 = none)
    (ha : (p.place c).1 ≠ .active) (hx : p.entry x = .free) (hR : placeHolds (p.place c) .R → placeHolds (lc, some x) .R) :
    ((p.setEntry x (.bound c)).setPlace c (lc, some x)).ok := by
  obtain ⟨⟨hrow, hheld, hbound, hreserved⟩, hactive⟩ := h
  refine ⟨⟨hrow, fun k d hd => ?_, fun y d => ?_, fun y d => ?_⟩, fun k d hd => ?_⟩
  · have hk := hheld k d hd
    simp only [Places.setPlace]
    split
    · next hdc =>
      cases k
      · rfl
      · exact hR (hdc ▸ hk)
    · exact hk
  · have hy := hbound y d
    have hxd := hbound x d
    simp only [Places.setPlace, Places.setEntry]
    grind
  · have hy := hreserved y d
    have hcF := hactive .F c
    simp only [Places.pendingOn, Places.setPlace, Places.setEntry] at *
    grind
  · have hne : d ≠ c := fun hdc => ha (hdc ▸ hactive k d hd)
    exact (congrArg Prod.fst (if_neg hne)).trans (hactive k d hd)

/-- A radio half made on a channel that is not ACTIVE: the fixed half, if there is one, stays (R17, R18). -/
theorem Places.ok.attach {c : Chan} {lc : Lifecycle} (ha : (p.place c).1 ≠ .active)
    (hR : placeHolds (lc, (p.place c).2) .R) : (p.setPlace c (lc, (p.place c).2)).ok := by
  have htimeslot : ∀ d, ((p.setPlace c (lc, (p.place c).2)).place d).2 = (p.place d).2 := fun d => by
    simp only [Places.setPlace]
    split
    · next hdc => rw [hdc]
    · rfl
  refine ⟨⟨h.row, fun k d hd => ?_, fun y d => ?_, fun y d => ?_⟩, fun k d hd => ?_⟩
  · have hk := h.held k d hd
    cases k
    · unfold placeHolds
      rw [htimeslot]
      exact hk
    · simp only [Places.setPlace]
      split
      · exact hR
      · exact hk
  · rw [htimeslot]
    exact h.bound y d
  · rw [htimeslot]
    exact h.reserved y d
  · have hne : d ≠ c := fun hdc => ha (hdc ▸ h.active k d hd)
    simpa [Places.setPlace, hne] using h.active k d hd

/-- A row that is not PENDING, replaced by another one (R140, R142). -/
theorem Places.ok.setRow {l : Line} {r : Row} (hp : (p.row l).pending = false) (hr : r.ok l) (hrp : r.pending = false)
    (hheld : ∀ c, r.latched = some c → placeHolds (p.place c) l) : (p.setRow l r).ok := by
  have hpending : ∀ k d, (p.setRow l r).pendingOn k d ↔ p.pendingOn k d := fun k d => by
    unfold Places.pendingOn Places.setRow
    by_cases hk : k = l
    · subst hk
      simp [hp, hrp]
    · simp [hk]
  refine ⟨⟨fun k => ?_, fun k d => ?_, h.bound, fun x d => ?_⟩, fun k d hd => h.active k d ((hpending k d).mp hd)⟩
  · simp only [Places.setRow]
    split
    · next hk => exact hk ▸ hr
    · exact h.row k
  · simp only [Places.setRow]
    split
    · next hk => exact hk ▸ hheld d
    · exact h.held k d
  · rw [hpending]
    refine (h.reserved x d).trans (and_congr_right fun hd => ?_)
    have hl : Line.F ≠ l := fun hl => by
      have := hd.1
      rw [hl, hp] at this
      cases this
    simp [Places.setRow, hl]

/-- With the F row not PENDING, the timeslot that it names is reserved where it is not the channel's own. -/
theorem Places.ok.entry_reserve {named : Option Slot} {c : Chan} (hp : (p.row .F).pending = false)
    (hfree : ∀ x, named = some x → (p.entry x).takenFrom c = false) (y : Slot) (d : Chan) :
    (p.reserve named c).entry y = .reserved d ↔ d = c ∧ named = some y ∧ (p.place d).2 ≠ some y := by
  have hno : ∀ x e, p.entry x ≠ .reserved e := fun x e hx => by
    have := ((h.reserved x e).mp hx).1.1
    rw [hp] at this
    cases this
  cases named with
  | none => exact ⟨fun hy => absurd hy (hno y d), fun hy => nomatch hy.2.1⟩
  | some x =>
    have hx := hfree x rfl
    have hown := h.bound x c
    cases he : p.entry x with
    | free => simp only [Places.reserve, he, if_true, Places.setEntry]; grind
    | bound e =>
      have hec : e = c := by simpa [he, Entry.takenFrom] using hx
      simp only [Places.reserve, he, reduceCtorEq, if_false]
      grind
    | reserved e => exact absurd he (hno x e)

/-- A row that becomes PENDING on the channel it is latched to, its timeslot reserved where that is not the channel's own
(R141). -/
theorem Places.ok.commit {l : Line} {c : Chan} (hc : (p.row l).latched = some c) (hp : (p.row l).pending = false)
    (hfree : ∀ x, (p.row l).timeslot? = some x → (p.entry x).takenFrom c = false) :
    ((p.reserve (p.row l).timeslot? c).setRow l { p.row l with pending := true }).mapped := by
  have hok : ({ p.row l with pending := true } : Row).ok l := by
    have hl := h.row l
    unfold Row.ok at hl ⊢
    rw [hc] at hl ⊢
    exact hl
  have hlatched : ∀ k, ((if k = l then { p.row l with pending := true } else p.row k : Row)).latched
      = (p.row k).latched := fun k => by
    split
    · next hk => rw [hk]
    · rfl
  refine ⟨fun k => ?_, fun k d hd => ?_, fun y d => ?_, fun y d => ?_⟩
  · simp only [Places.setRow, Places.row_reserve]
    split
    · next hk => exact hk ▸ hok
    · exact h.row k
  · simp only [Places.setRow, Places.row_reserve, Places.place_reserve, hlatched] at hd ⊢
    exact h.held k d hd
  · simp only [Places.setRow, Places.place_reserve, Places.entry_reserve_bound]
    exact h.bound y d
  · simp only [Places.pendingOn, Places.setRow, Places.row_reserve, Places.place_reserve]
    cases l
    · rw [h.entry_reserve hp hfree]
      have hdc : d = c ↔ (p.row .F).latched = some d := by rw [hc, Option.some.injEq, eq_comm]
      rw [hdc]
      simp [Row.timeslot?]
    · rw [(h.row .R).timeslot?_R]
      simpa [Places.pendingOn, Places.reserve] using h.reserved y d

end Updates

/-- What a release of a half leaves is in step again. -/
theorem Places.mapped.left {p : Places} (h : p.mapped) {l : Line} {c : Chan} {lc : Lifecycle}
    (hc : placeHolds (p.place c) l) (hR : l = .F → placeHolds (p.place c) .R → placeHolds (lc, none) .R) :
    (p.left l c lc).mapped := by
  cases l with
  | F =>
    obtain ⟨x, hx⟩ := Option.isSome_iff_exists.mp hc
    simp only [Places.left, hx]
    exact h.release_F hx (hR rfl)
  | R => exact h.release_R

/-- A release changes the lifecycle state of its channel alone. -/
theorem Places.lifecycle_left (p : Places) (l : Line) (c d : Chan) (lc : Lifecycle) :
    ((p.left l c lc).place d).1 = if d = c then lc else (p.place d).1 := by
  cases l <;> simp only [Places.left, Places.place_lose, Places.setPlace]
  · split
    · rfl
    · split <;> rfl
  · split <;> rfl

/-- A release changes where its channel alone stands. -/
theorem Places.place_left_ne (p : Places) (l : Line) {c d : Chan} (h : d ≠ c) (lc : Lifecycle) :
    (p.left l c lc).place d = p.place d := by
  cases l <;> simp only [Places.left, Places.place_lose, Places.setPlace, if_neg h]
  split <;> rfl

theorem Places.pendingOn_left (p : Places) (l k : Line) (c d : Chan) (lc : Lifecycle) :
    (p.left l c lc).pendingOn k d ↔ p.pendingOn k d ∧ ¬(k = l ∧ d = c) := by
  cases l <;> simp only [Places.left, Places.pendingOn_lose]
  · split <;> rfl
  · rfl

/-! ### The operations of a row on the state -/

theorem State.places_mapLine (s : State) (l : Line) (f : LineUnit → LineUnit) :
    (s.mapLine l f).places = s.places.setRow l (f (s.line l)).row := by
  refine Places.ext (funext fun k => ?_) (by simp [State.places, Places.setRow]) (by simp [State.places, Places.setRow])
  simp only [State.row_places, State.line_mapLine, Places.setRow, eq_comm (a := k)]
  split
  · next hk => rw [hk]
  · rfl

theorem State.places_mapSlot (s : State) (x : Slot) (f : Timeslot → Timeslot) :
    (s.mapSlot x f).places = s.places.setEntry x (f (s.slot x)).entry := by
  refine Places.ext (by simp [State.places, Places.setEntry]) (funext fun y => ?_) (by simp [State.places, Places.setEntry])
  simp only [State.entry_places, State.slot_mapSlot, Places.setEntry, eq_comm (a := y)]
  split
  · next hy => rw [hy]
  · rfl

theorem State.places_mapChan (s : State) (c : Chan) (f : Channel → Channel) :
    (s.mapChan c f).places = s.places.setPlace c (f (s.chan c)).life.place := by
  refine Places.ext (by simp [State.places, Places.setPlace]) (by simp [State.places, Places.setPlace]) (funext fun d => ?_)
  simp only [State.place_places, State.life_def, State.chan_mapChan, Places.setPlace, eq_comm (a := d)]
  split
  · next hd => rw [hd]
  · rfl

theorem State.places_setLife (s : State) (c : Chan) (l : Life) :
    (s.setLife c l).places = s.places.setPlace c l.place :=
  s.places_mapChan c _

/-- A channel's timeslot, in the place and in the fixed half. -/
theorem State.place_of_fixed {s : State} {c : Chan} {f : FixedHalf} (h : (s.life c).fixed? = some f) :
    (s.places.place c).2 = some f.timeslot := by
  rw [State.place_places, Life.place, h]
  rfl

theorem Life.place_mapFixed {l : Life} {f : FixedHalf} (h : l.fixed? = some f) (g : FixedHalf → FixedHalf) :
    (l.mapFixed g).place = (l.place.1, some (g f).timeslot) := by
  cases l <;> cases h <;> rfl

theorem State.places_moveTimeslot (s : State) (c : Chan) (pt : Bool) (x : Slot) :
    (s.moveTimeslot c pt x).places = s.places.move c (some x) := by
  cases hf : (s.life c).fixed? with
  | none =>
    have hnone : (s.life c).place.2 = none := by rw [Life.place, hf]; rfl
    simp [State.moveTimeslot, hf, Places.move, hnone]
  | some f =>
    have hold := State.place_of_fixed hf
    by_cases hx : f.timeslot = x
    · rw [← hx, State.moveTimeslot_own s c pt f hf, Places.move_own hold]
    · rw [Places.move_new hold hx]
      simp only [State.moveTimeslot, hf, if_neg hx, State.places_mapChan, State.places_mapSlot, State.chan_mapSlot]
      rw [← State.life_def, Life.place_mapFixed hf]
      rfl

theorem Life.place_applyItem (l : Life) {i : Item} (v : BitVec 16) : (l.applyItem i v).place = l.place := by
  cases i <;> cases l <;> rfl

/-- An item other than TIMESLOT leaves the places (R138). -/
theorem State.places_applySlot (s : State) (c : Chan) (pt : Bool) {p : Item × BitVec 16} (hp : p.1 ≠ .timeslot) :
    (State.applySlot c pt s p).places = s.places := by
  unfold State.applySlot
  split
  · next hi => exact absurd hi hp
  · exact s.places_mapChan_keeps c fun ch => Life.place_applyItem _ _

/-- The items of a row move its channel to the timeslot that the row names, if it names one (R144, R145). -/
theorem State.places_foldl_applySlot (c : Chan) (pt : Bool) (items : List (Item × BitVec 16))
    (hn : (items.map (·.1)).Nodup) (s : State) :
    (items.foldl (State.applySlot c pt) s).places
      = s.places.move c ({ latched := none, slots := items, pending := false } : Row).timeslot? := by
  induction items generalizing s with
  | nil => exact (Places.move_none _ c).symm
  | cons p items ih =>
    obtain ⟨hp, hrest⟩ := List.nodup_cons.mp hn
    rw [List.foldl_cons, ih hrest]
    obtain ⟨i, v⟩ := p
    by_cases hi : i = .timeslot
    · subst hi
      have hnone : ({ latched := none, slots := items, pending := false } : Row).timeslot? = none :=
        Row.timeslot?_eq_none.mpr fun w hw => hp (List.mem_map.mpr ⟨_, hw, rfl⟩)
      rw [hnone, Places.move_none]
      exact State.places_moveTimeslot s c pt _
    · rw [State.places_applySlot s c pt hi]
      simp [Row.timeslot?, hi]

theorem Life.place_rederived (l : Life) : l.rederived.place = l.place := by
  cases l <;> rfl

theorem State.places_written (s : State) {r : Row} (hn : (r.slots.map (·.1)).Nodup) (c : Chan) (pt : Bool) :
    (s.written r c pt).places = s.places.move c r.timeslot? := by
  have hslots := State.places_foldl_applySlot c pt r.slots hn s
  unfold State.written
  split
  · rw [State.places_mapChan_keeps _ c fun ch => Life.place_rederived _]
    exact hslots
  · exact hslots

/-- The apply of a row to the channel it is latched to (R144). -/
theorem State.places_applyRow {s : State} {l : Line} {c : Chan} (hc : (s.line l).row.latched = some c)
    (hn : ((s.line l).row.slots.map (·.1)).Nodup) (pt : Bool) :
    (s.applyRow l pt).places = (s.places.move c (s.line l).row.timeslot?).setRow l .empty := by
  have hw : s.applyRow l pt
      = ((s.written (s.line l).row c pt).record c l .commitApplied).mapLine l fun u => { u with row := .empty } := by
    simp only [State.applyRow, hc, State.written]
  rw [hw, State.places_mapLine, State.places_record, State.places_written s hn]

theorem State.places_loseRow (s : State) (l : Line) (c : Chan) : (s.loseRow l c).places = s.places.lose l c := by
  have hlatched : (s.places.row l).latched = (s.line l).row.latched := rfl
  unfold Places.lose
  by_cases hc : (s.line l).row.latched = some c
  · rw [if_pos (hlatched.trans hc)]
    refine Places.ext (funext fun k => ?_) (funext fun x => ?_) (funext fun d => ?_)
    · simp only [State.row_places, State.line_loseRow, eq_comm (a := l) (b := k)]
      by_cases hk : k = l
      · simp [hk, hc]
      · simp [hk]
    · simp only [State.entry_places, State.row_places, State.slot_loseRow, State.pendingOn, hc]
      simp only [decide_true, Bool.and_true]
      split
      · next hx => exact (if_pos hx).symm
      · next hx => exact (if_neg hx).symm
    · simp only [State.place_places, State.life_def, State.chan_loseRow]
      split
      · cases l <;> rfl
      · rfl
  · rw [if_neg fun h => hc (hlatched.symm.trans h), State.loseRow, if_neg hc]

end Sys2Proof.Machine
end

section
/-! SUPPORT. A row applied where it is PENDING, and a half released, on the places: both keep the relations of the rows and
of the map. -/

namespace Sys2Proof.Machine

/-! ### A row applied where it is PENDING (R143, R144) -/

/-- A line's row applied to a channel where it is PENDING on it. -/
def Places.applyOn (p : Places) (l : Line) (c : Chan) : Places :=
  if (p.row l).pending = true ∧ (p.row l).latched = some c then (p.move c (p.row l).timeslot?).setRow l .empty else p

theorem Places.applyOn_of_not_pending {p : Places} {l : Line} {c : Chan} (h : ¬p.pendingOn l c) :
    p.applyOn l c = p := if_neg h

theorem Places.applyOn_of_pending {p : Places} {l : Line} {c : Chan} (h : p.pendingOn l c) :
    p.applyOn l c = (p.move c (p.row l).timeslot?).setRow l .empty := if_pos h

theorem Places.mapped.applyOn {p : Places} (h : p.mapped) (l : Line) (c : Chan) : (p.applyOn l c).mapped := by
  unfold Places.applyOn
  split
  · next hp => exact h.apply hp
  · exact h

theorem Places.ok.applyOn {p : Places} (h : p.ok) (l : Line) (c : Chan) : (p.applyOn l c).ok := by
  unfold Places.applyOn
  split
  · next hp => exact h.apply hp
  · exact h

/-- An apply changes no lifecycle state. -/
@[simp] theorem Places.lifecycle_applyOn (p : Places) (l : Line) (c d : Chan) :
    ((p.applyOn l c).place d).1 = (p.place d).1 := by
  unfold Places.applyOn
  split
  · exact Places.lifecycle_move p c d _
  · rfl

/-- What is PENDING after an apply was PENDING before it, and not the row that applied. -/
theorem Places.pendingOn_applyOn {p : Places} {l k : Line} {c d : Chan} (h : (p.applyOn l c).pendingOn k d) :
    p.pendingOn k d ∧ ¬(k = l ∧ d = c) := by
  by_cases hp : p.pendingOn l c
  · rw [Places.applyOn_of_pending hp, Places.pendingOn_setRow_empty] at h
    simp only [Places.pendingOn, Places.row_move] at h
    exact ⟨h.1, fun hk => h.2 hk.1⟩
  · rw [Places.applyOn_of_not_pending hp] at h
    exact ⟨h, fun ⟨hk, hd⟩ => hp (hk ▸ hd ▸ h)⟩

/-- An apply gives a channel no half and takes none from it. -/
theorem Places.isSome_move (p : Places) (c d : Chan) (x : Option Slot) :
    ((p.move c x).place d).2.isSome = (p.place d).2.isSome := by
  cases hold : (p.place c).2 with
  | none => simp [Places.move, hold]
  | some old =>
    cases x with
    | none => rw [Places.move_none]
    | some y =>
      by_cases hy : old = y
      · rw [Places.move_own (hy ▸ hold)]
      · rw [Places.move_new hold hy]
        simp only [Places.setPlace]
        split
        · next hd => rw [hd, hold]; rfl
        · rfl

theorem Places.holds_applyOn (p : Places) (l k : Line) (c d : Chan) :
    placeHolds ((p.applyOn l c).place d) k ↔ placeHolds (p.place d) k := by
  cases k
  · unfold Places.applyOn
    split
    · exact Bool.eq_iff_iff.mp (p.isSome_move c d _)
    · rfl
  · simp [placeHolds]

/-- A row is well formed, so it names each item once. -/
theorem Row.ok.nodup {r : Row} {l : Line} (h : r.ok l) : (r.slots.map (·.1)).Nodup := by
  unfold Row.ok at h
  split at h
  · rw [h.1]
    exact List.nodup_nil
  · exact h.2.1

theorem State.places_applyPending {s : State} {l : Line} (hr : (s.line l).row.ok l) (c : Chan) (pt : Bool) :
    (s.applyPending l c pt).places = s.places.applyOn l c := by
  have hpending : s.places.pendingOn l c ↔ s.pendingOn l c = true := (s.pendingOn_iff l c).symm
  unfold State.applyPending
  split
  · next hp =>
    rw [Places.applyOn_of_pending (hpending.mpr hp)]
    exact State.places_applyRow (hpending.mpr hp).2 hr.nodup pt
  · next hp => exact (Places.applyOn_of_not_pending fun h => hp (hpending.mp h)).symm

/-- The rows applied at a point keep the relations (R143). -/
theorem State.places_ok_applyBoth {s : State} (h : s.places.ok) (c : Chan) (pt : Bool) :
    (s.applyBoth c pt).places.ok := by
  have hF := State.places_applyPending (h.row .F) c pt
  have hok : (s.applyPending .F c pt).places.ok := hF ▸ h.applyOn .F c
  unfold State.applyBoth
  rw [State.places_applyPending (hok.row .R)]
  exact hok.applyOn .R c

/-! ### A half released (R20 to R24) -/

/-- The places that the release of a half leaves: the channel is no longer ACTIVE and holds the line's half no more, the
line's row is lost, and the other line's row has applied. -/
def Places.released (p q : Places) (l : Line) (c : Chan) : Prop :=
  ∃ lc, lc ≠ .active ∧ (l = .R → lc ≠ .halfR) ∧ (l = .F → placeHolds (p.place c) .R → lc = .halfR)
    ∧ q = (p.left l c lc).applyOn (otherLine l) c

theorem Places.ok.not_pending_of_lifecycle {p : Places} (h : p.ok) {c : Chan} (hc : (p.place c).1 ≠ .active) (l : Line) :
    ¬p.pendingOn l c := fun hp => hc (h.active l c hp)

/-- From a half state the other line's row is not PENDING on the channel, so it does not apply. -/
theorem Places.ok.applyOn_left {p : Places} (h : p.ok) {c : Chan} (hc : (p.place c).1 ≠ .active) (l : Line)
    (lc : Lifecycle) : (p.left l c lc).applyOn (otherLine l) c = p.left l c lc :=
  Places.applyOn_of_not_pending fun hp => h.not_pending_of_lifecycle hc _ ((p.pendingOn_left l _ c c lc).mp hp).1

theorem Places.row_ok_left {p : Places} (h : p.ok) (l k : Line) (c : Chan) (lc : Lifecycle) :
    ((p.left l c lc).row k).ok k := by
  have hlost : ∀ q : Places, q.row = p.row → ((q.lose l c).row k).ok k := fun q hq => by
    unfold Places.lose
    split
    · simp only
      split
      · exact Row.empty_ok k
      · exact hq ▸ h.row k
    · exact hq ▸ h.row k
  cases l with
  | F =>
    refine hlost _ ?_
    split <;> rfl
  | R => exact hlost _ rfl

/-- From ACTIVE the F line's release leaves HALF_R, and the R row applies. -/
theorem State.places_releaseHalf_active_F {s : State} (h : s.places.ok) {c : Chan} {a : Active}
    (hl : s.life c = .active a) :
    (s.releaseHalf .F c).places = (s.places.left .F c .halfR).applyOn .R c := by
  have hplace : s.places.place c = (.active, some a.fixed.timeslot) := by rw [State.place_places, hl]; rfl
  have hleft : ∀ lf, lf.place = (.halfR, none) → (((((s.stopStreams c a).freeSlot a.fixed.timeslot).setLife c lf).record
      c .R .peerReleased).loseRow .F c).places = s.places.left .F c .halfR := fun lf hlf => by
    simp only [State.places_loseRow, State.places_record, State.places_setLife, State.freeSlot, State.places_mapSlot,
      State.places_stopStreams, Places.left, hplace, hlf]
  simp only [State.releaseHalf, hl]
  rw [State.places_applyPending, hleft _ rfl]
  rw [← State.row_places, hleft _ rfl]
  exact Places.row_ok_left h _ _ _ _

/-- From ACTIVE the R line's release leaves HALF_F, and the F row applies. -/
theorem State.places_releaseHalf_active_R {s : State} (h : s.places.ok) {c : Chan} {a : Active}
    (hl : s.life c = .active a) :
    (s.releaseHalf .R c).places = (s.places.left .R c .halfF).applyOn .F c := by
  have hplace : s.places.place c = (.active, some a.fixed.timeslot) := by rw [State.place_places, hl]; rfl
  have hleft : ∀ lf, lf.place = (.halfF, some a.fixed.timeslot) → (((((s.stopStreams c a).idleSlot
      a.fixed.timeslot).setLife c lf).record c .F .peerReleased).loseRow .R c).places = s.places.left .R c .halfF :=
    fun lf hlf => by
      simp only [State.places_loseRow, State.places_record, State.places_setLife, State.places_idleSlot,
        State.places_stopStreams, Places.left, hplace, hlf]
  simp only [State.releaseHalf, hl]
  rw [State.places_applyPending, hleft _ rfl]
  rw [← State.row_places, hleft _ rfl]
  exact Places.row_ok_left h _ _ _ _

theorem State.places_releaseHalf_halfF {s : State} {c : Chan} {x : HalfF} (hl : s.life c = .halfF x) :
    (s.releaseHalf .F c).places = s.places.left .F c .free := by
  have hplace : s.places.place c = (.halfF, some x.fixed.timeslot) := by rw [State.place_places, hl]; rfl
  rw [State.releaseHalf_of_halfF hl]
  simp only [State.places_loseRow, State.places_setLife, State.freeSlot, State.places_mapSlot,
    State.places_abortCheck hl, Places.left, hplace]
  rfl

theorem State.places_releaseHalf_halfR {s : State} {c : Chan} {x : HalfR} (hl : s.life c = .halfR x) :
    (s.releaseHalf .R c).places = s.places.left .R c .free := by
  have hplace : s.places.place c = (.halfR, none) := by rw [State.place_places, hl]; rfl
  rw [State.releaseHalf_of_halfR hl]
  simp only [State.places_loseRow, State.places_setLife, Places.left, hplace]
  rfl

/-- A line that holds its half of a channel releases it; any other changes nothing. -/
theorem State.places_releaseHalf {s : State} (h : s.places.ok) (l : Line) (c : Chan) :
    (placeHolds (s.places.place c) l ∧ s.places.released (s.releaseHalf l c).places l c)
      ∨ (¬placeHolds (s.places.place c) l ∧ s.releaseHalf l c = s) := by
  have hplace : s.places.place c = ((s.life c).lifecycle, (s.life c).fixed?.map (·.timeslot)) := rfl
  rw [hplace]
  cases hl : s.life c with
  | free =>
    refine .inr ⟨?_, by simp [State.releaseHalf, hl]⟩
    cases l <;> simp [placeHolds, Life.fixed?, Life.lifecycle]
  | halfF x =>
    rw [hl] at hplace
    cases l with
    | F =>
      refine .inl ⟨rfl, .free, by decide, by decide, fun _ hR => ?_, ?_⟩
      · rw [hplace] at hR
        rcases hR with hR | hR <;> cases hR
      · rw [h.applyOn_left (by rw [hplace]; simp [Life.lifecycle]), State.places_releaseHalf_halfF hl]
    | R => exact .inr ⟨by simp [placeHolds, Life.lifecycle], by simp [State.releaseHalf, hl]⟩
  | halfR x =>
    rw [hl] at hplace
    cases l with
    | F => exact .inr ⟨by simp [placeHolds, Life.fixed?], by simp [State.releaseHalf, hl]⟩
    | R =>
      refine .inl ⟨.inl rfl, .free, by decide, by decide, nofun, ?_⟩
      rw [h.applyOn_left (by rw [hplace]; simp [Life.lifecycle]), State.places_releaseHalf_halfR hl]
  | active a =>
    cases l with
    | F => exact .inl ⟨rfl, .halfR, by decide, nofun, fun _ _ => rfl, State.places_releaseHalf_active_F h hl⟩
    | R => exact .inl ⟨.inr rfl, .halfF, by decide, by decide, nofun, State.places_releaseHalf_active_R h hl⟩

theorem Places.released.ok {p q : Places} (hq : p.released q l c) (h : p.ok) (hc : placeHolds (p.place c) l) : q.ok := by
  obtain ⟨lc, -, -, hR, rfl⟩ := hq
  have hleft : (p.left l c lc).mapped := h.tomapped.left hc fun hl hcR => .inl (hR hl hcR)
  refine h.of_mapped (hleft.applyOn _ c) fun k d hd => ?_
  obtain ⟨hd, hother⟩ := Places.pendingOn_applyOn hd
  obtain ⟨hp, hown⟩ := (p.pendingOn_left l k c d lc).mp hd
  have hdc : d ≠ c := by cases l <;> cases k <;> simp_all [otherLine]
  refine ⟨hp, ?_⟩
  rw [Places.lifecycle_applyOn, p.lifecycle_left, if_neg hdc]

/-- After the release the channel holds the line's half no more, and every other channel holds what it held. -/
theorem Places.released.holds {p q : Places} (hq : p.released q l c) (d : Chan) :
    placeHolds (q.place d) l ↔ placeHolds (p.place d) l ∧ d ≠ c := by
  obtain ⟨lc, hactive, hhalf, -, rfl⟩ := hq
  rw [Places.holds_applyOn]
  by_cases hd : d = c
  · subst hd
    refine iff_of_false (fun hh => ?_) fun hh => hh.2 rfl
    cases l with
    | F => simp [Places.left, placeHolds, Places.setPlace] at hh
    | R =>
      have hlc := p.lifecycle_left .R d d lc
      rw [if_pos rfl] at hlc
      rcases hh with hh | hh
      · exact hhalf rfl (hlc.symm.trans hh)
      · exact hactive (hlc.symm.trans hh)
  · rw [p.place_left_ne l hd lc]
    exact (and_iff_left hd).symm

/-- A release keeps the relations. -/
theorem State.places_ok_releaseHalf {s : State} (h : s.places.ok) (l : Line) (c : Chan) :
    (s.releaseHalf l c).places.ok := by
  rcases State.places_releaseHalf h l c with ⟨hc, hq⟩ | ⟨-, heq⟩
  · exact hq.ok h hc
  · rw [heq]
    exact h

theorem State.holds_releaseHalf {s : State} (h : s.places.ok) (l : Line) (c d : Chan) :
    placeHolds ((s.releaseHalf l c).places.place d) l ↔ placeHolds (s.places.place d) l ∧ d ≠ c := by
  rcases State.places_releaseHalf h l c with ⟨-, hq⟩ | ⟨hc, heq⟩
  · exact hq.holds d
  · rw [heq]
    exact (and_iff_left_of_imp fun hd (hdc : d = c) => hc (hdc ▸ hd)).symm

/-! ### All halves of a line released (R194) -/

theorem State.foldl_releaseHalf (l : Line) (cs : List Chan) {s : State} (h : s.places.ok) :
    (cs.foldl (fun s c => s.releaseHalf l c) s).places.ok
      ∧ ∀ d, placeHolds ((cs.foldl (fun s c => s.releaseHalf l c) s).places.place d) l
        ↔ placeHolds (s.places.place d) l ∧ d ∉ cs := by
  induction cs generalizing s with
  | nil => exact ⟨h, fun d => by simp⟩
  | cons c cs ih =>
    obtain ⟨hok, hholds⟩ := ih (State.places_ok_releaseHalf h l c)
    refine ⟨hok, fun d => ?_⟩
    rw [List.foldl_cons, hholds, State.holds_releaseHalf h]
    simp [and_assoc]

/-- A row is latched to no channel where none holds the line's half. -/
theorem Places.ok.row_eq_empty {p : Places} (h : p.ok) {l : Line} (hn : ∀ d, ¬placeHolds (p.place d) l) :
    p.row l = .empty := by
  have hrow := h.row l
  have hlatched : (p.row l).latched = none := Option.eq_none_iff_forall_not_mem.mpr fun d hd => hn d (h.held l d hd)
  unfold Row.ok at hrow
  rw [hlatched] at hrow
  obtain ⟨hslots, hpending⟩ := hrow
  cases hr : p.row l with
  | mk latched slots pending =>
    simp only [hr] at hlatched hslots hpending
    rw [hlatched, hslots, hpending]
    rfl

theorem Places.setRow_of_eq {p : Places} {l : Line} {r : Row} (h : p.row l = r) : p.setRow l r = p :=
  Places.ext (funext fun k => by
    simp only [Places.setRow]
    split
    · next hk => rw [hk, h]
    · rfl) rfl rfl

/-- The release of all halves that a silent line holds leaves its row EMPTY already. -/
theorem State.places_ok_watchdogRelease {s : State} (h : s.places.ok) (l : Line) : (s.watchdogRelease l).places.ok := by
  obtain ⟨hok, hholds⟩ := State.foldl_releaseHalf l (List.finRange 128) (s := s.severAll) (by simpa using h)
  have hrow := hok.row_eq_empty fun d hd => ((hholds d).mp hd).2 (List.mem_finRange d)
  unfold State.watchdogRelease
  rw [State.places_mapLine, Places.setRow_of_eq hrow]
  exact hok

end Sys2Proof.Machine
end

section
/-! SUPPORT. Every order and every command keeps the relations of the staging rows and of the timeslot map; the statement
about every step. -/

namespace Sys2Proof.Machine

/-! ### The part at rest -/

/-- No row latched, no timeslot taken, no half present. -/
structure Places.atRest (p : Places) : Prop where
  row   : ∀ l, p.row l = .empty
  entry : ∀ x, p.entry x = .free
  place : ∀ c, p.place c = (.free, none)

theorem Places.atRest.ok {p : Places} (h : p.atRest) : p.ok := by
  obtain ⟨hrow, hentry, hplace⟩ := h
  have hpending : ∀ l c, ¬p.pendingOn l c := fun l c hp => by
    have := hp.1
    rw [hrow l] at this
    cases this
  refine ⟨⟨fun l => hrow l ▸ Row.empty_ok l, fun l c hc => ?_, fun x c => ?_, fun x c => ?_⟩,
    fun l c hp => absurd hp (hpending l c)⟩
  · rw [hrow l] at hc
    cases hc
  · rw [hentry, hplace]
    simp
  · rw [hentry]
    exact iff_of_false (by simp) fun hx => hpending _ c hx.1

theorem State.places_powerOn_atRest (s : State) : s.powerOn.places.atRest := by
  refine ⟨fun l => by cases l <;> rfl, fun x => ?_, fun c => ?_⟩
  · exact congrArg Timeslot.entry (State.slot_reset x)
  · exact congrArg Life.place (State.life_reset c)

/-- A restart leaves no half, no row and no timeslot taken (R198). -/
theorem State.places_restarted_atRest (s : State) (cause : RestartCause) : (s.restarted cause).places.atRest := by
  have hlife : ∀ c, (s.restarted cause).life c = .free := fun c => by
    rw [State.life_def, State.chan, State.restarted, Vector.getElem_replicate]
    rfl
  refine ⟨fun l => by cases l <;> rfl, fun x => ?_, fun c => ?_⟩
  · rw [State.entry_places, State.slot, State.restarted, Vector.getElem_map]
  · rw [State.place_places, hlife]
    rfl

/-! ### A staged item in a row (R140) -/

/-- The items of a row with one staged over: in its place, or at the end. -/
theorem map_fst_placeItem (i : Item) (v : BitVec 16) (slots : List (Item × BitVec 16)) :
    (placeItem i v slots).map (·.1)
      = if i ∈ slots.map (·.1) then slots.map (·.1) else slots.map (·.1) ++ [i] := by
  have hmem : (slots.any fun p => decide (p.1 = i)) = true ↔ i ∈ slots.map (·.1) := by
    simp only [List.any_eq_true, decide_eq_true_eq, List.mem_map]
  unfold placeItem
  by_cases hi : i ∈ slots.map (·.1)
  · rw [if_pos (hmem.mpr hi), if_pos hi, List.map_map]
    refine List.map_congr_left fun p _ => ?_
    simp only [Function.comp_apply]
    split
    · next hp => exact hp.symm
    · rfl
  · rw [if_neg fun h => hi (hmem.mp h), if_neg hi, List.map_append]
    rfl

/-- A row with one item of its line staged is well formed. -/
theorem Row.ok.staged {r : Row} {l : Line} (h : r.ok l) {i : Item} (hi : i.line = l) (c : Chan) (v : BitVec 16) :
    ({ r with latched := some c, slots := placeItem i v r.slots } : Row).ok l := by
  have hfst := map_fst_placeItem i v r.slots
  have hline : ∀ j ∈ r.slots.map (·.1), j.line = l := by
    unfold Row.ok at h
    split at h
    · rw [h.1]
      exact nofun
    · exact fun j hj => by
        obtain ⟨p, hp, rfl⟩ := List.mem_map.mp hj
        exact h.2.2 p hp
  refine ⟨fun hnil => ?_, ?_, fun p hp => ?_⟩
  · rw [show (placeItem i v r.slots) = [] from hnil] at hfst
    split at hfst
    · next hmem =>
      rw [← hfst] at hmem
      cases hmem
    · exact List.append_ne_nil_of_right_ne_nil _ (List.cons_ne_nil _ _) hfst.symm
  · rw [hfst]
    split
    · exact h.nodup
    · next hmem => exact List.nodup_append.mpr ⟨h.nodup, List.nodup_singleton i, by grind⟩
  · have hp' : p.1 ∈ (placeItem i v r.slots).map (·.1) := List.mem_map_of_mem hp
    rw [hfst] at hp'
    split at hp'
    · exact hline _ hp'
    · rcases List.mem_append.mp hp' with hp' | hp'
      · exact hline _ hp'
      · rw [List.mem_singleton.mp hp', hi]

/-! ### What orders leave of the places -/

theorem Places.setPlace_of_eq {p : Places} {c : Chan} {q : Lifecycle × Option Slot} (h : p.place c = q) :
    p.setPlace c q = p :=
  Places.ext rfl rfl (funext fun d => by
    simp only [Places.setPlace]
    split
    · next hd => rw [hd, h]
    · rfl)

theorem Places.setEntry_of_eq {p : Places} {x : Slot} {e : Entry} (h : p.entry x = e) : p.setEntry x e = p :=
  Places.ext rfl (funext fun y => by
    simp only [Places.setEntry]
    split
    · next hy => rw [hy, h]
    · rfl) rfl

/-- A check goes into its HALF_F context and into the source of its timeslot alone (R168). -/
theorem State.places_startCheck {s : State} {c : Chan} {x : HalfF} (hl : s.life c = .halfF x) :
    (s.startCheck c x).places = s.places := by
  unfold State.startCheck
  rw [State.places_mapSlot_keeps, State.places_mapChan]
  case h => exact fun _ => rfl
  refine Places.setPlace_of_eq ?_
  rw [State.place_places, hl]
  rfl

theorem State.places_joinSplice {s : State} {c : Chan} {a : Active}
    (hc : s.places.place c = (.active, some a.fixed.timeslot)) (partner : Chan) :
    (s.joinSplice c a partner).places = s.places := by
  rw [State.joinSplice, State.places_idleSlot]
  exact s.places_setLife_keeps c hc.symm

theorem State.places_reserveFor (s : State) (row : Row) (c : Chan) :
    (s.reserveFor row c).places = s.places.reserve row.timeslot? c := by
  unfold State.reserveFor Places.reserve
  cases row.timeslot? with
  | none => rfl
  | some x =>
    simp only [State.reserve, State.places_mapSlot]
    by_cases hx : s.places.entry x = .free
    · rw [if_pos hx, if_pos (show (s.slot x).entry = .free from hx)]
    · rw [if_neg hx, if_neg (show ¬(s.slot x).entry = .free from hx)]
      exact Places.setEntry_of_eq rfl

@[simp] theorem State.line_reserveFor (s : State) (row : Row) (c : Chan) (l : Line) :
    (s.reserveFor row c).line l = s.line l := by
  unfold State.reserveFor
  split
  · exact s.line_reserve _ c l
  · rfl

/-- A move and a change of a row do not see each other. -/
theorem Places.move_setRow (p : Places) (l : Line) (r : Row) (c : Chan) (x : Option Slot) :
    (p.setRow l r).move c x = (p.move c x).setRow l r := by
  cases hold : (p.place c).2 with
  | none => simp [Places.move, Places.setRow, hold]
  | some old =>
    cases x with
    | none => rw [Places.move_none, Places.move_none]
    | some y =>
      by_cases hy : old = y
      · rw [Places.move_own (p := p) (hy ▸ hold), Places.move_own (p := p.setRow l r) (hy ▸ hold)]
      · rw [Places.move_new hold hy, Places.move_new (p := p.setRow l r) hold hy]
        rfl

theorem Places.setRow_setRow (p : Places) (l : Line) (r q : Row) : (p.setRow l r).setRow l q = p.setRow l q :=
  Places.ext (funext fun k => by simp only [Places.setRow]; split <;> rfl) rfl rfl

/-- A row committed on an ACTIVE channel waits PENDING (R141). -/
theorem Places.ok.commit_active {p : Places} (h : p.ok) {l : Line} {c : Chan} (hc : (p.row l).latched = some c)
    (hp : (p.row l).pending = false)
    (hfree : ∀ x, (p.row l).timeslot? = some x → (p.entry x).takenFrom c = false) (ha : (p.place c).1 = .active) :
    ((p.reserve (p.row l).timeslot? c).setRow l { p.row l with pending := true }).ok := by
  refine ⟨h.commit hc hp hfree, fun k d hd => ?_⟩
  show (((p.reserve (p.row l).timeslot? c)).place d).1 = _
  rw [Places.place_reserve]
  by_cases hk : k = l
  · have hd' : (p.row l).latched = some d := by simpa [hk, Places.setRow] using hd.2
    cases hc.symm.trans hd'
    exact ha
  · refine h.active k d ?_
    simpa [Places.pendingOn, Places.setRow, hk] using hd

/-- A row committed on a channel in a half state applies at once (R141). -/
theorem Places.ok.commit_applied {p : Places} (h : p.ok) {l : Line} {c : Chan} (hc : (p.row l).latched = some c)
    (hp : (p.row l).pending = false)
    (hfree : ∀ x, (p.row l).timeslot? = some x → (p.entry x).takenFrom c = false) :
    (((p.reserve (p.row l).timeslot? c).move c (p.row l).timeslot?).setRow l .empty).ok := by
  have happlied := (h.commit hc hp hfree).apply (l := l) (c := c) (by simpa [Places.pendingOn, Places.setRow] using hc)
  have htimeslot : (((p.reserve (p.row l).timeslot? c).setRow l { p.row l with pending := true }).row l).timeslot?
      = (p.row l).timeslot? := by
    simp [Places.setRow, Row.timeslot?]
  rw [htimeslot, Places.move_setRow, Places.setRow_setRow] at happlied
  refine h.of_mapped happlied fun k d hd => ?_
  rw [Places.pendingOn_setRow_empty] at hd
  simp only [Places.pendingOn, Places.row_move, Places.row_reserve] at hd
  exact ⟨hd.1, by simp [Places.setRow]⟩

section Orders

variable {s : State} (h : s.places.ok)
include h

theorem State.places_ok_of_eq {t : State} (hr : ∀ l, (t.line l).row = (s.line l).row)
    (he : ∀ x, (t.slot x).entry = (s.slot x).entry) (hp : ∀ c, (t.life c).place = (s.life c).place) : t.places.ok := by
  rw [State.places_eq_of hr he hp]
  exact h

theorem State.places_ok_mapLine (l : Line) {f : LineUnit → LineUnit} (hf : ∀ u, (f u).row = u.row) :
    (s.mapLine l f).places.ok := by
  rw [State.places_mapLine_keeps s l hf]
  exact h

/-! ### Taking an order -/

theorem State.places_ok_carryOut (o : Order) (owned : Bool) {body : State → Effect} (hbody : (body s).state.places.ok) :
    (carryOut o owned body s).state.places.ok := by
  unfold Machine.carryOut
  split
  · exact h
  · split
    · exact h
    · exact hbody

/-- An order keeps the relations where its verb does, whoever it is for. -/
theorem State.places_ok_takeOrder (o : Order) (owned broadcast : Bool) (ch : State → BitVec 7)
    {body : State → Effect} (hbody : ∀ {t : State}, t.places.ok → (body t).state.places.ok) :
    (takeOrder o owned broadcast ch body s).places.ok := by
  have htouch : (s.touch o.line).places.ok := by simpa using h
  have hcarried := State.places_ok_carryOut htouch o owned (hbody htouch)
  unfold Machine.takeOrder
  split
  · exact h
  · split
    · refine State.places_ok_mapLine ?_ _ fun _ => rfl
      split
      · exact hcarried
      · exact htouch
    · split
      · simpa using hcarried
      · exact State.places_ok_mapLine h _ fun _ => rfl

/-! ### The orders on channels -/

theorem State.places_ok_bindEffect (c : Chan) (x : Slot) (p : Fin 8) (tag : BitVec 14) :
    (bindEffect c x p tag s).state.places.ok := by
  unfold Machine.bindEffect
  dsimp only
  split
  · exact h
  · exact h
  · next hl =>
    split
    · exact h
    · next hx =>
      split
      · exact h
      · show (s.bindFree c x _ tag).places.ok
        have hplace : s.places.place c = (.free, none) := by rw [State.place_places, hl]; rfl
        simp only [State.bindFree, State.bindSlot, State.places_mapChan, State.places_mapSlot]
        refine h.bind (by rw [hplace]) (by rw [hplace]; simp) (not_not.mp hx) fun hR => ?_
        rw [hplace] at hR
        rcases hR with hR | hR <;> cases hR
  · next half hl =>
    split
    · exact h
    · split
      · exact h
      · next hx =>
        split
        · exact h
        · show (s.bindHalfR c x _ half).places.ok
          have hplace : s.places.place c = (.halfR, none) := by rw [State.place_places, hl]; rfl
          simp only [State.bindHalfR, State.bindSlot, State.places_settle, State.places_record, State.places_setLife,
            State.places_mapSlot]
          exact h.bind (by rw [hplace]) (by rw [hplace]; simp) (not_not.mp hx) fun _ => .inr rfl

theorem State.places_ok_attachEffect (c : Chan) (modeSet : BitVec 3) (requested : BitVec 2) (tag : BitVec 14) :
    (attachEffect c modeSet requested tag s).state.places.ok := by
  unfold Machine.attachEffect
  dsimp only
  split
  · exact h
  · exact h
  · exact h
  · next hl _ =>
    split
    · exact h
    · show (s.attachFree c _ tag).places.ok
      have hplace : s.places.place c = (.free, none) := by rw [State.place_places, hl]; rfl
      have hattach := h.attach (c := c) (lc := .halfR) (by rw [hplace]; simp) (.inl rfl)
      rw [hplace] at hattach
      rw [State.attachFree, State.places_mapChan]
      exact hattach
  · next x _ hl _ =>
    split
    · exact h
    · split
      · exact h
      · show (s.attachHalfF c _ x).places.ok
        have hplace : s.places.place c = (.halfF, some x.fixed.timeslot) := by rw [State.place_places, hl]; rfl
        have hattach := h.attach (c := c) (lc := .active) (by rw [hplace]; simp) (.inr rfl)
        rw [hplace] at hattach
        simp only [State.attachHalfF, State.places_settle, State.places_record, State.places_setLife,
          State.places_abortCheck hl]
        exact hattach

theorem State.places_ok_releaseEffect (l : Line) (c : Chan) : (releaseEffect l c s).state.places.ok := by
  unfold Machine.releaseEffect
  split
  · rw [State.done, State.places_settle]
    exact State.places_ok_releaseHalf h l c
  · exact h

theorem State.places_ok_handoverEffect (c : Chan) : (handoverEffect c s).state.places.ok := by
  unfold Machine.handoverEffect
  split
  · simpa [State.done, State.primeAnew] using h
  · exact h

theorem State.places_ok_checkEffect (c : Chan) : (checkEffect c s).state.places.ok := by
  unfold Machine.checkEffect
  split
  · next x hl =>
    split
    · exact h
    · split
      · exact h
      · show (s.startCheck c x).places.ok
        rw [State.places_startCheck hl]
        exact h
  · exact h

theorem State.places_ok_spliceEffect (a b : Chan) : (spliceEffect a b s).state.places.ok := by
  unfold Machine.spliceEffect
  split
  · next x y hx hy =>
    split
    · exact h
    · show ((s.joinSplice a x b).joinSplice b y a).places.ok
      have ha : (s.joinSplice a x b).places = s.places :=
        State.places_joinSplice (by rw [State.place_places, hx]; rfl) b
      rw [State.places_joinSplice (by rw [ha, State.place_places, hy]; rfl), ha]
      exact h
  · exact h

theorem State.places_ok_unspliceEffect (c : Chan) : (unspliceEffect c s).state.places.ok := by
  unfold Machine.unspliceEffect
  split
  · simpa [State.done] using h
  · exact h

/-! ### Staging orders -/

theorem State.places_ok_stageEffect (l : Line) (c : Chan) (i : Item) (v : BitVec 16) :
    (stageEffect l c i v s).state.places.ok := by
  have hstage : i.line = l → (s.line l).row.pending = false → (s.life c).holds l = true →
      ∀ w, (s.stageInto l c i w).places.ok := fun hi hp hc w => by
    rw [State.stageInto, State.places_mapLine]
    refine h.setRow hp ((h.row l).staged hi c w) hp fun d hd => ?_
    cases hd
    exact (Life.placeHolds_iff _ l).mpr hc
  unfold Machine.stageEffect
  dsimp only
  split
  · exact h
  · next hi =>
    split
    · exact h
    · next hp =>
      split
      · exact h
      · next hc =>
        split
        · exact h
        · split
          · exact h
          · split
            · exact h
            · exact hstage (not_not.mp hi) (Bool.eq_false_iff.mpr hp) (by simpa using hc) _

theorem State.places_ok_commitEffect (l : Line) : (commitEffect l s).state.places.ok := by
  unfold Machine.commitEffect
  dsimp only
  split
  · exact h
  · next c hc =>
    split
    · exact h
    · next hp =>
      have hpending := Bool.eq_false_iff.mpr hp
      split
      · exact h
      · next htaken =>
        have hfree : ∀ x, (s.line l).row.timeslot? = some x → (s.places.entry x).takenFrom c = false := fun x hx => by
          simpa [hx, State.slotTaken] using htaken
        have hrow : (s.reserveFor (s.line l).row c).line l = s.line l := State.line_reserveFor _ _ _ _
        split
        · next ha =>
          show ((s.reserveFor (s.line l).row c).mapLine l fun u =>
            { u with row := { u.row with pending := true } }).places.ok
          rw [State.places_mapLine, State.places_reserveFor, hrow]
          exact h.commit_active hc hpending hfree ha
        · show ((s.reserveFor (s.line l).row c).applyRow l false).settle.places.ok
          rw [State.places_settle, State.places_applyRow (by rw [hrow]; exact hc) (by rw [hrow]; exact (h.row l).nodup),
            State.places_reserveFor, hrow]
          exact h.commit_applied hc hpending hfree

theorem State.places_ok_cancelEffect (l : Line) : (cancelEffect l s).state.places.ok := by
  unfold Machine.cancelEffect
  split
  · exact h
  · next hp =>
    show (s.mapLine l fun u => { u with row := .empty }).places.ok
    rw [State.places_mapLine]
    exact h.setRow (Bool.eq_false_iff.mpr hp) (Row.empty_ok l) rfl nofun

/-! ### Orders that read, clear and write -/

theorem State.places_ok_readChannelEffect (l : Line) (c : Chan) (aspect : Fin 16) :
    (readChannelEffect l c aspect s).state.places.ok := by
  unfold Machine.readChannelEffect
  dsimp only
  split
  · show (s.reportRead l c).places.ok
    rw [State.reportRead, State.places_mapActive]
    · exact h
    · intro a
      cases l <;> rfl
  · split
    · exact h
    · split <;> exact h

theorem State.places_ok_clearEventsEffect (l : Line) (c : Chan) (kinds : BitVec 9) :
    (clearEventsEffect l c kinds s).state.places.ok := by
  simp only [Machine.clearEventsEffect, State.places_settle]
  rw [State.places_mapChan_keeps]
  · exact h
  · intro ch
    cases l <;> rfl

theorem State.places_ok_clearLineEventsEffect (l : Line) (kinds : BitVec 5) :
    (clearLineEventsEffect l kinds s).state.places.ok := by
  unfold Machine.clearLineEventsEffect
  dsimp only
  exact State.places_ok_mapLine h l fun _ => rfl

theorem State.places_ok_selectItemEffect (l : Line) (sp : Space) (index : Fin 128) :
    (selectItemEffect l sp index s).state.places.ok := by
  unfold Machine.selectItemEffect
  split
  · exact h
  · dsimp only
    exact State.places_ok_mapLine h l fun _ => rfl

theorem State.places_ok_stored (l : Line) (clamped : Bool) (v : Nat) : (s.stored l clamped v).state.places.ok := by
  simpa [State.stored] using h

theorem State.places_ok_writeItemEffect (l : Line) (v : BitVec 16) : (writeItemEffect l v s).state.places.ok := by
  have hpattern : ∀ (pattern : Vector Octet 16) (mask : BitVec 16),
      ({ s with pattern := pattern, mask := mask } : State).places.ok := fun _ _ => h
  have hsettings : ∀ f, (s.setSettings l f).places.ok := fun f => by simpa using h
  unfold Machine.writeItemEffect State.writeAt
  split
  · exact h
  · split
    · unfold State.writeProfile
      refine State.places_ok_stored ?_ l _ _
      exact h
    · unfold State.writePattern
      dsimp only
      split
      · exact h
      · split
        · exact State.places_ok_stored (hpattern _ s.mask) l _ _
        · exact State.places_ok_stored (hpattern s.pattern _) l _ _
    · unfold State.writeSetting
      split
      · refine State.places_ok_stored ?_ l _ _
        exact State.places_ok_mapLine (hsettings _) l fun _ => rfl
      · split
        · exact State.places_ok_stored (hsettings _) l _ _
        · exact h
      · exact State.places_ok_stored (hsettings _) l _ _
      · exact State.places_ok_stored (hsettings _) l _ _
    · exact h

/-! ### Service orders and the restart request -/

theorem State.places_ok_engineInEffect (e : Fin 4) : (engineInEffect e s).state.places.ok := by
  have hin : ({ s with engines := s.engines.set e.val (s.engines[e.val]).serviceIn } : State).places.ok := h
  unfold Machine.engineInEffect
  show (State.arbitrate _).places.ok
  rw [State.places_arbitrate]
  exact hin

theorem State.places_ok_restartEffect (l : Line) : (restartEffect l s).state.places.ok := by
  unfold Machine.restartEffect
  dsimp only
  split
  · exact h
  · split
    · exact h
    · rw [State.places_recordLine]
      exact State.places_ok_mapLine h l fun _ => rfl

end Orders

/-! ### Timers and events that are due or not -/

section Commands

variable {s : State} (h : s.places.ok)
include h

theorem State.places_ok_halfWaitExpiry (c : Chan) : (s.halfWaitExpiry c).places.ok := by
  unfold State.halfWaitExpiry
  split
  · next l _ =>
    rw [State.places_settle, State.places_record]
    exact State.places_ok_releaseHalf h l c
  · exact h

theorem State.places_ok_watchdogExpiry (l : Line) : (s.watchdogExpiry l).places.ok := by
  have hsilent : ((s.mapLine l fun u => { u with silent := true, expiry := none }).recordLine (otherLine l)
      .partnerSilent).places.ok := by
    rw [State.places_recordLine]
    exact State.places_ok_mapLine h l fun _ => rfl
  unfold State.watchdogExpiry
  dsimp only
  rw [State.places_settle]
  split
  · exact State.places_ok_watchdogRelease hsilent l
  · exact hsilent

/-- The rows apply before the boundary and before the instant, which leave the places (R143). -/
theorem State.places_ok_takeBoundary (c : Chan) : (s.takeBoundary c).places.ok := by
  have hrows := State.places_ok_applyBoth h c true
  unfold State.takeBoundary
  dsimp only
  split
  · next a ha =>
    rw [State.places_settle, State.places_boundary ha]
    exact hrows
  · simpa using hrows

theorem State.places_ok_takeInstant (c : Chan) : (s.takeInstant c).places.ok := by
  have hrows := fun b => State.places_ok_applyBoth h b true
  unfold State.takeInstant
  split
  · split
    · simpa using h
    · dsimp only
      split
      · simpa using hrows _
      · simpa using hrows _
  · exact h

/-- An event that is not due leaves the state as it is (log 3). -/
theorem State.places_ok_ifDue {t : State} (ht : t.places.ok) (p : Prop) [Decidable p] :
    (if p then t else s).places.ok := by
  split
  · exact ht
  · exact h

theorem State.places_ok_spoil (l : Line) : (s.spoil l).places.ok := by
  refine State.places_ok_ifDue h ?_ _
  exact State.places_ok_mapLine h l fun _ => rfl

theorem State.places_ok_noReply (l : Line) : (s.noReply l).places.ok := by
  refine State.places_ok_ifDue h ?_ _
  exact State.places_ok_mapLine h l fun _ => rfl

theorem State.places_ok_continuityTimeout {c : Chan} {x : HalfF} (hl : s.life c = .halfF x) (y : HalfF) (k : Continuity)
    (hy : y.fixed = x.fixed) :
    ((s.mapChan c fun ch => { ch with life := .halfF y, continuity := k }).record c .F .continuityDone).settle.places.ok := by
  rw [State.places_settle, State.places_record, State.places_mapChan, Places.setPlace_of_eq]
  · exact h
  · rw [State.place_places, hl]
    simp [Life.place, Life.lifecycle, Life.fixed?, hy]

end Commands

/-- A command leaves a next state, with the rows and the map in step where they were. -/
theorem State.places_ok_exec {s : State} (h : s.places.ok) (i : Instr) : ∃ t, exec i s = .next t ∧ t.places.ok := by
  cases i with
  | powerOn => exact ⟨_, rfl, s.places_powerOn_atRest.ok⟩
  | resetLow => exact ⟨_, rfl, s.places_powerOn_atRest.ok⟩
  | resetRise =>
    refine ⟨_, rfl, State.places_ok_ifDue h ?_ _⟩
    exact s.places_powerOn_atRest.ok
  | ready strapF strapR =>
    refine ⟨_, rfl, State.places_ok_ifDue h ?_ _⟩
    exact State.places_ok_of_eq h (fun l => by cases l <;> rfl) (fun _ => rfl) fun _ => rfl
  | frameSync incoming =>
    refine ⟨_, rfl, ?_⟩
    split
    · exact h
    · refine State.places_ok_ifDue h ?_ _
      exact h
    · exact State.places_ok_ifDue h (by simpa using h) _
  | continuityTimeout c =>
    refine ⟨_, rfl, ?_⟩
    split
    · next x hl =>
      refine State.places_ok_ifDue h ?_ _
      exact State.places_ok_continuityTimeout h hl { x with check := none } _ rfl
    · exact h
  | downlinkBoundary c => exact ⟨_, rfl, State.places_ok_ifDue h (State.places_ok_takeBoundary h c) _⟩
  | playoutInstant c => exact ⟨_, rfl, State.places_ok_ifDue h (State.places_ok_takeInstant h c) _⟩
  | windowStartDeadline c =>
    refine ⟨_, rfl, ?_⟩
    split
    · exact State.places_ok_ifDue h (by simpa using h) _
    · exact h
  | jobStartDeadline c kind =>
    refine ⟨_, rfl, ?_⟩
    cases kind with
    | encode => exact (s.places_encodeDeadline c).symm ▸ h
    | decode => exact (s.places_decodeDeadline c).symm ▸ h
  | jobCompletion e =>
    refine ⟨_, rfl, ?_⟩
    split
    · next j ends _ _ =>
      refine State.places_ok_ifDue h ?_ _
      rw [State.places_complete]
      exact h
    · exact h
  | recordArrival octets =>
    refine ⟨_, rfl, State.places_ok_ifDue h ?_ _⟩
    rw [State.places_arrival]
    exact h
  | recordTransmitted =>
    refine ⟨_, rfl, ?_⟩
    split
    · refine State.places_ok_ifDue h ?_ _
      rw [State.places_startTransmit]
      exact h
    · exact h
  | halfWaitExpiry c => exact ⟨_, rfl, State.places_ok_ifDue h (State.places_ok_halfWaitExpiry h c) _⟩
  | watchdogExpiry l => exact ⟨_, rfl, State.places_ok_ifDue h (State.places_ok_watchdogExpiry h l) _⟩
  | restartLapse l =>
    refine ⟨_, rfl, State.places_ok_ifDue h ?_ _⟩
    rw [State.places_recordLine]
    exact State.places_ok_mapLine h l fun _ => rfl
  | earlySelectRise l => exact ⟨_, rfl, State.places_ok_noReply (State.places_ok_spoil h l) l⟩
  | orderCrcMismatch l => exact ⟨_, rfl, State.places_ok_noReply (State.places_ok_spoil h l) l⟩
  | extraClock l => exact ⟨_, rfl, State.places_ok_spoil h l⟩
  | nop o => exact ⟨_, rfl, State.places_ok_takeOrder h o _ _ _ fun ht => ht⟩
  | bind o x p tag =>
    exact ⟨_, rfl, State.places_ok_takeOrder h o _ _ _ fun ht => State.places_ok_bindEffect ht _ x p tag⟩
  | attach o modeSet requested tag =>
    exact ⟨_, rfl, State.places_ok_takeOrder h o _ _ _ fun ht => State.places_ok_attachEffect ht _ modeSet requested tag⟩
  | release o => exact ⟨_, rfl, State.places_ok_takeOrder h o _ _ _ fun ht => State.places_ok_releaseEffect ht _ _⟩
  | handover o => exact ⟨_, rfl, State.places_ok_takeOrder h o _ _ _ fun ht => State.places_ok_handoverEffect ht _⟩
  | check o => exact ⟨_, rfl, State.places_ok_takeOrder h o _ _ _ fun ht => State.places_ok_checkEffect ht _⟩
  | splice o partner =>
    exact ⟨_, rfl, State.places_ok_takeOrder h o _ _ _ fun ht => State.places_ok_spliceEffect ht _ partner⟩
  | unsplice o => exact ⟨_, rfl, State.places_ok_takeOrder h o _ _ _ fun ht => State.places_ok_unspliceEffect ht _⟩
  | stage o item v =>
    exact ⟨_, rfl, State.places_ok_takeOrder h o _ _ _ fun ht => State.places_ok_stageEffect ht _ _ item v⟩
  | commit o => exact ⟨_, rfl, State.places_ok_takeOrder h o _ _ _ fun ht => State.places_ok_commitEffect ht _⟩
  | cancel o => exact ⟨_, rfl, State.places_ok_takeOrder h o _ _ _ fun ht => State.places_ok_cancelEffect ht _⟩
  | readChannel o aspect =>
    exact ⟨_, rfl, State.places_ok_takeOrder h o _ _ _ fun ht => State.places_ok_readChannelEffect ht _ _ aspect⟩
  | nextEvent o => exact ⟨_, rfl, State.places_ok_takeOrder h o _ _ _ fun ht => ht⟩
  | clearEvents o kinds =>
    exact ⟨_, rfl, State.places_ok_takeOrder h o _ _ _ fun ht => State.places_ok_clearEventsEffect ht _ _ kinds⟩
  | clearLineEvents o kinds =>
    exact ⟨_, rfl, State.places_ok_takeOrder h o _ _ _ fun ht => State.places_ok_clearLineEventsEffect ht _ kinds⟩
  | selectItem o sp index =>
    exact ⟨_, rfl, State.places_ok_takeOrder h o _ _ _ fun ht => State.places_ok_selectItemEffect ht _ sp index⟩
  | readItem o =>
    refine ⟨_, rfl, State.places_ok_takeOrder h o _ _ _ fun {t} ht => ?_⟩
    exact (t.places_advancePointer o.line).symm ▸ ht
  | writeItem o v =>
    exact ⟨_, rfl, State.places_ok_takeOrder h o _ _ _ fun ht => State.places_ok_writeItemEffect ht _ v⟩
  | engineServiceOut o e => exact ⟨_, rfl, State.places_ok_takeOrder h o _ _ _ fun ht => ht⟩
  | engineServiceIn o e =>
    exact ⟨_, rfl, State.places_ok_takeOrder h o _ _ _ fun ht => State.places_ok_engineInEffect ht e⟩
  | restart o => exact ⟨_, rfl, State.places_ok_takeOrder h o _ _ _ fun ht => State.places_ok_restartEffect ht _⟩
  | restartExecution =>
    refine ⟨_, rfl, ?_⟩
    split
    · exact (s.places_restarted_atRest _).ok
    · exact h
  | recordStart =>
    refine ⟨_, rfl, State.places_ok_ifDue h ?_ _⟩
    exact h
  | unknownVerb o code => exact ⟨_, rfl, State.places_ok_takeOrder h o _ _ _ fun ht => ht⟩

/-- A step is a command on the state with the rest of the queue, or one core clock (log 1). -/
theorem State.places_ok_step {s : State} (h : s.places.ok) : ∃ t, step s = .next t ∧ t.places.ok := by
  unfold Machine.step State.front
  cases s.pending with
  | nil =>
    refine ⟨_, rfl, State.places_ok_ifDue h ?_ _⟩
    exact h
  | cons i rest => exact State.places_ok_exec (s := { s with pending := rest }) h i

/-- Settles O59: the rows and the map see the places of a state alone, which every command keeps in step. -/
theorem stepKeepsRowsAndMap : Obligations.StepKeepsRowsAndMap := by
  intro s t hrows hmap hstep
  obtain ⟨u, hu, hok⟩ := State.places_ok_step (s.places_ok_iff.mpr ⟨hrows, hmap⟩)
  rw [hstep] at hu
  cases hu
  exact t.places_ok_iff.mp hok

end Sys2Proof.Machine
end

section
/-! SUPPORT. The frame syncs: those counted in the start-up wait, and what one of a READY part makes of the contexts, of the
timeslots and of the Line Units. -/

namespace Sys2Proof.Machine

/-! ### The start-up wait (R50) -/

/-- Settles O3: both commands by their condition on the count. -/
theorem startUpWaitEndsInReady : Obligations.StartUpWaitEndsInReady := by
  constructor
  · intro incoming n s hrun hn
    have hcounted : n + 1 < Config.startUpSyncs := Nat.succ_lt_succ hn
    have hexec : exec (.frameSync incoming) s = .next { s.beginSampleTime with run := .waiting (n + 1) } := by
      show execFrameSync incoming s = _
      simp only [execFrameSync, hrun, if_pos hcounted]
    exact ⟨_, hexec, rfl, rfl⟩
  · intro strapF strapR s hrun
    refine ⟨_, congrArg Host.Outcome.next (if_pos hrun), ?_⟩
    exact ⟨rfl, rfl, rfl, rfl, rfl, rfl, rfl, rfl, rfl, rfl, rfl, rfl, rfl, rfl, rfl, rfl, rfl, rfl, rfl⟩

/-! ### A frame sync of a READY part (R48, R49) -/

theorem exec_frameSync_ready {s : State} {incoming : Vector Octet 128} (hrun : s.run = .ready)
    (hpoints : s.outstanding = false) (hends : s.nothingEndsBefore s.syncMoment = true) :
    exec (.frameSync incoming) s = .next (s.frameSync incoming) := by
  show execFrameSync incoming s = _
  simp [execFrameSync, hrun, hpoints, hends]

theorem State.chan_frameSync (s : State) (incoming : Vector Octet 128) (c : Chan) :
    (s.frameSync incoming).chan c = (s.chan c).onSync s incoming := by
  simp only [State.frameSync, State.chan_settle]
  exact Vector.getElem_map _ _

theorem State.slot_frameSync (s : State) (incoming : Vector Octet 128) (x : Slot) :
    (s.frameSync incoming).slot x = (s.slot x).onSync := by
  simp only [State.frameSync, State.slot_settle]
  exact Vector.getElem_map _ _

theorem State.line_frameSync (s : State) (incoming : Vector Octet 128) (l : Line) :
    (s.frameSync incoming).line l
      = { (s.line l).onSync s.syncMoment with events := ((s.frameSync incoming).line l).events } := by
  simp only [State.frameSync, State.line_settle]
  cases l <;> rfl

/-! ### The contexts and the timeslots at a frame sync (R54, R55, R60 to R62) -/

/-- The octet of the feed goes to the ring of a channel that collects, or that entered ACTIVE at this moment unspliced. -/
theorem Channel.onSync_of_active {s : State} {incoming : Vector Octet 128} {ch : Channel} {a : Active}
    (h : ch.life = .active a) :
    ch.onSync s incoming = { ch with life := .active { a with
      fixed := { a.fixed with feed := a.fixed.timeslot }
      down := { a.down with
        ring :=
          if a.down.collecting = true ∨ (a.down.entryClock = s.syncMoment ∧ a.partner = none) then
            a.down.ring.drop 1 ++ [Speech.expand incoming[a.fixed.feed.val]]
          else a.down.ring
        collecting := decide (a.partner = none) } } } := by
  have hcollects : s.collects a = true
      ↔ a.down.collecting = true ∨ (a.down.entryClock = s.syncMoment ∧ a.partner = none) := by
    simp [State.collects]
  simp only [Channel.onSync, h, hcollects]
  rfl

theorem Channel.onSync_of_halfF {s : State} {incoming : Vector Octet 128} {ch : Channel} {x : HalfF}
    (h : ch.life = .halfF x) (hcheck : x.check = none) :
    ch.onSync s incoming = { ch with life := .halfF { x with
      fixed := { x.fixed with feed := x.fixed.timeslot }, timer := s.timerAfterSync x.timer } } := by
  simp only [Channel.onSync, h, hcheck]
  rfl

theorem Channel.onSync_of_halfR {s : State} {incoming : Vector Octet 128} {ch : Channel} {x : HalfR}
    (h : ch.life = .halfR x) :
    ch.onSync s incoming = { ch with life := .halfR { x with timer := s.timerAfterSync x.timer } } := by
  simp only [Channel.onSync, h]
  rfl

theorem Channel.onSync_of_free {s : State} {incoming : Vector Octet 128} {ch : Channel} (h : ch.life = .free) :
    ch.onSync s incoming = ch := by
  simp only [Channel.onSync, h]

/-- A Line Unit changes in its timers and, by the settling that follows, in its event list. -/
theorem State.sameButList_frameSync (s : State) (incoming : Vector Octet 128) (l : Line) :
    { s.line l with
      expiry := s.timerAfterSync (s.line l).expiry
      request := s.timerAfterSync (s.line l).request }.sameButList ((s.frameSync incoming).line l) := by
  rw [State.line_frameSync]
  rfl

/-- Settles O4: every context by its lifecycle state, every timeslot by its source. -/
theorem frameSyncExchangesOneOctetPerTimeslot : Obligations.FrameSyncExchangesOneOctetPerTimeslot := by
  intro incoming s hrun hpoints hends
  refine ⟨s.frameSync incoming, exec_frameSync_ready hrun hpoints hends, rfl, rfl, rfl, rfl, hrun, rfl, rfl, rfl, rfl, rfl,
    rfl, rfl, rfl, rfl, rfl, rfl, rfl, fun c a ha => ?_, fun c x hx hcheck => ?_, fun c x hx => ?_, fun c hc => ?_,
    s.sameButList_frameSync incoming, fun x => ?_⟩
  · rw [State.chan_frameSync, Channel.onSync_of_active ha]
  · rw [State.chan_frameSync, Channel.onSync_of_halfF hx hcheck]
  · rw [State.chan_frameSync, Channel.onSync_of_halfR hx]
  · rw [State.chan_frameSync, Channel.onSync_of_free hc]
  · rw [State.slot_frameSync]
    refine ⟨Timeslot.entry_onSync _, fun h => ?_, fun h => ?_, fun h => ?_, fun o rest h => ?_, fun o rest h => ?_⟩
    all_goals simp [Timeslot.onSync, h]

end Sys2Proof.Machine
end

section
/-! SUPPORT. What an event hands on toward a channel's downlink, said once: an item held behind an ENCODE or an item of the
channel, or offered straight away; what the event leaves as it is. -/

namespace Sys2Proof.Machine

/-! ### Line Units up to their event lists -/

theorem LineUnit.sameButList.trans {u v w : LineUnit} (h : u.sameButList v) (h' : v.sameButList w) : u.sameButList w := by
  unfold LineUnit.sameButList at *
  rw [← h, ← h']

theorem LineUnit.sameButList.settings_eq {u v : LineUnit} (h : u.sameButList v) : v.settings = u.settings := by
  unfold LineUnit.sameButList at h
  rw [← h]

theorem LineUnit.sameButList.row_eq {u v : LineUnit} (h : u.sameButList v) : v.row = u.row := by
  unfold LineUnit.sameButList at h
  rw [← h]

theorem LineUnit.sameButList.lineEvents_eq {u v : LineUnit} (h : u.sameButList v) : v.lineEvents = u.lineEvents := by
  unfold LineUnit.sameButList at h
  rw [← h]

/-- The Line Units brought up to date with the channels' records. -/
theorem State.line_sameButList_settle (s : State) (l : Line) : (s.line l).sameButList (s.settle.line l) := by
  rw [State.line_settle]
  rfl

/-! ### Items offered -/

/-- Whether what goes toward a channel's downlink waits: an ENCODE of the channel is in the pool, or an item is held
(R116, R117, R160). -/
def State.waits (s : State) (c : Chan) (a : Active) : Bool := s.inPool c .encode || !a.down.held.isEmpty

theorem State.waits_iff (s : State) (c : Chan) (a : Active) :
    s.waits c a = true ↔ s.inPool c .encode = true ∨ a.down.held ≠ [] := by
  simp [State.waits]

theorem State.waits_eq_false_iff (s : State) (c : Chan) (a : Active) :
    s.waits c a = false ↔ s.inPool c .encode = false ∧ a.down.held = [] := by
  simp [State.waits]

/-- The ENCODE job of a channel for a work, as the channel's encoder state stands (R116, R157). -/
def Active.encodeJob (a : Active) (c : Chan) (work : EncodeWork) (deadline : Nat) : Job :=
  { channel := c, deadline, work := .encode work ⟨a.down.predictor, a.down.stepIndex⟩, discard := false }

/-- An item that an offer takes: a record of the channel, or a job before its deadline. -/
def Held.offerable (i : Held) (c : Chan) (time : Nat) : Prop :=
  match i with
  | .record r => recordChannel r = c
  | .job _ deadline => time < deadline

/-- An item offered to the Transmit Queue or to the pool. -/
def State.offerItem (s : State) (c : Chan) (a : Active) (i : Held) : State :=
  match i with
  | .record r => s.offerRecord r
  | .job work deadline => ({ s with jobs := insertJob (a.encodeJob c work deadline) s.jobs } : State).arbitrate

/-- An item handed on is held, or offered with nothing held. -/
theorem State.handOn_eq {s : State} {c : Chan} {a : Active} (hl : s.life c = .active a) {i : Held}
    (hi : i.offerable c s.time) :
    s.handOn c i = if s.waits c a = true then s.setHeld c (a.down.held ++ [i]) else (s.offerItem c a i).setHeld c [] := by
  have hheld : s.heldItems c = a.down.held := by simp only [State.heldItems, hl]
  have hitem : State.releaseItems c [i] s = (s.offerItem c a i).setHeld c [] := by
    cases i with
    | record r => rfl
    | job work deadline =>
      have hoffer : s.offerEncode c work deadline = s.offerJob (a.encodeJob c work deadline) := by
        simp only [State.offerEncode, hl]
        rfl
      have htaken := s.offerJob_before (a.encodeJob c work deadline) hi
      simp only [State.releaseItems, hoffer, htaken]
      rfl
  simp only [State.handOn, hheld, hitem]
  rfl

/-! ### What an event hands on -/

/-- An event from `s` to `t` that hands an item, or nothing, on toward the downlink of an ACTIVE channel: what it does and
what it leaves (R116, R117, R160). -/
structure State.handsOn (s t : State) (c : Chan) (a : Active) (item : Option Held) : Prop where
  device : t.device = s.device
  slot : ∀ x, t.slot x = s.slot x
  others : s.sameChannels t [c]
  life : t.life c = .active { a with down := { a.down with
    held := if s.waits c a = true then a.down.held ++ item.toList else [] } }
  continuity : (t.chan c).continuity = (s.chan c).continuity
  events : ∀ l, (t.chan c).events l = (s.chan c).events l
  line : ∀ l, { s.line l with lineEvents := (t.line l).lineEvents }.sameButList (t.line l)
  kept : s.waits c a = true ∨ (∀ r, item ≠ some (.record r)) →
    t.link = s.link ∧ (∀ l, t.line l = s.line l) ∧ ∀ k, (t.chan c).counter k = (s.chan c).counter k
  pool : s.waits c a = true ∨ (∀ work deadline, item ≠ some (.job work deadline)) → t.pool = s.pool
  record : ∀ r, s.waits c a = false → item = some (.record r) → s.recordCounted t c r
  job : ∀ work deadline, s.waits c a = false → item = some (.job work deadline) →
    s.jobOffered t (a.encodeJob c work deadline)

/-- With nothing handed on the held items stay: there are none where nothing waits. -/
theorem State.held_nothing (s : State) (c : Chan) (a : Active) :
    (if s.waits c a = true then a.down.held ++ (none : Option Held).toList else []) = a.down.held := by
  split
  · exact List.append_nil _
  · next hw => exact ((s.waits_eq_false_iff c a).mp (by simpa using hw)).2.symm

/-- Nothing handed on: the items that wait stay, and nothing else changes. -/
theorem State.handsOn_nothing {s : State} {c : Chan} {a : Active} (hl : s.life c = .active a) : s.handsOn s c a none where
  device := rfl
  slot _ := rfl
  others _ _ := rfl
  life := by
    rw [s.held_nothing]
    exact hl
  continuity := rfl
  events _ := rfl
  line _ := rfl
  kept _ := ⟨rfl, fun _ => rfl, fun _ => rfl⟩
  pool _ := rfl
  record _ _ h := nomatch h
  job _ _ _ h := nomatch h

theorem State.chan_setHeld {s : State} {c : Chan} {a : Active} (hl : s.life c = .active a) (items : List Held) (d : Chan) :
    (s.setHeld c items).chan d
      = if c = d then { s.chan d with life := .active { a with down := { a.down with held := items } } } else s.chan d := by
  rw [State.setHeld, State.chan_mapActive]
  split
  · next hd =>
    rw [State.life_def, hd] at hl
    simp only [Channel.mapActive, hl]
  · rfl

theorem State.handsOn_held {s : State} {c : Chan} {a : Active} (hl : s.life c = .active a) (i : Held)
    (hw : s.waits c a = true) : s.handsOn (s.setHeld c (a.down.held ++ [i])) c a (some i) := by
  have hchan := State.chan_setHeld hl (a.down.held ++ [i])
  refine ⟨by simp, by simp, fun d hd => ?_, ?_, ?_, fun l => ?_, fun l => ?_, fun _ => ⟨by simp, by simp, fun k => ?_⟩,
    by simp, fun r hr => ?_, fun work deadline hj => ?_⟩
  · rw [hchan, if_neg fun h => hd (List.mem_singleton.mpr h.symm)]
  · rw [State.life_def, hchan, if_pos rfl, if_pos hw]
    rfl
  · rw [hchan, if_pos rfl]
  · rw [hchan, if_pos rfl]
    cases l <;> rfl
  · rw [State.line_setHeld]
    rfl
  · rw [hchan, if_pos rfl]
    rfl
  · rw [hw] at hr
    cases hr
  · rw [hw] at hj
    cases hj

/-- A record offered changes of the contexts the counters of its channel alone, of the Line Units their event sets alone. -/
theorem State.chan_offerRecord (s : State) (r : Record) (d : Chan) :
    (s.offerRecord r).chan d = if recordChannel r = d then { s.chan d with counters := ((s.offerRecord r).chan d).counters }
      else s.chan d := by
  have hcount : ∀ (t : State) k, (∀ d, t.chan d = s.chan d) → (t.count (recordChannel r) k).chan d
      = if recordChannel r = d then { s.chan d with counters := ((t.count (recordChannel r) k).chan d).counters }
        else s.chan d := fun t k ht => by
    rw [State.count, State.chan_mapChan, ht]
    split <;> rfl
  unfold State.offerRecord
  split
  · rw [State.chan_startTransmit]
    exact hcount _ _ fun _ => rfl
  · rw [State.chan_recordLine, State.chan_recordLine]
    exact hcount s _ fun _ => rfl

theorem State.recordCounted.sameButEvents {s t : State} {c : Chan} {r : Record} (h : s.recordCounted t c r) (l : Line) :
    { s.line l with lineEvents := (t.line l).lineEvents }.sameButList (t.line l) := by
  have hl := h.2.2 l
  rw [hl.lineEvents_eq]
  exact hl

/-- A record's count, seen from states that agree with it in what it is about. -/
theorem State.recordCounted.of_eq {s s' t t' : State} {c : Chan} {r : Record} (h : s.recordCounted t c r)
    (hlink : s'.link = s.link) (hline : ∀ l, s'.line l = s.line l)
    (hcounter : ∀ k, (s'.chan c).counter k = (s.chan c).counter k) (hlink' : t'.link = t.link)
    (hclock : t'.clock = t.clock) (hline' : ∀ l, (t.line l).sameButList (t'.line l))
    (hcounter' : ∀ k, (t'.chan c).counter k = (t.chan c).counter k) : s'.recordCounted t' c r := by
  obtain ⟨hoffered, hcounted, hlines⟩ := h
  obtain ⟨htransmit, hsending⟩ := Prod.mk.inj hlink
  obtain ⟨htransmit', hsending'⟩ := Prod.mk.inj hlink'
  refine ⟨?_, fun k => ?_, fun l => ?_⟩
  · unfold State.recordOffered at hoffered ⊢
    rw [htransmit, hsending, htransmit', hsending', hclock, hlink, hlink']
    exact hoffered
  · rw [hcounter', hcounter, htransmit]
    exact hcounted k
  · have hset : ∀ e, s'.recordedSet l .queueOverflow e = s.recordedSet l .queueOverflow e := fun e => by
      rw [State.recordedSet, hline, State.recordedSet]
    rw [hline, htransmit, hset]
    exact (hlines l).trans (hline' l)

theorem State.jobOffered.of_after {s t t' : State} {j : Job} (h : s.jobOffered t j) (hp : t'.pool = t.pool)
    (hc : t'.clock = t.clock) : s.jobOffered t' j := by
  obtain ⟨he, hj⟩ := Prod.mk.inj hp
  unfold State.jobOffered at *
  rw [he, hj, hc]
  exact h

theorem State.handsOn_record {s : State} {c : Chan} {a : Active} (hl : s.life c = .active a) {r : Record}
    (hr : recordChannel r = c) (hw : s.waits c a = false) :
    s.handsOn ((s.offerRecord r).setHeld c []) c a (some (.record r)) := by
  have hnot : ¬s.waits c a = true := by simp [hw]
  have hoffered := s.chan_offerRecord r
  have hself := hoffered c
  rw [if_pos hr] at hself
  have hlife : (s.offerRecord r).life c = .active a := by
    rw [State.life_def, hself]
    exact hl
  have hchan := State.chan_setHeld hlife []
  have hchan' := hchan c
  rw [if_pos rfl] at hchan'
  have hcounted : s.recordCounted ((s.offerRecord r).setHeld c []) c r :=
    (s.recordCounted_offerRecord hr).of_eq rfl (fun _ => rfl) (fun _ => rfl) (by simp)
      (State.clock_of_device (by simp)) (fun l => by rw [State.line_setHeld]; rfl) fun k => by rw [hchan']; rfl
  refine ⟨by simp, by simp, fun d hd => ?_, ?_, ?_, fun l => ?_, hcounted.sameButEvents, fun h => ?_, by simp,
    fun r' _ hr' => ?_, fun _ _ _ hj => nomatch hj⟩
  · have hne : ¬c = d := fun h => hd (List.mem_singleton.mpr h.symm)
    rw [hchan, if_neg hne, hoffered, if_neg (hr ▸ hne)]
  · rw [State.life_def, hchan', if_neg hnot]
  · rw [hchan', hself]
  · rw [hchan', hself]
    cases l <;> rfl
  · exact absurd rfl (h.resolve_left hnot r)
  · cases hr'
    exact hcounted

theorem State.handsOn_job {s : State} {c : Chan} {a : Active} (hl : s.life c = .active a) (work : EncodeWork)
    (deadline : Nat) (hw : s.waits c a = false) :
    s.handsOn ((s.offerItem c a (.job work deadline)).setHeld c []) c a (some (.job work deadline)) := by
  have hnot : ¬s.waits c a = true := by simp [hw]
  obtain ⟨j, hj⟩ : ∃ j, j = a.encodeJob c work deadline := ⟨_, rfl⟩
  have hoffer : s.offerItem c a (.job work deadline) = ({ s with jobs := insertJob j s.jobs } : State).arbitrate := by
    rw [hj]
    rfl
  rw [hoffer]
  have hlife : ({ s with jobs := insertJob j s.jobs } : State).arbitrate.life c = .active a := by
    rw [State.life_arbitrate]
    exact hl
  have hchan := State.chan_setHeld hlife []
  simp only [State.chan_arbitrate] at hchan
  have hchan' := hchan c
  rw [if_pos rfl] at hchan'
  refine ⟨?_, fun x => ?_, fun d hd => ?_, ?_, ?_, fun l => ?_, fun l => ?_, fun _ => ⟨?_, fun l => ?_, fun k => ?_⟩,
    fun h => ?_, fun _ _ hr => (nomatch hr), fun work' deadline' _ hitem => ?_⟩
  · rw [State.device_setHeld, State.device_arbitrate]
    rfl
  · rw [State.slot_setHeld, State.slot_arbitrate]
    rfl
  · rw [hchan, if_neg fun h => hd (List.mem_singleton.mpr h.symm)]
    rfl
  · rw [State.life_def, hchan', if_neg hnot]
  · rw [hchan']
    rfl
  · rw [hchan']
    cases l <;> rfl
  · rw [State.line_setHeld, State.line_arbitrate]
    rfl
  · rw [State.link_setHeld, State.link_arbitrate]
    rfl
  · rw [State.line_setHeld, State.line_arbitrate]
    rfl
  · rw [hchan']
    rfl
  · exact absurd rfl (h.resolve_left hnot work deadline)
  · cases hitem
    rw [← hj]
    exact (s.jobOffered_arbitrate j).of_after (by simp) (State.clock_of_device (by simp))

/-- An item handed on toward an ACTIVE channel (R116, R117, R160). -/
theorem State.handsOn_handOn {s : State} {c : Chan} {a : Active} (hl : s.life c = .active a) {i : Held}
    (hi : i.offerable c s.time) : s.handsOn (s.handOn c i) c a (some i) := by
  rw [State.handOn_eq hl hi]
  split
  · next hw => exact State.handsOn_held hl i hw
  · next hw =>
    have hfree : s.waits c a = false := by simpa using hw
    cases i with
    | record r => exact State.handsOn_record hl hi hfree
    | job work deadline => exact State.handsOn_job hl work deadline hfree

end Sys2Proof.Machine
end

section
/-! SUPPORT. The downlink boundary: how a frame's activity moves the context, what the boundary decides, and the event as a
whole, from which the four statements about it follow. -/

namespace Sys2Proof.Machine

/-! ### The activity update (R110, R111) -/

section Update

variable {A threshold hangover : Nat} {d : Downlink}

theorem updateActivity_talk_loud (hd : d.activity = .talk) (h : threshold ≤ A) :
    updateActivity A threshold hangover d = { d with lowRun := 0 } := by
  simp [updateActivity, hd, h]

theorem updateActivity_talk_low (hd : d.activity = .talk) (h : A < threshold) (hrun : d.lowRun < hangover) :
    updateActivity A threshold hangover d = { d with lowRun := d.lowRun + 1 } := by
  simp [updateActivity, hd, Nat.not_le.mpr h, hrun]

theorem updateActivity_talk_ends (hd : d.activity = .talk) (h : A < threshold) (hrun : ¬d.lowRun < hangover) :
    updateActivity A threshold hangover d
      = { d with activity := .quiet, lowRun := 0, weakOnset := false, quietCount := 0 } := by
  simp [updateActivity, hd, Nat.not_le.mpr h, hrun]

theorem updateActivity_quiet_ends (hd : d.activity = .quiet)
    (h : 2 * threshold ≤ A ∨ (threshold ≤ A ∧ d.weakOnset = true)) :
    updateActivity A threshold hangover d
      = { d with activity := .talk, weakOnset := false, lowRun := 0, quietCount := 0 } := by
  simp only [updateActivity, hd, if_pos h]

theorem updateActivity_quiet_moderate (hd : d.activity = .quiet) (h : threshold ≤ A) (h2 : A < 2 * threshold)
    (hweak : d.weakOnset = false) : updateActivity A threshold hangover d = { d with weakOnset := true } := by
  have hno : ¬(2 * threshold ≤ A ∨ (threshold ≤ A ∧ d.weakOnset = true)) := by
    rw [hweak]
    rintro (h' | ⟨-, h'⟩)
    · omega
    · cases h'
  simp only [updateActivity, hd, if_neg hno, if_pos h]

theorem updateActivity_quiet_low (hd : d.activity = .quiet) (h : A < threshold) :
    updateActivity A threshold hangover d = { d with weakOnset := false } := by
  have hno : ¬(2 * threshold ≤ A ∨ (threshold ≤ A ∧ d.weakOnset = true)) := by omega
  simp only [updateActivity, hd, if_neg hno, if_neg (Nat.not_le.mpr h)]

end Update

/-- A boundary moves the detector's fields alone, beside the sequence, the next boundary and the phase. -/
theorem afterBoundary_down (time : Nat) (a : Active) :
    (afterBoundary time a).down = { a.down with
      activity := (afterBoundary time a).down.activity
      lowRun := (afterBoundary time a).down.lowRun
      weakOnset := (afterBoundary time a).down.weakOnset
      quietCount := (afterBoundary time a).down.quietCount
      sequence := a.down.sequence + 1
      boundary := some ((time : Int) + 160 + a.radio.offset).toNat
      phase := (((a.down.phase : Int) + a.radio.offset) % 160).toNat } := by
  have hupdate : ∀ A threshold hangover (d : Downlink), updateActivity A threshold hangover d = { d with
      activity := (updateActivity A threshold hangover d).activity
      lowRun := (updateActivity A threshold hangover d).lowRun
      weakOnset := (updateActivity A threshold hangover d).weakOnset
      quietCount := (updateActivity A threshold hangover d).quietCount } := fun A threshold hangover d => by
    unfold updateActivity
    split
    · split
      · rfl
      · split <;> rfl
    · split
      · rfl
      · split <;> rfl
  have h := hupdate (Speech.activity (boundaryFrame a)) a.fixed.quietThreshold a.fixed.hangover a.down
  simp only [afterBoundary, boundaryDecision]
  rw [h]

/-! ### The decision (R113) -/

/-- The downlink fields that the activity update leaves of a context and its frame. -/
def Active.updated (a : Active) : Downlink :=
  updateActivity (Speech.activity a.frame) a.fixed.quietThreshold a.fixed.hangover a.down

theorem boundaryDecision_eq (a : Active) :
    boundaryDecision a
      = ({ a.updated with
            quietCount := (decideOutput a.radio.dtx a.updated.activity a.updated.quietCount a.fixed.quietInterval).2 },
          (decideOutput a.radio.dtx a.updated.activity a.updated.quietCount a.fixed.quietInterval).1) := rfl

theorem decideOutput_speech {dtx : Bool} {activity : Activity} (h : dtx = false ∨ activity = .talk)
    (count interval : Nat) : decideOutput dtx activity count interval = (.speech, 0) := if_pos h

theorem decideOutput_quiet (count interval : Nat) :
    decideOutput true .quiet count interval
      = if count = 0 then (.quietRecord, 1) else (.nothing, (count + 1) % interval) := rfl

theorem Active.decidesSpeech.item {a : Active} (h : a.decidesSpeech (Speech.activity a.frame)) (c : Chan) (time : Nat) :
    boundaryItem c time a
      = some (.job { source := .boundary, mode := a.radio.active, samples := a.frame, sequence := a.down.sequence }
          (time + 80)) := by
  have htalk : a.radio.dtx = false ∨ a.updated.activity = .talk := by
    rcases h with h | ⟨hd, h⟩ | ⟨hd, h⟩
    · exact .inl h
    · refine .inr ?_
      by_cases hloud : a.fixed.quietThreshold ≤ Speech.activity a.frame
      · rw [Active.updated, updateActivity_talk_loud hd hloud]
        exact hd
      · rw [Active.updated, updateActivity_talk_low hd (Nat.not_le.mp hloud) (h.resolve_left hloud)]
        exact hd
    · rw [Active.updated, updateActivity_quiet_ends hd h]
      exact .inr rfl
  simp only [boundaryItem, boundaryDecision_eq, decideOutput_speech htalk]
  rfl

/-- A context found QUIET that a frame keeps so stays QUIET with its quiet-interval count. -/
theorem Active.staysQuiet.updated {a : Active} (hd : a.down.activity = .quiet)
    (h : a.staysQuiet (Speech.activity a.frame)) :
    a.updated.activity = .quiet ∧ a.updated.quietCount = a.down.quietCount := by
  rcases h with h | ⟨h, h2, hweak⟩
  · rw [Active.updated, updateActivity_quiet_low hd h]
    exact ⟨hd, rfl⟩
  · rw [Active.updated, updateActivity_quiet_moderate hd h h2 hweak]
    exact ⟨hd, rfl⟩

theorem Active.decidesRecord.item {a : Active} (h : a.decidesRecord (Speech.activity a.frame)) (c : Chan) (time : Nat) :
    boundaryItem c time a
      = some (.record (withCheck [0x80, BitVec.ofNat 8 c.val, a.down.sequence,
          BitVec.ofNat 8 (Speech.quietLevel (Speech.activity a.frame))])) := by
  obtain ⟨hdtx, h⟩ := h
  have hquiet : a.updated.activity = .quiet ∧ a.updated.quietCount = 0 := by
    rcases h with ⟨hd, hlow, hrun⟩ | ⟨hd, hcount, hstays⟩
    · rw [Active.updated, updateActivity_talk_ends hd hlow (by omega)]
      exact ⟨rfl, rfl⟩
    · obtain ⟨hactivity, hsame⟩ := hstays.updated hd
      exact ⟨hactivity, hsame.trans hcount⟩
  simp only [boundaryItem, boundaryDecision_eq, hdtx, hquiet, decideOutput_quiet, if_true]
  rfl

theorem Active.decidesNothing.item {a : Active} (h : a.decidesNothing (Speech.activity a.frame)) (c : Chan)
    (time : Nat) : boundaryItem c time a = none := by
  obtain ⟨hdtx, hd, hcount, hstays⟩ := h
  obtain ⟨hactivity, hsame⟩ := hstays.updated hd
  simp only [boundaryItem, boundaryDecision_eq, hdtx, hactivity, hsame, decideOutput_quiet, if_neg hcount]

/-! ### The activity reported (R120) -/

/-- A channel's record for a line after ACTIVITY_CHANGED where the line's copy differs from the activity. -/
theorem State.chan_reportActivity (s : State) (c d : Chan) (a : Active) :
    (s.reportActivity c a).chan d
      = if c = d then
          { s.chan d with
            eventsF := if a.copyF = a.down.activity then (s.chan d).eventsF
              else s.recordedFor .F .activityChanged (s.chan d).eventsF
            eventsR := if a.copyR = a.down.activity then (s.chan d).eventsR
              else s.recordedFor .R .activityChanged (s.chan d).eventsR }
        else s.chan d := by
  have hset : ∀ t : State, (∀ l, t.line l = s.line l) → ∀ e, t.recordedFor .R .activityChanged e
      = s.recordedFor .R .activityChanged e := fun t ht e => State.recordedFor_of_settings (by rw [ht]) _ e
  have hline : ∀ l, (s.record c .F .activityChanged).line l = s.line l := by simp
  unfold State.reportActivity
  by_cases hF : a.copyF = a.down.activity <;> by_cases hR : a.copyR = a.down.activity
  all_goals
    simp only [hF, hR, if_true, if_false, State.chan_record, hset _ hline]
    split <;> rfl

end Sys2Proof.Machine
end

section
/-! SUPPORT. The downlink boundary as one event: the rows apply, the context moves on, the frame's item is handed on, the
activity is reported. The four statements about it. -/

namespace Sys2Proof.Machine

/-! ### What is said of an event, from states that agree with it -/

theorem State.waits_of_pool {s t : State} (hp : t.pool = s.pool) (c : Chan) {a b : Active} (hh : b.down.held = a.down.held) :
    t.waits c b = s.waits c a := by
  obtain ⟨he, hj⟩ := Prod.mk.inj hp
  simp only [State.waits, State.inPool, State.queued, State.running, he, hj, hh]

/-- The rows applied are seen in the rows and in the timeslots. -/
theorem State.rowsApplied.of_after {s t t' : State} {d : Chan} {b b' : Active} (h : s.rowsApplied t d b b')
    (hrow : ∀ l, (t'.line l).row = (t.line l).row) (hslot : ∀ x, t'.slot x = t.slot x) : s.rowsApplied t' d b b' := by
  unfold State.rowsApplied State.sameSlots at *
  simpa only [hrow, hslot] using h

theorem State.withRowsOf_of_rows (s : State) {t t' : State} (h : ∀ l, (t'.line l).row = (t.line l).row) :
    s.withRowsOf t' = s.withRowsOf t := by
  have hF : t'.lineF.row = t.lineF.row := h .F
  have hR : t'.lineR.row = t.lineR.row := h .R
  rw [State.withRowsOf, hF, hR]
  rfl

/-! ### The event -/

/-- The boundary of an unspliced channel in an event from `s` to `t`, with the context `a` before it and `a'` once the
pending rows have applied: what it does in every case, and with its item by where that goes (R57, R58, R108). -/
structure State.boundaryTaken (s t : State) (c : Chan) (a a' : Active) : Prop where
  rows : s.rowsApplied t c a a'
  device : t.device = s.device
  others : s.sameChannels t [c]
  life : t.life c = .active { afterBoundary s.time a' with down := { (afterBoundary s.time a').down with
    held := if s.waits c a = true then a.down.held ++ (boundaryItem c s.time a').toList else [] } }
  continuity : (t.chan c).continuity = (s.chan c).continuity
  events : ∀ l, (t.chan c).events l
    = if (match l with | .F => a.copyF | .R => a.copyR) = (afterBoundary s.time a').down.activity then s.appliedFor l c
      else s.recordedFor l .activityChanged (s.appliedFor l c)
  line : ∀ l, { (s.withRowsOf t).line l with lineEvents := (t.line l).lineEvents }.sameButList (t.line l)
  kept : s.waits c a = true ∨ (∀ r, boundaryItem c s.time a' ≠ some (.record r)) →
    t.link = s.link ∧ (s.withRowsOf t).sameLines t ∧ ∀ k, (t.chan c).counter k = (s.chan c).counter k
  pool : s.waits c a = true ∨ (∀ work deadline, boundaryItem c s.time a' ≠ some (.job work deadline)) → t.pool = s.pool
  record : ∀ r, s.waits c a = false → boundaryItem c s.time a' = some (.record r) →
    (s.withRowsOf t).recordCounted t c r
  job : ∀ work deadline, s.waits c a = false → boundaryItem c s.time a' = some (.job work deadline) →
    s.jobOffered t (a.encodeJob c work deadline)

/-- A record names the channel whose number its second octet holds (R65). -/
theorem recordChannel_sealRecord (o : Octet) (c : Chan) (rest : List Octet) :
    recordChannel (sealRecord (o :: BitVec.ofNat 8 c.val :: rest)) = c := by
  have hc : c.val < 256 := by omega
  apply Fin.ext
  simp [recordChannel, sealRecord, octetAt, Fin.ofNat, Nat.mod_eq_of_lt hc]

/-- What a boundary hands on is offerable: a record of the channel, or a job due 80 sample times on. -/
theorem boundaryItem_offerable {c : Chan} {time : Nat} {a : Active} {i : Held} (h : boundaryItem c time a = some i) :
    i.offerable c time := by
  unfold boundaryItem at h
  split at h
  · cases h
    exact Nat.lt_add_of_pos_right (by decide)
  · cases h
    exact recordChannel_sealRecord _ c _
  · cases h

/-- An item, or nothing, handed on toward a channel's downlink. -/
def State.handOnward (s : State) (c : Chan) (item : Option Held) : State :=
  match item with
  | some i => s.handOn c i
  | none => s

/-- The boundary hands its item on from the state in which the context has moved on. -/
theorem State.handsOn_boundary {s : State} {c : Chan} {b : Active} (hl : s.life c = .active b) {item : Option Held}
    (hi : ∀ i, item = some i → i.offerable c s.time) :
    s.handsOn (s.handOnward c item) c b item := by
  cases item with
  | none => exact State.handsOn_nothing hl
  | some i => exact State.handsOn_handOn hl (hi i rfl)

/-- The rows PENDING on an ACTIVE channel applied in an event from `s` to `u`, with the context `a` before it, `a'` as the
rows leave it, and `b` in `u`. -/
structure State.movedOn (s u : State) (c : Chan) (a a' b : Active) : Prop where
  rows : s.rowsApplied u c a a'
  device : u.device = s.device
  pool : u.pool = s.pool
  link : u.link = s.link
  others : s.sameChannels u [c]
  chan : u.chan c
    = { s.chan c with life := .active b, eventsF := s.appliedFor .F c, eventsR := s.appliedFor .R c }
  line : ∀ l, u.line l = (s.withRowsOf u).line l

theorem State.movedOn_applyBoth {s : State} (hr : s.rowsOk) {c : Chan} {a : Active} (hl : s.life c = .active a) :
    ∃ a', s.movedOn (s.applyBoth c true) c a a' a' := by
  obtain ⟨a', hrows, hchan, hothers, hlines⟩ := State.rowsApplied_applyBoth hr hl
  exact ⟨a', hrows, by simp, by simp, by simp, hothers, hchan, hlines⟩

theorem State.movedOn.setLife {s u : State} {c : Chan} {a a' b : Active} (h : s.movedOn u c a a' b) (b' : Active) :
    s.movedOn (u.setLife c (.active b')) c a a' b' where
  rows := h.rows.of_after (by simp) (by simp)
  device := by rw [State.device_setLife, h.device]
  pool := by rw [State.pool_setLife, h.pool]
  link := by rw [State.link_setLife, h.link]
  others d hd := by rw [State.chan_setLife, if_neg fun hc => hd (List.mem_singleton.mpr hc.symm), h.others d hd]
  chan := by rw [State.chan_setLife_self, h.chan]
  line l := by rw [State.line_setLife, h.line, State.withRowsOf_of_rows (t := u) (t' := u.setLife c _) s (by simp)]

theorem State.movedOn.life {s u : State} {c : Chan} {a a' b : Active} (h : s.movedOn u c a a' b) :
    u.life c = .active b := by
  rw [State.life_def, h.chan]

/-- A Line Unit has its settings whatever rows apply. -/
theorem State.movedOn.settings {s u : State} {c : Chan} {a a' b : Active} (h : s.movedOn u c a a' b) (l : Line) :
    (u.line l).settings = (s.line l).settings := by
  rw [h.line, State.line_withRowsOf]

theorem State.movedOn.down {s u : State} {c : Chan} {a a' b : Active} (h : s.movedOn u c a a' b) : a'.down = a.down := by
  rw [h.rows.1]

/-- A Line Unit once an item has been handed on: the rows as they were, and all but the event sets and the lists. -/
theorem State.handsOn.sameButList {u v t : State} {c : Chan} {b : Active} {item : Option Held}
    (hands : u.handsOn v c b item) (s : State) (hline : ∀ l, (v.line l).sameButList (t.line l)) :
    s.withRowsOf t = s.withRowsOf u
      ∧ ∀ l, { u.line l with lineEvents := (t.line l).lineEvents }.sameButList (t.line l) := by
  constructor
  · refine State.withRowsOf_of_rows s fun l => ?_
    rw [(hline l).row_eq, (hands.line l).row_eq]
  · intro l
    rw [(hline l).lineEvents_eq]
    exact (hands.line l).trans (hline l)

theorem afterBoundary_held (time : Nat) (a : Active) : (afterBoundary time a).down.held = a.down.held := by
  rw [afterBoundary_down]

/-- The encoder state of a boundary's job is the one that the boundary finds. -/
theorem encodeJob_afterBoundary (time : Nat) (a : Active) (c : Chan) (work : EncodeWork) (deadline : Nat) :
    (afterBoundary time a).encodeJob c work deadline = a.encodeJob c work deadline := by
  unfold Active.encodeJob
  rw [afterBoundary_down]

theorem encodeJob_of_down {a b : Active} (h : b.down = a.down) (c : Chan) (work : EncodeWork) (deadline : Nat) :
    b.encodeJob c work deadline = a.encodeJob c work deadline := by
  unfold Active.encodeJob
  rw [h]

/-- The boundary put together: the context moves on, its item is handed on, its activity is reported. -/
theorem State.movedOn.boundaryTaken {s u v : State} {c : Chan} {a a' : Active}
    (h : s.movedOn u c a a' (afterBoundary s.time a'))
    (hands : u.handsOn v c (afterBoundary s.time a') (boundaryItem c s.time a')) :
    s.boundaryTaken (v.reportActivity c (afterBoundary s.time a')).settle c a a' := by
  obtain ⟨t, ht⟩ : ∃ t, t = (v.reportActivity c (afterBoundary s.time a')).settle := ⟨_, rfl⟩
  have hline : ∀ l, (v.line l).sameButList (t.line l) := fun l => by
    have hl := (v.reportActivity c (afterBoundary s.time a')).line_sameButList_settle l
    rwa [State.line_reportActivity, ← ht] at hl
  obtain ⟨hwith, hlines⟩ := hands.sameButList s hline
  have hself := v.chan_reportActivity c c (afterBoundary s.time a')
  rw [if_pos rfl, ← State.chan_settle, ← ht] at hself
  have hwaits : u.waits c (afterBoundary s.time a') = s.waits c a :=
    State.waits_of_pool h.pool c (by rw [afterBoundary_held, h.down])
  have hcounter : ∀ k, (t.chan c).counter k = (v.chan c).counter k := fun k => by rw [hself]; rfl
  have hcounter' : ∀ k, (u.chan c).counter k = (s.chan c).counter k := fun k => by rw [h.chan]; rfl
  have hrow : ∀ l, (t.line l).row = (u.line l).row := fun l => by rw [(hlines l).row_eq]
  have hlink : t.link = v.link := by rw [ht, State.link_settle, State.link_reportActivity]
  have hpool : t.pool = v.pool := by rw [ht, State.pool_settle, State.pool_reportActivity]
  have hdevice : t.device = v.device := by rw [ht, State.device_settle, State.device_reportActivity]
  rw [← ht]
  constructor
  case rows =>
    refine h.rows.of_after hrow fun x => ?_
    rw [ht, State.slot_settle, State.slot_reportActivity, hands.slot]
  case device => rw [hdevice, hands.device, h.device]
  case others =>
    intro d hd
    have hne : ¬c = d := fun hc => hd (List.mem_singleton.mpr hc.symm)
    rw [ht, State.chan_settle, State.chan_reportActivity, if_neg hne, hands.others d hd, h.others d hd]
  case life =>
    rw [State.life_def, hself]
    show v.life c = _
    rw [hands.life, hwaits, afterBoundary_held, h.down]
  case continuity => rw [hself, hands.continuity, h.chan]
  case events =>
    have hrecorded : ∀ l e, v.recordedFor l .activityChanged e = s.recordedFor l .activityChanged e := fun l e =>
      State.recordedFor_of_settings (by rw [(hands.line l).settings_eq]; exact h.settings l) _ e
    have hcopies : (afterBoundary s.time a').copyF = a.copyF ∧ (afterBoundary s.time a').copyR = a.copyR := by
      have hcopyF := congrArg Active.copyF h.rows.1
      have hcopyR := congrArg Active.copyR h.rows.1
      exact ⟨hcopyF, hcopyR⟩
    have happlied : ∀ l, (v.chan c).events l = s.appliedFor l c := fun l => by
      rw [hands.events, h.chan]
      cases l <;> rfl
    intro l
    rw [hself]
    cases l
    · simp only [Channel.events, hrecorded, hcopies.1]
      rw [← happlied .F]
      rfl
    · simp only [Channel.events, hrecorded, hcopies.2]
      rw [← happlied .R]
      rfl
  case line =>
    intro l
    rw [hwith, ← h.line]
    exact hlines l
  case kept =>
    intro hk
    rw [← hwaits] at hk
    obtain ⟨hlink', hline', hcounts⟩ := hands.kept hk
    refine ⟨by rw [hlink, hlink', h.link], ?_, fun k => by rw [hcounter, hcounts, hcounter']⟩
    have hsame : ∀ l, ((s.withRowsOf t).line l).sameButList (t.line l) := fun l => by
      rw [hwith, ← h.line, ← hline']
      exact hline l
    exact ⟨hsame .F, hsame .R⟩
  case pool =>
    intro hk
    rw [← hwaits] at hk
    rw [hpool, hands.pool hk, h.pool]
  case record =>
    intro r hw hr
    rw [← hwaits] at hw
    refine (hands.record r hw hr).of_eq ?_ (fun l => ?_) (fun k => ?_) hlink (State.clock_of_device hdevice) hline hcounter
    · exact h.link.symm
    · rw [hwith, ← h.line]
    · rw [hcounter']
      rfl
  case job =>
    intro work deadline hw hj
    rw [← hwaits] at hw
    have hoffered := hands.job work deadline hw hj
    rw [encodeJob_afterBoundary, encodeJob_of_down h.down] at hoffered
    exact State.jobOffered_of_pool h.pool (hoffered.of_after hpool (State.clock_of_device hdevice))

theorem exec_downlinkBoundary {s : State} {c : Chan} {a : Active} {n : Nat} (hr : s.rowsOk) (hl : s.life c = .active a)
    (hp : a.partner = none) (hb : a.down.boundary = some n) (hn : n ≤ s.time) :
    ∃ t a', exec (.downlinkBoundary c) s = .next t ∧ s.boundaryTaken t c a a' := by
  obtain ⟨a', hrows⟩ := State.movedOn_applyBoth hr hl
  have hmoved := hrows.setLife (afterBoundary s.time a')
  have htime : (s.applyBoth c true).time = s.time := State.time_of_device hrows.device
  have hands := State.handsOn_boundary hmoved.life (item := boundaryItem c s.time a') fun i hi => by
    rw [State.time_of_device hmoved.device]
    exact boundaryItem_offerable hi
  refine ⟨_, a', ?_, hmoved.boundaryTaken hands⟩
  have hdue : s.boundaryDue c = true := by simp [State.boundaryDue, hl, hp, hb, State.reached?, State.reached, hn]
  show execDownlinkBoundary c s = _
  simp only [execDownlinkBoundary, hdue, if_true, State.takeBoundary, hrows.life, State.boundary, htime]
  rfl

end Sys2Proof.Machine
end

section
/-! SUPPORT. The four statements about the downlink boundary, from the event that it is. -/

namespace Sys2Proof.Machine

/-! ### The context after the boundary -/

/-- The quiet-interval count after a boundary, from the updated activity and the updated count (R113). -/
theorem afterBoundary_quietCount (time : Nat) (a : Active) :
    (afterBoundary time a).down.quietCount
      = (decideOutput a.radio.dtx a.updated.activity a.updated.quietCount a.fixed.quietInterval).2 := rfl

theorem afterBoundary_activity (time : Nat) (a : Active) : (afterBoundary time a).down.activity = a.updated.activity := rfl

theorem afterBoundary_lowRun (time : Nat) (a : Active) : (afterBoundary time a).down.lowRun = a.updated.lowRun := rfl

theorem afterBoundary_weakOnset (time : Nat) (a : Active) : (afterBoundary time a).down.weakOnset = a.updated.weakOnset := rfl

/-- A boundary that turns a channel QUIET clears its quiet-interval count. -/
theorem Active.updated_turns_quiet {a : Active} (hd : a.down.activity = .talk) (hu : a.updated.activity = .quiet) :
    a.updated.quietCount = 0 := by
  rw [Active.updated] at hu ⊢
  by_cases hloud : a.fixed.quietThreshold ≤ Speech.activity a.frame
  · rw [updateActivity_talk_loud hd hloud, hd] at hu
    cases hu
  · by_cases hrun : a.down.lowRun < a.fixed.hangover
    · rw [updateActivity_talk_low hd (Nat.not_le.mp hloud) hrun, hd] at hu
      cases hu
    · rw [updateActivity_talk_ends hd (Nat.not_le.mp hloud) hrun]

/-- A boundary that leaves a channel QUIET keeps its quiet-interval count. -/
theorem Active.updated_keeps_quiet {a : Active} (hd : a.down.activity = .quiet) (hu : a.updated.activity = .quiet) :
    a.updated.quietCount = a.down.quietCount := by
  by_cases hends : 2 * a.fixed.quietThreshold ≤ Speech.activity a.frame
      ∨ (a.fixed.quietThreshold ≤ Speech.activity a.frame ∧ a.down.weakOnset = true)
  · rw [Active.updated, updateActivity_quiet_ends hd hends] at hu
    cases hu
  · refine (Active.staysQuiet.updated hd ?_).2
    unfold Active.staysQuiet
    rw [not_or, not_and, Bool.not_eq_true] at hends
    by_cases hlow : Speech.activity a.frame < a.fixed.quietThreshold
    · exact .inl hlow
    · exact .inr ⟨by omega, by omega, hends.2 (by omega)⟩

/-- The detector's fields after a boundary, from the fields that it finds and the frame's activity (R110, R111, R113). -/
structure Active.judged (a : Active) (d : Downlink) : Prop where
  talk_loud : a.down.activity = .talk → a.fixed.quietThreshold ≤ Speech.activity a.frame →
    d.activity = .talk ∧ d.lowRun = 0
  talk_low : a.down.activity = .talk → Speech.activity a.frame < a.fixed.quietThreshold →
    a.down.lowRun < a.fixed.hangover → d.activity = .talk ∧ d.lowRun = a.down.lowRun + 1
  talk_ends : a.down.activity = .talk → Speech.activity a.frame < a.fixed.quietThreshold →
    a.down.lowRun = a.fixed.hangover → d.activity = .quiet ∧ d.lowRun = 0 ∧ d.weakOnset = false
  quiet_loud : a.down.activity = .quiet → 2 * a.fixed.quietThreshold ≤ Speech.activity a.frame →
    d.activity = .talk ∧ d.weakOnset = false ∧ d.lowRun = 0
  quiet_moderate : a.down.activity = .quiet → a.fixed.quietThreshold ≤ Speech.activity a.frame →
    Speech.activity a.frame < 2 * a.fixed.quietThreshold → a.down.weakOnset = false →
    d.activity = .quiet ∧ d.weakOnset = true
  quiet_again : a.down.activity = .quiet → a.fixed.quietThreshold ≤ Speech.activity a.frame →
    Speech.activity a.frame < 2 * a.fixed.quietThreshold → a.down.weakOnset = true →
    d.activity = .talk ∧ d.weakOnset = false ∧ d.lowRun = 0
  quiet_low : a.down.activity = .quiet → Speech.activity a.frame < a.fixed.quietThreshold →
    d.activity = .quiet ∧ d.weakOnset = false
  speech : a.radio.dtx = false ∨ d.activity = .talk → d.quietCount = 0
  turns : a.radio.dtx = true → a.down.activity = .talk → d.activity = .quiet → d.quietCount = 1
  stays : a.radio.dtx = true → a.down.activity = .quiet → d.activity = .quiet →
    d.quietCount = if a.down.quietCount = 0 then 1 else (a.down.quietCount + 1) % a.fixed.quietInterval

theorem Active.judged_afterBoundary (time : Nat) (a : Active) : a.judged (afterBoundary time a).down where
  talk_loud hd h := by
    rw [afterBoundary_activity, afterBoundary_lowRun, Active.updated, updateActivity_talk_loud hd h]
    exact ⟨hd, rfl⟩
  talk_low hd h hrun := by
    rw [afterBoundary_activity, afterBoundary_lowRun, Active.updated, updateActivity_talk_low hd h hrun]
    exact ⟨hd, rfl⟩
  talk_ends hd h hrun := by
    rw [afterBoundary_activity, afterBoundary_lowRun, afterBoundary_weakOnset, Active.updated,
      updateActivity_talk_ends hd h (by omega)]
    exact ⟨rfl, rfl, rfl⟩
  quiet_loud hd h := by
    rw [afterBoundary_activity, afterBoundary_lowRun, afterBoundary_weakOnset, Active.updated,
      updateActivity_quiet_ends hd (.inl h)]
    exact ⟨rfl, rfl, rfl⟩
  quiet_moderate hd h h2 hweak := by
    rw [afterBoundary_activity, afterBoundary_weakOnset, Active.updated, updateActivity_quiet_moderate hd h h2 hweak]
    exact ⟨hd, rfl⟩
  quiet_again hd h _ hweak := by
    rw [afterBoundary_activity, afterBoundary_lowRun, afterBoundary_weakOnset, Active.updated,
      updateActivity_quiet_ends hd (.inr ⟨h, hweak⟩)]
    exact ⟨rfl, rfl, rfl⟩
  quiet_low hd h := by
    rw [afterBoundary_activity, afterBoundary_weakOnset, Active.updated, updateActivity_quiet_low hd h]
    exact ⟨hd, rfl⟩
  speech h := by
    rw [afterBoundary_activity] at h
    rw [afterBoundary_quietCount, decideOutput_speech h]
  turns hdtx hd hu := by
    rw [afterBoundary_activity] at hu
    rw [afterBoundary_quietCount, hdtx, hu, decideOutput_quiet, if_pos (Active.updated_turns_quiet hd hu)]
  stays hdtx hd hu := by
    rw [afterBoundary_activity] at hu
    rw [afterBoundary_quietCount, hdtx, hu, decideOutput_quiet, Active.updated_keeps_quiet hd hu]
    split <;> rfl

/-- A boundary leaves the ring, the routing and the encoder state, and advances the sequence (R115, R118). -/
theorem afterBoundary_keeps (time : Nat) (a : Active) :
    (afterBoundary time a).down.ring = a.down.ring ∧ (afterBoundary time a).down.collecting = a.down.collecting
      ∧ (afterBoundary time a).down.entryClock = a.down.entryClock
      ∧ (afterBoundary time a).down.predictor = a.down.predictor
      ∧ (afterBoundary time a).down.stepIndex = a.down.stepIndex
      ∧ (afterBoundary time a).down.sequence = a.down.sequence + 1 := by
  rw [afterBoundary_down]
  exact ⟨rfl, rfl, rfl, rfl, rfl, rfl⟩

/-- Rows that apply leave the phase's arithmetic within a frame. -/
theorem afterBoundary_phase (time : Nat) (a : Active) :
    ((afterBoundary time a).down.phase : Int) = ((a.down.phase : Int) + a.radio.offset) % 160 :=
  Int.toNat_of_nonneg (Int.emod_nonneg _ (by decide))

/-! ### The statements -/

/-- Settles O6: the event's frame, with the detector's fields by the activity that the boundary finds. -/
theorem boundaryUpdatesTheDownlinkFields : Obligations.BoundaryUpdatesTheDownlinkFields := by
  intro c s a n hr hl hp hb hn
  obtain ⟨t, a', hexec, ht⟩ := exec_downlinkBoundary hr hl hp hb hn
  have ha' := ht.rows.1
  have hdown : a'.down = a.down := by rw [ha']
  have hjudged := Active.judged_afterBoundary s.time a'
  have hphase := afterBoundary_phase s.time a'
  have hlines : ∀ l, { s.line l with
      row := (t.line l).row, lineEvents := (t.line l).lineEvents }.sameButList (t.line l) := fun l => by
    have h := ht.line l
    rw [State.line_withRowsOf] at h
    exact h
  have htag : a'.tag = a.tag := by rw [ha']
  have hpartner : a'.partner = none := by rw [ha', hp]
  have hcopyF : a'.copyF = a.copyF := by rw [ha']
  have hcopyR : a'.copyR = a.copyR := by rw [ha']
  have hup : a'.up = a.up := by rw [ha']
  obtain ⟨hring, hcollecting, hentry, hpredictor, hstep, hsequence⟩ := afterBoundary_keeps s.time a'
  rw [hdown] at hphase hring hcollecting hentry hpredictor hstep hsequence
  obtain ⟨hloud, hlow, hends, hqloud, hmoderate, hagain, hqlow, hspeech, hturns, hstays⟩ := hjudged
  rw [hdown] at hloud hlow hends hqloud hmoderate hagain hqlow hturns hstays
  refine ⟨t, a', _, _, hexec, ht.device, ht.others, ht.rows, rfl, ht.life, hlines, ht.continuity, ht.events,
    htag, rfl, rfl, hpartner, hcopyF, hcopyR, hup, hring, hcollecting, hentry, hpredictor, hstep, hsequence, rfl, hphase,
    hloud, hlow, hends, hqloud, hmoderate, hagain, hqlow, hspeech, hturns, hstays⟩

/-- Settles O7: the item of the decision, held or offered. -/
theorem boundaryOffersTheEncodeJob : Obligations.BoundaryOffersTheEncodeJob := by
  intro c s a n hr hl hp hb hn
  obtain ⟨t, a', hexec, ht⟩ := exec_downlinkBoundary hr hl hp hb hn
  have hdown : a'.down = a.down := by rw [ht.rows.1]
  obtain ⟨-, -, -, hpredictor, hstep, -⟩ := afterBoundary_keeps s.time a'
  rw [hdown] at hpredictor hstep
  refine ⟨t, a', _, hexec, ht.rows, ht.life, fun hspeech => ?_⟩
  have hitem := hspeech.item c s.time
  rw [hdown] at hitem
  obtain ⟨hlink, hlines, hcounters⟩ := ht.kept (.inr fun r => by rw [hitem]; nofun)
  refine ⟨ht.device, ht.others, hlink, hlines, hcounters, hpredictor, hstep,
    fun work hwork => ⟨fun hw => ?_, fun hpool hheld => ?_⟩⟩
  · have hwaits := (s.waits_iff c a).mpr hw
    refine ⟨ht.pool (.inl hwaits), ?_⟩
    rw [if_pos hwaits, hitem, hwork]
    rfl
  · have hwaits := (s.waits_eq_false_iff c a).mpr ⟨hpool, hheld⟩
    refine ⟨if_neg (by simp [hwaits]), ?_⟩
    rw [hwork]
    exact ht.job _ _ hwaits hitem

/-- Settles O8: the record of the decision, held or offered; or nothing. -/
theorem boundarySendsTheQuietRecord : Obligations.BoundarySendsTheQuietRecord := by
  intro c s a n hr hl hp hb hn
  obtain ⟨t, a', hexec, ht⟩ := exec_downlinkBoundary hr hl hp hb hn
  have hdown : a'.down = a.down := by rw [ht.rows.1]
  obtain ⟨-, -, -, hpredictor, hstep, -⟩ := afterBoundary_keeps s.time a'
  rw [hdown] at hpredictor hstep
  refine ⟨t, a', _, _, hexec, ht.rows, ht.life, rfl, fun h => ?_, fun h => ?_, fun r hrecord h => ?_⟩
  · have hpool := ht.pool (.inr fun work deadline => by
      rcases h with h | h
      · rw [h.item]
        nofun
      · rw [h.item]
        nofun)
    exact ⟨ht.device, ht.others, hpool, hpredictor, hstep,
      ht.continuity⟩
  · have hitem := h.item c s.time
    obtain ⟨hlink, hlines, hcounters⟩ := ht.kept (.inr fun r => by rw [hitem]; nofun)
    refine ⟨hlink, ?_, hlines, hcounters⟩
    rw [hitem]
    exact s.held_nothing c a
  · have hitem := h.item c s.time
    rw [hdown, ← hrecord] at hitem
    refine ⟨fun hw => ?_, fun hpool hheld => ?_⟩
    · have hwaits := (s.waits_iff c a).mpr hw
      obtain ⟨hlink, hlines, hcounters⟩ := ht.kept (.inl hwaits)
      refine ⟨hlink, hlines, ?_, hcounters⟩
      rw [if_pos hwaits, hitem]
      rfl
    · have hwaits := (s.waits_eq_false_iff c a).mpr ⟨hpool, hheld⟩
      exact ⟨if_neg (by simp [hwaits]), ht.record r hwaits hitem⟩

/-- Settles O10: the rows as the event applies them; a TIMESLOT stands in an F row alone. -/
theorem boundaryAppliesThePendingRow : Obligations.BoundaryAppliesThePendingRow := by
  intro c s l a n hr hl hp hb hn hpending
  obtain ⟨t, a', hexec, ht⟩ := exec_downlinkBoundary hr hl hp hb hn
  obtain ⟨ha', hrow, -, hradio, -, hfixed⟩ := ht.rows
  have hdown : a'.down = a.down := by rw [ha']
  obtain ⟨hring, hcollecting, -⟩ := afterBoundary_keeps s.time a'
  have hphase := afterBoundary_phase s.time a'
  rw [hdown] at hring hcollecting hphase
  refine ⟨t, _, hexec, ht.life, ht.device, ?_, fun hmask => ?_, fun hF => ?_, fun hR => ?_, fun v x hv hx => ?_⟩
  · rw [hrow, if_pos hpending]
  · have happlied : (s.appliedFor l c).kinds.getLsbD Kind.commitApplied.bit = true := by
      rw [State.appliedFor, if_pos hpending]
      exact State.recordedFor_bit hmask _
    have hreported : ∀ (p : Prop) [Decidable p],
        (if p then s.appliedFor l c else s.recordedFor l .activityChanged (s.appliedFor l c)).kinds.getLsbD
          Kind.commitApplied.bit = true := fun p _ => by
      split
      · exact happlied
      · exact s.recordedFor_keeps l _ happlied
    rw [ht.events l]
    exact hreported _
  · subst hF
    obtain ⟨hset, hno, -⟩ := hfixed hpending
    exact ⟨hset, hno⟩
  · subst hR
    exact ⟨a'.radio, hradio hpending, rfl, rfl, hphase⟩
  · cases l with
    | R =>
      exact absurd hv (Row.timeslot?_eq_none.mp (hr .R).1.timeslot?_R v)
    | F =>
      obtain ⟨-, -, hmove⟩ := hfixed hpending
      obtain ⟨hx, hslots, hown, hnew⟩ := hmove v x hv hx
      exact ⟨hx, hslots, hring, hcollecting, hown, hnew⟩

end Sys2Proof.Machine
end

section
/-! SUPPORT. The instant of a spliced channel: what the window's state chooses, what goes toward the partner, what the
channel accounts. -/

namespace Sys2Proof.Machine

/-! ### The choice (R155) -/

/-- The item that something sent toward a partner hands on (R155 to R157). -/
def Sent.item (sent : Sent) (target : Active) (time : Nat) : Option Held :=
  match sent with
  | .record r => some (.record r)
  | .translation samples =>
    some (.job { source := .translation, mode := target.radio.active, samples, sequence := target.down.sequence }
      (time + 80))
  | .nothing | .missed => none

theorem directEligible_iff (f : SpeechFrame) (b : Active) : directEligible f (.active b) = true ↔ b.admits f := by
  simp [directEligible, Active.admits]

/-- A window of a settled state chooses as R155 states, for a channel whose next instant is set. -/
theorem chooseSplice_spec (a : Active) (comfort : Bool) {w : WindowState} (d : Chan) (b : Active) (time : Nat)
    (hwaiting : w ≠ .waiting) (hdecoding : ∀ f held, w ≠ .decoding f held) :
    ∃ sent up comfort',
      chooseSplice (a.nextInstant time) comfort w d (.active b) b.down.sequence
          = some (sent, { up with instant := time + 160 }, comfort')
        ∧ a.splicedRow comfort w d b time (sent.item b time) (decide (sent = .missed)) up comfort'
        ∧ up.queue = a.up.queue
        ∧ ∀ i, sent.item b time = some i → i.offerable d time := by
  have hrecord : ∀ o rest i, some (Held.record (sealRecord (o :: BitVec.ofNat 8 d.val :: rest))) = some i →
      i.offerable d time := fun o rest i hi => by
    cases hi
    exact recordChannel_sealRecord o d rest
  cases w with
  | waiting => exact absurd rfl hwaiting
  | decoding f held => exact absurd rfl (hdecoding f held)
  | direct f =>
    by_cases hf : b.admits f
    · have he := (directEligible_iff f b).mpr hf
      refine ⟨.record (relabelledSpeech d b.down.sequence f), { a.up with lossRun := 0 }, false, ?_,
        ⟨rfl, rfl, fun _ => ⟨rfl, rfl⟩, fun h => absurd hf h⟩, rfl, hrecord _ _⟩
      simp only [chooseSplice, he, if_true]
      rfl
    · have he : ¬directEligible f (.active b) = true := fun he => hf ((directEligible_iff f b).mp he)
      refine ⟨.missed, { a.up with lossRun := 0 }, false, ?_,
        ⟨rfl, rfl, fun h => absurd h hf, fun _ => ⟨rfl, rfl⟩⟩, rfl, nofun⟩
      simp only [chooseSplice, if_neg he]
      rfl
  | ready f block =>
    by_cases hf : b.admits f
    · have he := (directEligible_iff f b).mpr hf
      refine ⟨.record (relabelledSpeech d b.down.sequence f), { a.up with lastGood := block, lossRun := 0 }, false, ?_,
        ⟨rfl, rfl, rfl, fun _ => rfl, fun h => absurd hf h⟩, rfl, hrecord _ _⟩
      simp only [chooseSplice, he, if_true]
      rfl
    · have he : ¬directEligible f (.active b) = true := fun he => hf ((directEligible_iff f b).mp he)
      refine ⟨.translation (Speech.gainBlock a.fixed.gainToFixed block),
        { a.up with lastGood := block, lossRun := 0 }, false, ?_,
        ⟨rfl, rfl, rfl, fun h => absurd h hf, fun _ => rfl⟩, rfl, fun i hi => ?_⟩
      · simp only [chooseSplice, if_neg he]
        rfl
      · cases hi
        exact Nat.lt_add_of_pos_right (by decide)
  | quietNoted level =>
    refine ⟨_, { a.up with comfortLevel := min 63 level.toNat, lossRun := 0 }, true, rfl, ⟨rfl, rfl, rfl, rfl⟩, rfl, ?_⟩
    exact hrecord _ _
  | closed =>
    cases comfort with
    | true => exact ⟨.nothing, a.up, true, rfl, ⟨rfl, rfl, rfl, rfl⟩, rfl, nofun⟩
    | false =>
      exact ⟨.nothing, { a.up with lossRun := min 255 (a.up.lossRun + 1) }, false, rfl, ⟨rfl, rfl, rfl, rfl⟩, rfl, nofun⟩

/-! ### What goes toward the partner (R155 to R157, R160) -/

/-- An event from `s` to `t` that sends something toward the downlink of an ACTIVE channel, or loses it: what it does and
what it leaves. -/
structure State.sentOn (s t : State) (d : Chan) (b : Active) (item : Option Held) (lost : Bool) : Prop where
  device : t.device = s.device
  slot : ∀ x, t.slot x = s.slot x
  others : s.sameChannels t [d]
  life : t.life d = .active { b with down := { b.down with
    held := if s.waits d b = true then b.down.held ++ item.toList else [] } }
  continuity : (t.chan d).continuity = (s.chan d).continuity
  events : ∀ l, (t.chan d).events l
    = if lost = true then s.warnedFor l .encodeMiss ((s.chan d).events l) else (s.chan d).events l
  line : ∀ l, { s.line l with lineEvents := (t.line l).lineEvents }.sameButList (t.line l)
  missed : lost = true → ∀ k, (t.chan d).counter k
    = if k = .encodeMisses then saturatingSucc ((s.chan d).counter k) else (s.chan d).counter k
  counted : lost = false → s.waits d b = true ∨ (∀ r, item ≠ some (.record r)) →
    ∀ k, (t.chan d).counter k = (s.chan d).counter k
  kept : s.waits d b = true ∨ (∀ r, item ≠ some (.record r)) → t.link = s.link ∧ ∀ l, t.line l = s.line l
  pool : s.waits d b = true ∨ (∀ work deadline, item ≠ some (.job work deadline)) → t.pool = s.pool
  record : ∀ r, s.waits d b = false → item = some (.record r) → s.recordCounted t d r
  job : ∀ work deadline, s.waits d b = false → item = some (.job work deadline) →
    s.jobOffered t (b.encodeJob d work deadline)

theorem State.handsOn.sentOn {s t : State} {d : Chan} {b : Active} {item : Option Held} (h : s.handsOn t d b item) :
    s.sentOn t d b item false where
  device := h.device
  slot := h.slot
  others := h.others
  life := h.life
  continuity := h.continuity
  events := h.events
  line := h.line
  missed := nofun
  counted _ hk := (h.kept hk).2.2
  kept hk := ⟨(h.kept hk).1, (h.kept hk).2.1⟩
  pool := h.pool
  record := h.record
  job := h.job

/-- A miss is counted and warned of, and changes nothing else (R119, R157). -/
theorem State.chan_encodeMiss (s : State) (c d : Chan) :
    (s.encodeMiss c).chan d
      = if c = d then
          { (s.chan d).count .encodeMisses with
            eventsF := s.warnedFor .F .encodeMiss (s.chan d).eventsF
            eventsR := s.warnedFor .R .encodeMiss (s.chan d).eventsR }
        else s.chan d := by
  have hset : ∀ l e, (s.count c .encodeMisses).warnedFor l .encodeMiss e = s.warnedFor l .encodeMiss e := fun l e =>
    State.warnedFor_of_settings (by simp) _ e
  rw [State.encodeMiss, State.chan_warn, hset, hset, State.count, State.chan_mapChan]
  split
  · rfl
  · rfl

theorem State.sentOn_encodeMiss {s : State} {d : Chan} {b : Active} (hl : s.life d = .active b) :
    s.sentOn (s.encodeMiss d) d b none true where
  device := by simp
  slot := by simp
  others e he := by rw [State.chan_encodeMiss, if_neg fun h => he (List.mem_singleton.mpr h.symm)]
  life := by
    rw [s.held_nothing, State.life_def, State.chan_encodeMiss, if_pos rfl]
    exact hl
  continuity := by rw [State.chan_encodeMiss, if_pos rfl]; rfl
  events l := by
    rw [State.chan_encodeMiss, if_pos rfl, if_pos rfl]
    cases l <;> rfl
  line l := by rw [State.line_encodeMiss]; rfl
  missed _ k := by
    have h := s.counter_count d k .encodeMisses
    rw [State.count, State.chan_mapChan_self] at h
    rw [State.chan_encodeMiss, if_pos rfl]
    exact h
  counted := nofun
  kept _ := ⟨by simp, by simp⟩
  pool _ := by simp
  record _ _ h := nomatch h
  job _ _ _ h := nomatch h

theorem State.sentOn_sendToward {s : State} {d : Chan} {b : Active} (hl : s.life d = .active b) (sent : Sent)
    (hi : ∀ i, sent.item b s.time = some i → i.offerable d s.time) :
    s.sentOn (s.sendToward d b sent) d b (sent.item b s.time) (decide (sent = .missed)) := by
  cases sent with
  | nothing => exact (State.handsOn_nothing hl).sentOn
  | record r => exact (State.handsOn_handOn hl (hi _ rfl)).sentOn
  | translation samples => exact (State.handsOn_handOn hl (hi _ rfl)).sentOn
  | missed => exact State.sentOn_encodeMiss hl

/-! ### What the channel accounts (R98, R102) -/

/-- A concealed instant is counted, and warned of where the loss run reaches its limit. -/
theorem State.chan_concealed (s : State) (c d : Chan) (a : Active) (n : Nat) :
    (s.concealed c a n).chan d
      = if c = d then
          { (s.chan d).count .blocksConcealed with
            eventsF := if n = a.fixed.lossToMute then s.warnedFor .F .muted (s.chan d).eventsF else (s.chan d).eventsF
            eventsR := if n = a.fixed.lossToMute then s.warnedFor .R .muted (s.chan d).eventsR else (s.chan d).eventsR }
        else s.chan d := by
  have hset : ∀ l e, (s.count c .blocksConcealed).warnedFor l .muted e = s.warnedFor l .muted e := fun l e =>
    State.warnedFor_of_settings (by simp) _ e
  unfold State.concealed
  dsimp only
  split
  · rw [State.chan_warn, hset, hset, State.count, State.chan_mapChan]
    split <;> rfl
  · rw [State.count, State.chan_mapChan]
    split <;> rfl

/-- The state after an instant that conceals where `p` holds. -/
def State.concealedIf (s : State) (p : Prop) [Decidable p] (c : Chan) (a : Active) (n : Nat) : State :=
  if p then s.concealed c a n else s

/-- An event from `s` to `t` that accounts a concealed instant of a channel where `p` holds. -/
structure State.accounts (s t : State) (p : Prop) (c : Chan) (a : Active) (n : Nat) : Prop where
  device : t.device = s.device
  pool : t.pool = s.pool
  link : t.link = s.link
  slot : ∀ x, t.slot x = s.slot x
  line : ∀ l, t.line l = s.line l
  others : s.sameChannels t [c]
  life : t.life c = s.life c
  continuity : (t.chan c).continuity = (s.chan c).continuity
  counted : ∀ k, p → (t.chan c).counter k
    = if k = .blocksConcealed then saturatingSucc ((s.chan c).counter k) else (s.chan c).counter k
  warned : ∀ l, p → (t.chan c).events l
    = if n = a.fixed.lossToMute then s.warnedFor l .muted ((s.chan c).events l) else (s.chan c).events l
  kept : ¬p → t = s

theorem State.accounts_concealedIf (s : State) (p : Prop) [Decidable p] (c : Chan) (a : Active) (n : Nat) :
    s.accounts (s.concealedIf p c a n) p c a n := by
  unfold State.concealedIf
  split
  · next hp =>
    have hchan := s.chan_concealed c
    have hself := hchan c a n
    rw [if_pos rfl] at hself
    refine ⟨by simp, by simp, by simp, by simp, by simp, fun d hd => ?_, ?_, ?_, fun k _ => ?_, fun l _ => ?_,
      fun h => absurd hp h⟩
    · rw [hchan, if_neg fun h => hd (List.mem_singleton.mpr h.symm)]
    · rw [State.life_def, hself]
      rfl
    · rw [hself]
      rfl
    · have h := s.counter_count c k .blocksConcealed
      rw [State.count, State.chan_mapChan_self] at h
      rw [hself]
      exact h
    · rw [hself]
      cases l <;> rfl
  · next hp =>
    exact ⟨rfl, rfl, rfl, fun _ => rfl, fun _ => rfl, fun _ _ => rfl, rfl, rfl, fun _ h => absurd h hp,
      fun _ h => absurd h hp, fun _ => rfl⟩

/-! ### The partner's sequence (R115, R159) -/

theorem State.chan_advanceSequence {s : State} {d : Chan} {b : Active} (hl : s.life d = .active b) (e : Chan) :
    (s.advanceSequence d).chan e
      = if d = e then
          { s.chan e with life := .active { b with down := { b.down with sequence := b.down.sequence + 1 } } }
        else s.chan e := by
  rw [State.advanceSequence, State.chan_mapActive]
  split
  · next he => rw [Channel.mapActive_of_active (he ▸ hl)]
  · rfl

end Sys2Proof.Machine
end

section
/-! SUPPORT. The statement about the instant of a spliced channel, in PRIMING and in PLAYING or COMFORT. -/

namespace Sys2Proof.Machine

/-! ### The command -/

/-- Any other window of a spliced channel than a WAITING or a DECODING one may stand at its instant (R91, R154). -/
theorem WindowState.settled_spliced {w : WindowState} (hwaiting : w ≠ .waiting)
    (hdecoding : ∀ f held, w ≠ .decoding f held) : w.settled true = true := by
  cases w with
  | waiting => exact absurd rfl hwaiting
  | decoding f held => exact absurd rfl (hdecoding f held)
  | ready f block | quietNoted level | closed | direct f => rfl

/-- An instant of a spliced channel that is due applies the partner's rows and goes on from them (R155). -/
theorem exec_playoutInstant_spliced {s : State} {c d : Chan} {a b' : Active} (hl : s.life c = .active a)
    (hp : a.partner = some d) (hi : a.up.instant ≤ s.time)
    (hw : ∀ comfort expected w, a.up.stream = .running comfort expected w → w.state.settled true = true)
    (hd : (s.applyBoth d true).life d = .active b') :
    exec (.playoutInstant c) s
      = .next ((s.applyBoth d true).splicedInstant c (a.nextInstant s.time) d b').settle := by
  have hdue : s.instantDue c = true := by
    cases hs : a.up.stream with
    | priming reference count => simp [State.instantDue, hl, hs, State.reached, hi]
    | running comfort expected w => simp [State.instantDue, hl, hs, State.reached, hi, hp, hw _ _ _ hs]
  show execPlayoutInstant c s = _
  simp only [execPlayoutInstant, hdue, if_true, State.takeInstant, hl, hp, hd]

theorem State.movedOn.advanceSequence {s u : State} {d : Chan} {b b' x : Active} (h : s.movedOn u d b b' x) :
    s.movedOn (u.advanceSequence d) d b b' { x with down := { x.down with sequence := x.down.sequence + 1 } } where
  rows := h.rows.of_after (by simp) (by simp)
  device := by rw [State.device_advanceSequence, h.device]
  pool := by rw [State.pool_advanceSequence, h.pool]
  link := by rw [State.link_advanceSequence, h.link]
  others e he := by
    rw [State.chan_advanceSequence h.life, if_neg fun hd => he (List.mem_singleton.mpr hd.symm), h.others e he]
  chan := by rw [State.chan_advanceSequence h.life, if_pos rfl, h.chan]
  line l := by
    rw [State.line_advanceSequence, h.line, State.withRowsOf_of_rows (t := u) (t' := u.advanceSequence d) s (by simp)]

/-! ### In PRIMING -/

/-- An event from `v` to `t` that changes of the contexts the parts of channel `c` alone, beside the pool and the event
lists. -/
structure State.streams (v t : State) (c : Chan) : Prop where
  device : t.device = v.device
  link : t.link = v.link
  slot : ∀ x, t.slot x = v.slot x
  line : ∀ l, (v.line l).sameButList (t.line l)
  chan : v.sameButLife t c

theorem State.movedOn.rows_streams {s v t : State} {c d : Chan} {b b' x : Active} (h : s.movedOn v d b b' x)
    (ht : v.streams t c) : s.rowsApplied t d b b' :=
  h.rows.of_after (fun l => (ht.line l).row_eq) ht.slot

theorem State.movedOn.others_streams {s v t : State} {c d : Chan} {b b' x : Active} (h : s.movedOn v d b b' x)
    (ht : v.streams t c) : s.sameChannels t [c, d] := fun e he => by
  obtain ⟨hc, hd⟩ : e ≠ c ∧ e ≠ d := by simpa using he
  rw [ht.chan e, if_neg (Ne.symm hc), h.others e (by simpa using hd)]

theorem State.movedOn.line_streams {s v t : State} {c d : Chan} {b b' x : Active} (h : s.movedOn v d b b' x)
    (ht : v.streams t c) (l : Line) : { s.line l with row := (t.line l).row }.sameButList (t.line l) := by
  have hline := ht.line l
  rw [h.line, State.line_withRowsOf] at hline
  rw [(ht.line l).row_eq]
  exact hline

/-- Whether priming ends at an instant, by the depth of the queue or by the count (R89). -/
def Active.primed (a : Active) (count : Nat) : Prop :=
  a.fixed.primingDepth ≤ a.up.queue.length ∨ a.fixed.primingDepth + 2 ≤ min 255 (count + 1)

/-- The priming part of an instant counts on, or opens the first window with the head frame. -/
theorem State.primingInstant_spec {v : State} {c d : Chan} {a y : Active} (hl : v.life c = .active a)
    (hp : a.partner = some d) (hdc : d ≠ c) (hy : v.life d = .active y) (reference : Option (BitVec 8)) (count : Nat)
    (time : Nat) :
    ∃ queue stream,
      v.sameButLife (v.primingInstant c (a.nextInstant time) reference count) c
        ∧ (v.primingInstant c (a.nextInstant time) reference count).life c
          = .active { a with up := { a.up with instant := time + 160, queue, stream } }
        ∧ (a.up.queue = [] ∨ ¬a.primed count →
          queue = a.up.queue ∧ stream = .priming reference (min 255 (count + 1))
            ∧ (v.primingInstant c (a.nextInstant time) reference count).pool = v.pool)
        ∧ ∀ head rest, a.up.queue = head :: rest → a.primed count →
          ∃ next, stream = .running false head.sequence { deadline := v.time + 152, state := next }
            ∧ v.windowOpens (v.primingInstant c (a.nextInstant time) reference count) c (some y) a.up.queue head.sequence
              queue next := by
  by_cases hends : a.up.queue ≠ [] ∧ a.primed count
  · obtain ⟨hne, hprimed⟩ := hends
    obtain ⟨head, rest, hq⟩ := List.exists_cons_of_ne_nil hne
    have hopen : v.primingInstant c (a.nextInstant time) reference count
        = v.openWindow c (a.nextInstant time).up false head.sequence :=
      v.primingInstant_ends c (a := a.nextInstant time) reference hq hprimed
    obtain ⟨queue, next, hopens, hlife⟩ := State.windowOpens_openWindow hl (some y) (.inr ⟨d, y, hp, hdc, hy, rfl⟩)
      (a.nextInstant time).up false head.sequence
    rw [hopen]
    refine ⟨queue, _, v.sameButLife_openWindow c _ _ _, hlife, fun h => ?_, fun head' rest' hq' _ => ?_⟩
    · rcases h with h | h
      · exact absurd h hne
      · exact absurd hprimed h
    · rw [hq] at hq'
      cases hq'
      exact ⟨next, rfl, hopens⟩
  · have hgoes : v.primingInstant c (a.nextInstant time) reference count
        = v.setUp c { (a.nextInstant time).up with stream := .priming reference (min 255 (count + 1)) } := by
      cases hq : a.up.queue with
      | nil =>
        have hq' : (a.nextInstant time).up.queue = [] := hq
        simp only [State.primingInstant, hq']
      | cons head rest =>
        have hnot : ¬a.primed count := fun h => hends ⟨by simp [hq], h⟩
        refine v.primingInstant_goes_on c (a := a.nextInstant time) reference fun h => hnot ?_
        exact h.imp id And.right
    rw [hgoes]
    refine ⟨a.up.queue, .priming reference (min 255 (count + 1)), v.sameButLife_mapActive c _, ?_,
      fun _ => ⟨rfl, rfl, by simp⟩, fun head rest hq h => absurd ⟨by simp [hq], h⟩ hends⟩
    rw [State.setUp, State.life_def, State.chan_mapActive_self, Channel.mapActive_of_active hl]
    rfl

/-- What a window does follows from what its channel's partner admits alone (R154). -/
theorem State.windowOpens.of_partner {s t : State} {c : Chan} {y b : Active} {queue rest : List Frame}
    {expected : BitVec 8} {w : WindowState} (h : s.windowOpens t c (some y) queue expected rest w)
    (hf : y.fixed = b.fixed) (hr : y.radio = b.radio) : s.windowOpens t c (some b) queue expected rest w := by
  have hadmits : ∀ g, y.admits g ↔ b.admits g := fun g => by rw [Active.admits, hf, hr, Active.admits]
  obtain ⟨hwaits, htakes⟩ := h
  refine ⟨hwaits, fun ahead f behind hq he hn => ?_⟩
  obtain ⟨hrest, hw⟩ := htakes ahead f behind hq he hn
  refine ⟨hrest, ?_⟩
  cases f with
  | quiet n level => exact hw
  | speech g => exact ⟨fun hg => hw.1 ((hadmits g).mpr hg), fun hg => hw.2 fun hy => hg ((hadmits g).mp hy)⟩

/-! ### In PLAYING and COMFORT -/

/-- An instant of channel `c` in PLAYING or COMFORT, spliced to `d`, from `s` to `t` but for the event lists: the partner's
rows apply (`s1`), something goes toward the partner (`z`), the channel accounts (`y`), the partner's sequence advances and
the next window opens (R155). -/
structure State.forwards (s s1 z y t : State) (c d : Chan) (a b b' : Active) (item : Option Held) (lost : Bool)
    (conceals : Prop) (lossRun : Nat) : Prop where
  ne : c ≠ d
  moved : s.movedOn s1 d b b' b'
  sent : s1.sentOn z d b' item lost
  accounted : z.accounts y conceals c a lossRun
  opened : (y.advanceSequence d).sameButLife t c
  device : t.device = y.device
  link : t.link = y.link
  slot : ∀ x, t.slot x = y.slot x
  line : ∀ l, t.line l = y.line l

section Forwards

variable {s s1 z y t : State} {c d : Chan} {a b b' : Active} {item : Option Held} {lost : Bool} {conceals : Prop}
  {lossRun : Nat} (h : s.forwards s1 z y t c d a b b' item lost conceals lossRun)
include h

theorem State.forwards.line_sent (l : Line) : t.line l = z.line l := by
  rw [h.line, h.accounted.line]

theorem State.forwards.link_sent : t.link = z.link := by
  rw [h.link, h.accounted.link]

theorem State.forwards.device_eq : t.device = s.device := by
  rw [h.device, h.accounted.device, h.sent.device, h.moved.device]

theorem State.forwards.waits_eq : s1.waits d b' = s.waits d b :=
  State.waits_of_pool h.moved.pool d (by rw [h.moved.down])

theorem State.forwards.chan_accounted : y.chan d = z.chan d :=
  h.accounted.others d fun hd => h.ne (List.mem_singleton.mp hd).symm

theorem State.forwards.life_accounted :
    y.life d = .active { b' with down := { b'.down with
      held := if s1.waits d b' = true then b'.down.held ++ item.toList else [] } } :=
  (congrArg Channel.life h.chan_accounted).trans h.sent.life

/-- The partner's context: the items that wait, and the sequence advanced. -/
theorem State.forwards.chan_partner :
    t.chan d = { z.chan d with life := .active { b' with down := { b'.down with
      sequence := b.down.sequence + 1
      held := if s.waits d b = true then b.down.held ++ item.toList else [] } } } := by
  have hy := h.chan_accounted
  rw [h.opened d, if_neg h.ne, State.chan_advanceSequence h.life_accounted, if_pos rfl, hy, h.waits_eq, h.moved.down]

/-- The channel's context: what it accounts, beside its uplink. -/
theorem State.forwards.chan_self : t.chan c = { y.chan c with life := t.life c } := by
  rw [h.opened c, if_pos rfl, State.chan_advanceSequence h.life_accounted, if_neg (Ne.symm h.ne)]

theorem State.forwards.chan_found : z.chan c = s.chan c := by
  have hc : c ∉ [d] := fun hc => h.ne (List.mem_singleton.mp hc)
  rw [h.sent.others c hc, h.moved.others c hc]

theorem State.forwards.sameChannels : s.sameChannels t [c, d] := fun e he => by
  obtain ⟨hc, hd⟩ : e ≠ c ∧ e ≠ d := by simpa using he
  rw [h.opened e, if_neg (Ne.symm hc), State.chan_advanceSequence h.life_accounted, if_neg (Ne.symm hd),
    h.accounted.others e (by simpa using hc), h.sent.others e (by simpa using hd), h.moved.others e (by simpa using hd)]

theorem State.forwards.rows : s.rowsApplied t d b b' :=
  h.moved.rows.of_after (fun l => by rw [h.line_sent, (h.sent.line l).row_eq])
    fun x => by rw [h.slot, h.accounted.slot, h.sent.slot]

theorem State.forwards.sameButList (l : Line) :
    { s.line l with row := (t.line l).row, lineEvents := (t.line l).lineEvents }.sameButList (t.line l) := by
  have hsent := h.sent.line l
  rw [h.moved.line, State.line_withRowsOf] at hsent
  rw [h.line_sent, hsent.row_eq]
  exact hsent

/-- An instant that conceals is counted on the channel, and no other counter moves. -/
theorem State.forwards.counter_self [Decidable conceals] (k : Counter) :
    (t.chan c).counter k
      = if k = .blocksConcealed ∧ conceals then saturatingSucc ((s.chan c).counter k) else (s.chan c).counter k := by
  rw [h.chan_self, ← h.chan_found]
  show (y.chan c).counter k = _
  by_cases hp : conceals
  · simp only [h.accounted.counted k hp, hp, and_true]
  · rw [h.accounted.kept hp, if_neg fun hk => hp hk.2]

theorem State.forwards.events_self [Decidable conceals] (l : Line) :
    (t.chan c).events l
      = if conceals ∧ lossRun = a.fixed.lossToMute then s.warnedFor l .muted ((s.chan c).events l)
        else (s.chan c).events l := by
  have hsettings : (z.line l).settings = (s.line l).settings :=
    (h.sent.line l).settings_eq.trans (h.moved.settings l)
  have hself : (t.chan c).events l = (y.chan c).events l := by
    rw [h.chan_self]
    cases l <;> rfl
  rw [hself, ← h.chan_found]
  by_cases hp : conceals
  · simp only [h.accounted.warned l hp, hp, true_and, State.warnedFor_of_settings hsettings]
  · rw [h.accounted.kept hp, if_neg fun hk => hp hk.1]

theorem State.forwards.events_partner (l : Line) :
    (t.chan d).events l = if lost = true then s.warnedFor l .encodeMiss (s.appliedFor l d) else s.appliedFor l d := by
  have happlied : (s1.chan d).events l = s.appliedFor l d := by
    rw [h.moved.chan]
    cases l <;> rfl
  have hsent := h.sent.events l
  rw [happlied, State.warnedFor_of_settings (h.moved.settings l)] at hsent
  rw [h.chan_partner]
  exact hsent

theorem State.forwards.counter_partner (k : Counter) : (t.chan d).counter k = (z.chan d).counter k := by
  rw [h.chan_partner]
  rfl

theorem State.forwards.counter_found (k : Counter) : (s1.chan d).counter k = (s.chan d).counter k := by
  rw [h.moved.chan]
  rfl

/-- A record that goes toward the partner straight away, as the part stood before the instant. -/
theorem State.forwards.recordCounted {r : Record} (hw : s.waits d b = false) (hr : item = some (.record r)) :
    (s.withRowsOf s1).recordCounted t d r :=
  (h.sent.record r (h.waits_eq.trans hw) hr).of_eq h.moved.link.symm (fun l => (h.moved.line l).symm)
    (fun k => (h.counter_found k).symm) h.link_sent
    (State.clock_of_device (h.device.trans h.accounted.device))
    (fun l => by rw [h.line_sent]; rfl) h.counter_partner

theorem State.forwards.continuity_self : (t.chan c).continuity = (s.chan c).continuity := by
  rw [h.chan_self]
  exact h.accounted.continuity.trans (congrArg Channel.continuity h.chan_found)

theorem State.forwards.continuity_partner : (t.chan d).continuity = (s.chan d).continuity := by
  rw [h.chan_partner]
  refine h.sent.continuity.trans ?_
  rw [h.moved.chan]

theorem State.forwards.missed_partner (hm : lost = true) (k : Counter) :
    (t.chan d).counter k
      = if k = .encodeMisses then saturatingSucc ((s.chan d).counter k) else (s.chan d).counter k := by
  rw [h.counter_partner, h.sent.missed hm, h.counter_found]

theorem State.forwards.counter_kept (hm : lost = false) (hk : s.waits d b = true ∨ (∀ r, item ≠ some (.record r)))
    (k : Counter) : (t.chan d).counter k = (s.chan d).counter k := by
  rw [h.counter_partner, h.sent.counted hm (h.waits_eq.symm ▸ hk), h.counter_found]

theorem State.forwards.link_kept (hk : s.waits d b = true ∨ (∀ r, item ≠ some (.record r))) :
    t.link = s.link ∧ ∀ l, (t.line l).lineEvents = (s.line l).lineEvents := by
  obtain ⟨hlink, hline⟩ := h.sent.kept (h.waits_eq.symm ▸ hk)
  refine ⟨by rw [h.link_sent, hlink, h.moved.link], fun l => ?_⟩
  rw [h.line_sent, hline, h.moved.line, State.line_withRowsOf]

theorem State.forwards.lineEvents_record {r : Record} (hw : s.waits d b = false) (hr : item = some (.record r)) (l : Line) :
    (t.line l).lineEvents = if s.transmit.length < 32 then (s.line l).lineEvents
      else s.recordedSet l .queueOverflow (s.line l).lineEvents := by
  have hcounted := ((h.recordCounted hw hr).2.2 l).lineEvents_eq
  rw [State.recordedSet, State.line_withRowsOf] at hcounted
  exact hcounted

/-- A job that goes toward the partner straight away is in the pool before the channel's window opens. -/
theorem State.forwards.jobOffered {work : EncodeWork} {deadline : Nat} (hw : s.waits d b = false)
    (hj : item = some (.job work deadline)) : s.jobOffered y (b.encodeJob d work deadline) := by
  have hoffered := (h.sent.job work deadline (h.waits_eq.trans hw) hj).of_after h.accounted.pool
    (State.clock_of_device h.accounted.device)
  rw [encodeJob_of_down h.moved.down] at hoffered
  exact State.jobOffered_of_pool h.moved.pool hoffered

theorem State.forwards.pool_kept (hk : s.waits d b = true ∨ (∀ work deadline, item ≠ some (.job work deadline))) :
    y.pool = s.pool := by
  rw [h.accounted.pool, h.sent.pool (h.waits_eq.symm ▸ hk), h.moved.pool]

end Forwards

/-- The instant in PLAYING or COMFORT that its window lets go on, put together. -/
theorem State.forwards_splicedInstant {s s1 : State} {c d : Chan} {a b b' : Active} (hc : c ≠ d)
    (hl : s.life c = .active a) (hp : a.partner = some d) (hmoved : s.movedOn s1 d b b' b') {comfort : Bool}
    {expected : BitVec 8} {w : Window} (hs : a.up.stream = .running comfort expected w) {sent : Sent} {up : UplinkFields}
    {comfort' : Bool}
    (hchoice : chooseSplice (a.nextInstant s.time) comfort w.state d (.active b') b'.down.sequence
      = some (sent, { up with instant := s.time + 160 }, comfort'))
    (hqueue : up.queue = a.up.queue) (hi : ∀ i, sent.item b' s.time = some i → i.offerable d s.time) :
    ∃ z y queue next,
      s.forwards s1 z y (s1.splicedInstant c (a.nextInstant s.time) d b') c d (a.nextInstant s.time) b b'
        (sent.item b' s.time) (decide (sent = .missed)) (w.state = .closed ∧ comfort = false) up.lossRun
      ∧ y.windowOpens (s1.splicedInstant c (a.nextInstant s.time) d b') c (some b') a.up.queue (expected + 1) queue next
      ∧ (s1.splicedInstant c (a.nextInstant s.time) d b').life c = .active { a with up := { up with
          instant := s.time + 160, queue
          stream := .running comfort' (expected + 1) { deadline := s.time + 152, state := next } } } := by
  have htime1 : s1.time = s.time := State.time_of_device hmoved.device
  obtain ⟨z, hz⟩ : ∃ z, z = s1.sendToward d b' sent := ⟨_, rfl⟩
  have hsent : s1.sentOn z d b' (sent.item b' s.time) (decide (sent = .missed)) := by
    rw [hz, ← htime1]
    refine State.sentOn_sendToward hmoved.life sent fun i hitem => ?_
    rw [htime1] at hitem ⊢
    exact hi i hitem
  obtain ⟨y, hy⟩ : ∃ y, y = z.concealedIf (w.state = .closed ∧ comfort = false) c (a.nextInstant s.time) up.lossRun :=
    ⟨_, rfl⟩
  have haccounted : z.accounts y (w.state = .closed ∧ comfort = false) c (a.nextInstant s.time) up.lossRun :=
    hy ▸ State.accounts_concealedIf _ _ _ _ _
  have hresult : s1.splicedInstant c (a.nextInstant s.time) d b'
      = (y.advanceSequence d).openWindow c { up with instant := s.time + 160 } comfort' (expected + 1) := by
    have hstream : (a.nextInstant s.time).up.stream = .running comfort expected w := hs
    simp only [State.splicedInstant, hstream, hchoice, hy, hz]
    rfl
  rw [hresult]
  have hforwards : s.forwards s1 z y
      ((y.advanceSequence d).openWindow c { up with instant := s.time + 160 } comfort' (expected + 1)) c d
      (a.nextInstant s.time) b b' (sent.item b' s.time) (decide (sent = .missed))
      (w.state = .closed ∧ comfort = false) up.lossRun :=
    ⟨hc, hmoved, hsent, haccounted, State.sameButLife_openWindow _ c _ _ _, by simp, by simp, by simp, by simp⟩
  have hself : (y.advanceSequence d).life c = .active a := by
    rw [State.life_def, State.chan_advanceSequence hforwards.life_accounted, if_neg (Ne.symm hc)]
    show y.life c = _
    rw [haccounted.life, State.life_def, hforwards.chan_found]
    exact hl
  have hpartner := State.chan_advanceSequence hforwards.life_accounted d
  rw [if_pos rfl] at hpartner
  obtain ⟨queue, next, hopens, hlife⟩ := State.windowOpens_openWindow hself _
    (.inr ⟨d, _, hp, Ne.symm hc, congrArg Channel.life hpartner, rfl⟩) { up with instant := s.time + 160 } comfort'
    (expected + 1)
  have htime : (y.advanceSequence d).time = s.time := by
    rw [State.time_of_device (State.device_advanceSequence y d), State.time_of_device haccounted.device,
      State.time_of_device hsent.device, htime1]
  rw [htime] at hlife
  have hopensY := State.windowOpens_of_eq (State.pool_advanceSequence y d) (State.device_advanceSequence y d)
    (hopens.of_partner (b := b') rfl rfl)
  refine ⟨z, y, queue, next, hforwards, ?_, hlife⟩
  rw [← hqueue]
  exact hopensY

/-! ### The statement -/

/-- Settles O16: in PRIMING the priming part behind the partner's rows; in PLAYING and COMFORT the row of R155 that the
window's state selects. -/
theorem splicedInstantForwardsDirectly : Obligations.SplicedInstantForwardsDirectly := by
  intro c d s a b hr hc hl hp hd hi
  obtain ⟨b', hmoved⟩ := State.movedOn_applyBoth hr hd
  constructor
  · intro reference count hs
    have hstream : (a.nextInstant s.time).up.stream = .priming reference count := hs
    have hexec := exec_playoutInstant_spliced hl hp hi (fun _ _ _ h => nomatch hs.symm.trans h) hmoved.life
    have hv := hmoved.advanceSequence
    obtain ⟨v, hvdef⟩ : ∃ v, v = (s.applyBoth d true).advanceSequence d := ⟨_, rfl⟩
    rw [← hvdef] at hv
    have hcv : v.chan c = s.chan c := hv.others c fun h => hc (List.mem_singleton.mp h)
    have hlv : v.life c = .active a := by rw [State.life_def, hcv]; exact hl
    obtain ⟨queue, stream, hbut, hlife, hgoes, hends⟩ :=
      State.primingInstant_spec hlv hp (Ne.symm hc) hv.life reference count s.time
    have hsplice : (s.applyBoth d true).splicedInstant c (a.nextInstant s.time) d b'
        = v.primingInstant c (a.nextInstant s.time) reference count := by
      simp only [State.splicedInstant, hstream, hvdef]
    rw [hsplice] at hexec
    obtain ⟨t, ht⟩ : ∃ t, t = (v.primingInstant c (a.nextInstant s.time) reference count).settle := ⟨_, rfl⟩
    rw [← ht] at hexec
    have hstreams : v.streams t c := by
      refine ⟨by simp [ht], by simp [ht], by simp [ht], fun l => ?_, ht ▸ hbut⟩
      have h := (v.primingInstant c (a.nextInstant s.time) reference count).line_sameButList_settle l
      rwa [State.line_primingInstant, ← ht] at h
    refine ⟨t, b', queue, stream, hexec, hstreams.device.trans hv.device, hv.others_streams hstreams,
      hstreams.link.trans hv.link, hv.rows_streams hstreams, hv.line_streams hstreams, ?_, ?_, fun h => ?_,
      fun head rest hq h => ?_⟩
    · rw [hstreams.chan d, if_neg hc, hv.chan, hmoved.down]
    · rw [ht, State.chan_settle, hbut.chan_self hlife, hcv]
    · obtain ⟨hqueue, hcount, hpool⟩ := hgoes h
      refine ⟨hqueue, hcount, ?_⟩
      rw [ht, State.pool_settle, hpool, hv.pool]
    · obtain ⟨next, hnext, hopens⟩ := hends head rest hq h
      refine ⟨next, ?_, ?_⟩
      · rw [hnext, State.time_of_device hv.device]
      · rw [ht]
        exact State.windowOpens_of_eq hv.pool hv.device (hopens.of_partner (b := b') rfl rfl)
  · intro comfort expected w waits hs hwaiting hdecoding hwaits
    have hexec := exec_playoutInstant_spliced hl hp hi (fun _ _ w' h => by
      rw [hs] at h
      cases h
      exact WindowState.settled_spliced hwaiting hdecoding) hmoved.life
    obtain ⟨sent, up, comfort', hchoice, hrow, hqueue, hoffer⟩ :=
      chooseSplice_spec a comfort d b' s.time hwaiting hdecoding
    obtain ⟨z, y, queue, next, h, hopens, hlife⟩ :=
      State.forwards_splicedInstant hc hl hp hmoved hs hchoice hqueue hoffer
    obtain ⟨t, ht⟩ : ∃ t, t = (s.applyBoth d true).splicedInstant c (a.nextInstant s.time) d b' := ⟨_, rfl⟩
    rw [← ht] at hexec h hopens hlife
    have hline := t.line_sameButList_settle
    obtain rfl : waits = s.waits d b := hwaits
    refine ⟨t.settle, b', sent.item b' s.time, decide (sent = .missed), up, comfort', queue, next, hexec, h.device_eq,
      h.sameChannels, h.rows.of_after (fun l => (hline l).row_eq) (fun _ => rfl), fun l => ?_, hrow, hlife,
      h.continuity_self, h.counter_self, fun l => ?_, congrArg Channel.life h.chan_partner, h.continuity_partner,
      h.events_partner, h.missed_partner, fun r hw hr => (h.recordCounted hw hr).2.1, h.counter_kept, fun hk => ?_,
      fun r hw hr => ⟨(h.recordCounted hw hr).1, fun l => ?_⟩, y, ?_, fun work deadline hw hj => h.jobOffered hw hj,
      h.pool_kept, hopens⟩
    · rw [(hline l).row_eq, (hline l).lineEvents_eq]
      exact (h.sameButList l).trans (hline l)
    · have hevents := h.events_self l
      simp only [and_assoc] at hevents
      exact hevents
    · obtain ⟨hlink, hevents⟩ := h.link_kept hk
      exact ⟨hlink, fun l => (hline l).lineEvents_eq.trans (hevents l)⟩
    · exact (hline l).lineEvents_eq.trans (h.lineEvents_record hw hr l)
    · rw [← h.device, h.device_eq]

end Sys2Proof.Machine
end

section
/-! SUPPORT. What the octets of a received record say: its implied length, whether it is readable and whether its header is
good, in the terms of R65 to R71; a formed record is read back. -/

namespace Sys2Proof

/-! ### Modes by their codes -/

theorem Mode.ofCode_code (m : Mode) : Mode.ofCode m.code = some m := by cases m <;> rfl

theorem Mode.code_ne_zero (m : Mode) : m.code ≠ 0 := by cases m <;> decide

/-- A code of two bits that is not 0 is the code of a mode. -/
theorem Mode.exists_code_eq {n : Nat} (h0 : n ≠ 0) (h : n < 4) : ∃ m : Mode, n = m.code := by
  obtain rfl | rfl | rfl : n = 1 ∨ n = 2 ∨ n = 3 := by omega
  exacts [⟨.m16, rfl⟩, ⟨.m24, rfl⟩, ⟨.m32, rfl⟩]

end Sys2Proof

namespace Sys2Proof.Machine

/-! ### The header's first octet (R65) -/

theorem recordKind_cases (o : Octet) : recordKind o = 0 ∨ recordKind o = 1 ∨ recordKind o = 2 ∨ recordKind o = 3 := by
  have := o.isLt
  unfold recordKind
  omega

theorem recordModeCode_lt (o : Octet) : recordModeCode o < 4 := Nat.mod_lt _ (by decide)

theorem recordKind_speech (m : Mode) : recordKind (BitVec.ofNat 8 (64 + 16 * m.code)) = 1 := by cases m <;> rfl

theorem recordModeCode_speech (m : Mode) : recordModeCode (BitVec.ofNat 8 (64 + 16 * m.code)) = m.code := by
  cases m <;> rfl

theorem recordKind_quiet : recordKind 0x80 = 2 := rfl

theorem recordModeCode_quiet : recordModeCode 0x80 = 0 := rfl

/-! ### The implied length (R67) -/

theorem impliedLength_speech {o : Octet} {m : Mode} (hk : recordKind o = 1) (hm : recordModeCode o = m.code) :
    impliedLength o = some (28 + 20 * m.code) := by
  simp only [impliedLength, hk, hm, Mode.ofCode_code, Option.map_some, Mode.payloadOctets, Mode.bits, Option.some.injEq]
  omega

theorem impliedLength_quiet {o : Octet} (hk : recordKind o = 2) : impliedLength o = some 6 := by
  simp only [impliedLength, hk]

theorem impliedLength_none {o : Octet}
    (h : recordKind o = 0 ∨ recordKind o = 3 ∨ (recordKind o = 1 ∧ recordModeCode o = 0)) : impliedLength o = none := by
  obtain hk | hk | ⟨hk, hm⟩ := h
  · simp only [impliedLength, hk]
  · simp only [impliedLength, hk]
  · simp only [impliedLength, hk, hm, Mode.ofCode, Option.map_none]

/-- Octets that begin with a record of its implied length are taken to that length. -/
theorem recordOctets_append {o : Octet} {rest : List Octet} (h : impliedLength o = some (o :: rest).length)
    (after : List Octet) : recordOctets (o :: rest ++ after) = o :: rest := by
  simp only [recordOctets, List.cons_append, h, Option.getD_some]
  exact List.take_left' rfl

/-! ### Readable records (R69) -/

theorem lengthReadable_cons_of_implied {o : Octet} {n : Nat} (h : impliedLength o = some n) (rest : List Octet) :
    lengthReadable (o :: rest) = true ↔ (o :: rest).length = n := by
  simp only [lengthReadable, h, decide_eq_true_iff]

theorem lengthReadable_cons_of_none {o : Octet} (h : impliedLength o = none) (rest : List Octet) :
    lengthReadable (o :: rest) = true ↔ (o :: rest).length = 6 ∨ (o :: rest).length = 48 ∨ (o :: rest).length = 68
      ∨ (o :: rest).length = 88 := by
  simp only [lengthReadable, h, Bool.or_eq_true, decide_eq_true_iff, or_assoc]

/-- The lengths of R67 and R69, with the kind and the mode code of octet 0 by their names. -/
theorem lengthAllowed_cons (o : Octet) (rest : List Octet) :
    lengthAllowed (o :: rest)
      ↔ (recordKind o = 1 → recordModeCode o ≠ 0 → (o :: rest).length = 28 + 20 * recordModeCode o)
        ∧ (recordKind o = 2 → (o :: rest).length = 6)
        ∧ (recordKind o = 0 ∨ recordKind o = 3 ∨ (recordKind o = 1 ∧ recordModeCode o = 0) →
          (o :: rest).length = 6 ∨ (o :: rest).length = 48 ∨ (o :: rest).length = 68 ∨ (o :: rest).length = 88) := by
  constructor
  · rintro ⟨first, tail, h, hlength⟩
    cases h
    exact hlength
  · exact fun h => ⟨o, rest, rfl, h⟩

theorem lengthReadable_iff (r : List Octet) : lengthReadable r = true ↔ lengthAllowed r := by
  cases r with
  | nil => simp [lengthReadable, lengthAllowed]
  | cons o rest =>
    rw [lengthAllowed_cons]
    obtain hk | hk | hk | hk := recordKind_cases o
    · rw [lengthReadable_cons_of_none (impliedLength_none (.inl hk))]
      simp [hk]
    · by_cases hm : recordModeCode o = 0
      · rw [lengthReadable_cons_of_none (impliedLength_none (.inr (.inr ⟨hk, hm⟩)))]
        simp [hk, hm]
      · obtain ⟨m, hcode⟩ := Mode.exists_code_eq hm (recordModeCode_lt o)
        rw [lengthReadable_cons_of_implied (impliedLength_speech hk hcode)]
        simp [hk, hcode, m.code_ne_zero]
    · rw [lengthReadable_cons_of_implied (impliedLength_quiet hk)]
      simp [hk]
    · rw [lengthReadable_cons_of_none (impliedLength_none (.inr (.inl hk)))]
      simp [hk]

theorem length_withCheck (body : List Octet) : (withCheck body).length = body.length + 2 := by
  rw [withCheck, List.length_append]
  rfl

/-- The last two octets are the CRC-16 of the others exactly where the record is a body with its check (R66). -/
theorem checkMatches_iff {r : List Octet} (h : 2 ≤ r.length) :
    r.drop (r.length - 2) = Checks.crc16Octets (r.take (r.length - 2)) ↔ ∃ body, r = withCheck body := by
  constructor
  · intro hcheck
    refine ⟨r.take (r.length - 2), ?_⟩
    rw [withCheck, ← hcheck, List.take_append_drop]
  · rintro ⟨body, rfl⟩
    rw [length_withCheck, Nat.add_sub_cancel, withCheck, List.drop_left, List.take_left]

theorem two_le_length_of_lengthReadable {r : List Octet} (h : lengthReadable r = true) : 2 ≤ r.length := by
  cases r with
  | nil => cases h
  | cons o rest =>
    cases hn : impliedLength o with
    | none =>
      rw [lengthReadable_cons_of_none hn] at h
      omega
    | some n =>
      rw [lengthReadable_cons_of_implied hn] at h
      have hlong : 6 ≤ n := by
        unfold impliedLength at hn
        split at hn
        · obtain ⟨m, -, rfl⟩ := Option.map_eq_some_iff.mp hn
          omega
        · cases hn
          omega
        · cases hn
      omega

theorem readable_iff (r : List Octet) : readable r = true ↔ lengthAllowed r ∧ ∃ body, r = withCheck body := by
  rw [readable, Bool.and_eq_true, decide_eq_true_iff, ← lengthReadable_iff]
  exact and_congr_right fun h => checkMatches_iff (two_le_length_of_lengthReadable h)

/-- A formed record of its implied length is taken whole from what is received, and is readable. -/
theorem sealRecord_received {o : Octet} {rest : List Octet} (h : impliedLength o = some (rest.length + 3))
    (after : List Octet) :
    recordOctets (sealRecord (o :: rest) ++ after) = sealRecord (o :: rest) ∧ readable (sealRecord (o :: rest)) = true := by
  have hlength : (sealRecord (o :: rest)).length = rest.length + 3 := length_withCheck (o :: rest)
  have hcons : sealRecord (o :: rest) = o :: (rest ++ Checks.crc16Octets (o :: rest)) := rfl
  constructor
  · rw [hcons] at hlength ⊢
    exact recordOctets_append (h.trans (congrArg some hlength.symm)) after
  · have hcheck : ∃ body, sealRecord (o :: rest) = withCheck body := ⟨o :: rest, rfl⟩
    refine (readable_iff _).mpr ⟨(lengthReadable_iff _).mp ?_, hcheck⟩
    rw [hcons] at hlength ⊢
    exact (lengthReadable_cons_of_implied h _).mpr hlength

/-! ### Good frames (R71, R72) -/

/-- The frame that a SPEECH record of mode `m` holds, whether or not its start state is in range (R65). -/
def recordSpeech (m : Mode) (r : List Octet) : SpeechFrame :=
  { sequence := octetAt r 2
    mode := m
    predictor := ((octetAt r 3) ++ (octetAt r 4) : BitVec 16).toInt
    stepIndex := (octetAt r 5).toNat
    payload := (r.drop 6).take m.payloadOctets }

/-- The bad headers of R71, with the kind and the mode code of octet 0 by their names. -/
theorem badFor_iff (modeSet : BitVec 3) (r : List Octet) :
    badFor modeSet r
      ↔ recordKind (octetAt r 0) = 0 ∨ recordKind (octetAt r 0) = 3
        ∨ (recordKind (octetAt r 0) = 1 ∧ (recordModeCode (octetAt r 0) = 0
          ∨ modeSet.getLsbD (recordModeCode (octetAt r 0) - 1) = false
          ∨ ((octetAt r 3) ++ (octetAt r 4) : BitVec 16).toInt < -8192
          ∨ 8191 < ((octetAt r 3) ++ (octetAt r 4) : BitVec 16).toInt ∨ 63 < (octetAt r 5).toNat))
        ∨ (recordKind (octetAt r 0) = 2 ∧ recordModeCode (octetAt r 0) ≠ 0) :=
  Iff.rfl

section Speech

variable {r : List Octet} {m : Mode} {modeSet : BitVec 3}

theorem goodFrame_speech (hk : recordKind (octetAt r 0) = 1) (hm : recordModeCode (octetAt r 0) = m.code)
    (hset : m.inSet modeSet = true) (h : (recordSpeech m r).inRange) :
    goodFrame modeSet r = some (.speech (recordSpeech m r)) := by
  obtain ⟨⟨hlow, hhigh⟩, hstep⟩ := h
  dsimp only [recordSpeech] at hlow hhigh hstep
  simp [goodFrame, recordSpeech, hk, hm, Mode.ofCode_code, hset, hlow, hhigh, hstep]

theorem goodFrame_speech_bad (hk : recordKind (octetAt r 0) = 1) (hm : recordModeCode (octetAt r 0) = m.code)
    (h : ¬(m.inSet modeSet = true ∧ (recordSpeech m r).inRange)) : goodFrame modeSet r = none := by
  simp only [SpeechFrame.inRange, sampleInRange, recordSpeech, and_assoc] at h
  simp only [goodFrame, hk, hm, Mode.ofCode_code, Bool.and_eq_true, decide_eq_true_iff, and_assoc, h, if_false]

theorem badFor_speech_iff (hk : recordKind (octetAt r 0) = 1) (hm : recordModeCode (octetAt r 0) = m.code) :
    badFor modeSet r ↔ ¬(m.inSet modeSet = true ∧ (recordSpeech m r).inRange) := by
  rw [badFor_iff]
  simp [hk, hm, m.code_ne_zero, Mode.inSet, SpeechFrame.inRange, sampleInRange, recordSpeech, -not_and, not_and_or, or_assoc]

end Speech

theorem goodFrame_quiet {r : List Octet} (hk : recordKind (octetAt r 0) = 2) (modeSet : BitVec 3) :
    goodFrame modeSet r = if recordModeCode (octetAt r 0) = 0 then some (.quiet (octetAt r 2) (octetAt r 3)) else none := by
  simp only [goodFrame, hk]

theorem goodFrame_speech_noMode {r : List Octet} (hk : recordKind (octetAt r 0) = 1)
    (hm : recordModeCode (octetAt r 0) = 0) (modeSet : BitVec 3) : goodFrame modeSet r = none := by
  simp only [goodFrame, hk, hm, Mode.ofCode]

theorem goodFrame_otherKind {r : List Octet} (hk : recordKind (octetAt r 0) = 0 ∨ recordKind (octetAt r 0) = 3)
    (modeSet : BitVec 3) : goodFrame modeSet r = none := by
  obtain hk | hk := hk <;> simp only [goodFrame, hk]

theorem goodFrame_eq_none_iff (modeSet : BitVec 3) (r : List Octet) : goodFrame modeSet r = none ↔ badFor modeSet r := by
  obtain hk | hk | hk | hk := recordKind_cases (octetAt r 0)
  · exact iff_of_true (goodFrame_otherKind (.inl hk) modeSet) (.inl hk)
  · by_cases hm : recordModeCode (octetAt r 0) = 0
    · exact iff_of_true (goodFrame_speech_noMode hk hm modeSet) (.inr (.inr (.inl ⟨hk, .inl hm⟩)))
    · obtain ⟨m, hcode⟩ := Mode.exists_code_eq hm (recordModeCode_lt _)
      rw [badFor_speech_iff hk hcode]
      by_cases h : m.inSet modeSet = true ∧ (recordSpeech m r).inRange
      · simp [goodFrame_speech hk hcode h.1 h.2, h]
      · simp [goodFrame_speech_bad hk hcode h, h]
  · rw [badFor_iff, goodFrame_quiet hk]
    simp [hk]
  · exact iff_of_true (goodFrame_otherKind (.inr hk) modeSet) (.inr (.inl hk))

/-! ### Formed records read back -/

/-- The two octets of a start predictor, high octet first, are its 16 bits again. -/
theorem extractLsb'_high_append_low (p : BitVec 16) : (p.extractLsb' 8 8 ++ p.extractLsb' 0 8 : BitVec 16) = p := by
  rw [BitVec.extractLsb'_append_extractLsb'_eq_extractLsb' (by decide)]
  exact BitVec.extractLsb'_eq_self

/-- A SPEECH record holds the frame whose fields it was formed of. -/
theorem recordSpeech_sealRecord {f : SpeechFrame} (hrange : f.inRange) (hpayload : f.payload.length = f.mode.payloadOctets)
    (c : Chan) :
    recordSpeech f.mode (sealRecord (speechBody c f.sequence f.mode f.predictor f.stepIndex f.payload)) = f := by
  obtain ⟨⟨hlow, hhigh⟩, hstep⟩ := hrange
  obtain ⟨sequence, m, predictor, stepIndex, payload⟩ := f
  dsimp only at hlow hhigh hstep hpayload
  have hpredictor : (BitVec.ofInt 16 predictor).toInt = predictor :=
    BitVec.toInt_ofInt_eq_self (by decide) (by omega) (by omega)
  have hindex : (BitVec.ofNat 8 stepIndex).toNat = stepIndex := by
    rw [BitVec.toNat_ofNat]
    omega
  simp only [recordSpeech, sealRecord, speechBody, octetAt, List.cons_append, List.nil_append, List.getD_cons_zero,
    List.getD_cons_succ, List.drop_succ_cons, List.drop_zero, extractLsb'_high_append_low, hpredictor, hindex,
    List.take_left' hpayload]

/-- A SPEECH record of a frame in range, of a mode in the receiving channel's set, gives back the frame (R71). -/
theorem goodFrame_sealRecord_speech {f : SpeechFrame} {modeSet : BitVec 3} (hset : f.mode.inSet modeSet = true)
    (hrange : f.inRange) (hpayload : f.payload.length = f.mode.payloadOctets) (c : Chan) :
    goodFrame modeSet (sealRecord (speechBody c f.sequence f.mode f.predictor f.stepIndex f.payload))
      = some (.speech f) := by
  obtain ⟨r, hr⟩ : ∃ r, r = sealRecord (speechBody c f.sequence f.mode f.predictor f.stepIndex f.payload) := ⟨_, rfl⟩
  have hf : recordSpeech f.mode r = f := hr ▸ recordSpeech_sealRecord hrange hpayload c
  have hfirst : octetAt r 0 = BitVec.ofNat 8 (64 + 16 * f.mode.code) := hr ▸ rfl
  have hgood : goodFrame modeSet r = some (.speech (recordSpeech f.mode r)) :=
    goodFrame_speech (hfirst ▸ recordKind_speech f.mode) (hfirst ▸ recordModeCode_speech f.mode) hset (hf.symm ▸ hrange)
  rw [← hr, hgood, hf]

theorem goodFrame_sealRecord_quiet (modeSet : BitVec 3) (o1 sequence level : Octet) :
    goodFrame modeSet (sealRecord [0x80, o1, sequence, level]) = some (.quiet sequence level) := by
  have hfirst : octetAt (sealRecord [0x80, o1, sequence, level]) 0 = 0x80 := rfl
  rw [goodFrame_quiet (hfirst ▸ recordKind_quiet), hfirst, if_pos recordModeCode_quiet]
  rfl

/-- The mode of a SPEECH record implies its length: 6 octets, the mode's payload and the check (R37, R65, R67). -/
theorem impliedLength_payload {m : Mode} {n : Nat} (h : n = m.payloadOctets) :
    impliedLength (BitVec.ofNat 8 (64 + 16 * m.code)) = some (n + 5 + 3) := by
  rw [impliedLength_speech (recordKind_speech m) (recordModeCode_speech m), h, Mode.payloadOctets, Mode.bits]
  exact congrArg some (by omega)

/-- Settles O52: each of the two layouts has its implied length, and each field is read where it was written. -/
theorem formedRecordsAreReadBack : Obligations.FormedRecordsAreReadBack := by
  intro c sequence level m predictor stepIndex payload after body quiet modeSet hset hlow hhigh hstep hpayload hbody hquiet
  subst hquiet
  have hspeech : body = speechBody c sequence m predictor.toInt stepIndex.toNat payload := by
    rw [hbody, speechBody, BitVec.ofInt_toInt, BitVec.ofNat_toNat, BitVec.setWidth_eq]
  subst hspeech
  obtain ⟨htaken, hreadable⟩ :=
    sealRecord_received
      (rest := (speechBody c sequence m predictor.toInt stepIndex.toNat payload).tail)
      (impliedLength_payload hpayload) after
  obtain ⟨htakenQuiet, hreadableQuiet⟩ :=
    sealRecord_received (rest := [BitVec.ofNat 8 c.val, sequence, level]) (impliedLength_quiet recordKind_quiet) after
  have hgood := goodFrame_sealRecord_speech (f := ⟨sequence, m, predictor.toInt, stepIndex.toNat, payload⟩) hset
    ⟨⟨hlow, hhigh⟩, hstep⟩ hpayload c
  exact ⟨⟨htaken, hreadable, recordChannel_sealRecord _ c _, hgood⟩,
    htakenQuiet, hreadableQuiet, recordChannel_sealRecord _ c _, goodFrame_sealRecord_quiet modeSet _ sequence level⟩

end Sys2Proof.Machine
end

section
/-! SUPPORT. The radio link's commands: the beginning of a record, its end with the receive checks, and the end of the
record being sent. -/

namespace Sys2Proof.Machine

/-! ### A record that ends (R67 to R71) -/

theorem exec_recordArrival {s : State} (hr : s.run = .ready) (hb : 0 < s.begun) (octets : List Octet) :
    exec (.recordArrival octets) s = .next ({ s with begun := s.begun - 1 }.arrival octets) := by
  simp [exec, execRecordArrival, State.isReady, hr, hb]

theorem State.arrival_unreadable {octets : List Octet} (h : readable (recordOctets octets) = false) (s : State) :
    s.arrival octets = { s with unreadable := saturatingSucc s.unreadable } := by
  simp only [State.arrival, h, Bool.not_false, if_true]

theorem State.arrival_stray {octets : List Octet} {s : State} (h : readable (recordOctets octets) = true)
    (hl : (s.life (recordChannel (recordOctets octets))).lifecycle ≠ .active) :
    s.arrival octets = { s with stray := saturatingSucc s.stray } := by
  simp only [State.arrival, h, Bool.not_true, Bool.false_eq_true, if_false]
  cases hlife : s.life (recordChannel (recordOctets octets)) with
  | active a => exact absurd (by rw [hlife]; rfl) hl
  | free => rfl
  | halfF h => rfl
  | halfR h => rfl

theorem State.arrival_bad {octets : List Octet} {s : State} {a : Active} (h : readable (recordOctets octets) = true)
    (hl : s.life (recordChannel (recordOctets octets)) = .active a)
    (hf : goodFrame a.radio.modeSet (recordOctets octets) = none) :
    s.arrival octets = s.count (recordChannel (recordOctets octets)) .framesBad := by
  simp only [State.arrival, h, Bool.not_true, Bool.false_eq_true, if_false, hl, hf]

/-- A counter of a channel incremented leaves everything but that channel as it was. -/
theorem State.streamFrame_count (s : State) (c : Chan) (k : Counter) : s.streamFrame (s.count c k) [c] [] := by
  refine ⟨State.device_count s c k, fun d hd => ?_, fun x _ => State.slot_count s c k x⟩
  exact State.chan_mapChan_ne s (fun h => hd (List.mem_singleton.mpr h.symm)) _

/-- Of the channel itself a counter incremented leaves all but the counters as it was (R8). -/
theorem State.context_count (s : State) (c : Chan) (k : Counter) :
    (s.count c k).life c = s.life c ∧ ((s.count c k).chan c).continuity = (s.chan c).continuity
      ∧ ((s.count c k).chan c).eventsF = (s.chan c).eventsF ∧ ((s.count c k).chan c).eventsR = (s.chan c).eventsR := by
  simp only [State.life_def, State.count, State.chan_mapChan_self, Channel.count, and_self]

/-- Settles O21: what R69 and R71 ask of a record, field by field, and the one counter that each check moves. -/
theorem arrivalsThatAreNoFramesAreCounted : Obligations.ArrivalsThatAreNoFramesAreCounted := by
  rintro octets r c s hr hb rfl rfl
  have hexec := exec_recordArrival hr hb octets
  refine ⟨readable_iff _, fun modeSet => goodFrame_eq_none_iff modeSet _, fun hunreadable => ?_,
    fun hreadable hlife => ?_, fun a hreadable hlife hbad => ?_⟩
  · exact hexec.trans (congrArg _ (State.arrival_unreadable hunreadable _))
  · exact hexec.trans (congrArg _ (State.arrival_stray hreadable hlife))
  · have hcounted := hexec.trans (congrArg _ (State.arrival_bad hreadable hlife ((goodFrame_eq_none_iff _ _).mpr hbad)))
    obtain ⟨hlife', hcontinuity, heventsF, heventsR⟩ := { s with begun := s.begun - 1 }.context_count _ .framesBad
    exact ⟨_, hcounted, s.streamFrame_count _ .framesBad, rfl, rfl, rfl, rfl, rfl, hlife', hcontinuity, heventsF,
      heventsR, fun k => State.counter_count _ _ k .framesBad⟩

/-! ### Records begun and sent (R64, R78) -/

theorem exec_recordStart_ready {s : State} (h : s.run = .ready) :
    exec .recordStart s = .next { s with begun := min 2 (s.begun + 1) } := by
  simp [exec, execRecordStart, State.isReady, h]

theorem exec_recordStart_notReady {s : State} (h : s.run ≠ .ready) : exec .recordStart s = .next s := by
  simp [exec, execRecordStart, State.isReady, h]

/-- Time may pass to an end that has come already, or with nothing due or ending before it. -/
theorem State.mayAdvance_max {s : State} {ends : Nat}
    (h : ends ≤ s.clock ∨ (s.outstanding = false ∧ s.nothingEndsBefore ends = true)) :
    s.mayAdvance (max s.clock ends) = true := by
  by_cases hle : ends ≤ s.clock
  · simp [State.mayAdvance, Nat.max_eq_left hle]
  · obtain ⟨hpoints, hends⟩ := h.resolve_left hle
    simp [State.mayAdvance, Nat.max_eq_right (Nat.le_of_not_le hle), hpoints, hends]

theorem exec_recordTransmitted {s : State} {r : Record} {ends : Nat} (hs : s.sending = some (r, ends))
    (h : s.mayAdvance (max s.clock ends) = true) :
    exec .recordTransmitted s = .next { s with clock := max s.clock ends, sending := none }.startTransmit := by
  simp [exec, execRecordTransmitted, hs, h]

theorem State.startTransmit_nil {s : State} (h : s.transmit = []) : s.startTransmit = s := by
  unfold State.startTransmit
  split
  · next heq => cases h.symm.trans heq
  · rfl

theorem State.startTransmit_cons {s : State} {r : Record} {rest : List Record} (hs : s.sending = none)
    (h : s.transmit = r :: rest) :
    s.startTransmit = { s with transmit := rest, sending := some (r, s.clock + 16 * r.length) } := by
  simp only [State.startTransmit, hs, h, recordClocks]

/-- Settles O20: the record under way ends, and the idle transmitter takes the head of the Transmit Queue. -/
theorem recordsBeginAndAreSent : Obligations.RecordsBeginAndAreSent := by
  refine ⟨fun s h => exec_recordStart_ready h, fun s h => exec_recordStart_notReady h, fun s r ends hs hdue => ?_⟩
  have hexec := exec_recordTransmitted hs (State.mayAdvance_max hdue)
  refine ⟨fun hq => ?_, fun next rest hq => ?_⟩
  · exact hexec.trans (congrArg _ (State.startTransmit_nil hq))
  · exact hexec.trans (congrArg _ (State.startTransmit_cons rfl hq))

end Sys2Proof.Machine
end

section
/-! SUPPORT. Distances of sequence numbers, frames in ascending distance from a reference, and what an insertion, an overflow
and an opened window make of them. -/

namespace Sys2Proof.Machine

/-! ### Distances (R83) -/

theorem distance_self (n : BitVec 8) : distance n n = 0 := by simp [distance]

theorem distance_range (n r : BitVec 8) : -128 ≤ distance n r ∧ distance n r ≤ 127 := by
  have hle := BitVec.le_toInt (n - r)
  have hlt := BitVec.toInt_lt (x := n - r)
  unfold distance
  omega

theorem distance_inj {m n r : BitVec 8} : distance m r = distance n r ↔ m = n := by
  rw [distance, distance, BitVec.toInt_inj]
  exact sub_left_inj

/-- The next sequence number is one ahead. -/
theorem distance_succ (n : BitVec 8) : distance (n + 1) n = 1 := by
  rw [distance, add_sub_cancel_left]
  decide

/-- A distance counted from a number that lies between the reference and the frame. -/
theorem distance_rebase {m n r : BitVec 8} (hn : 0 ≤ distance n r) (hm : distance n r ≤ distance m r) :
    distance m n = distance m r - distance n r := by
  have hsplit : m - n = (m - r) - (n - r) := by bv_omega
  have hrange := distance_range m r
  have hsub := BitVec.toInt_sub (x := m - r) (y := n - r)
  rw [← hsplit] at hsub
  change distance m n = (distance m r - distance n r).bmod (2 ^ 8) at hsub
  rw [hsub]
  exact Int.bmod_eq_of_le (by omega) (by omega)

/-! ### Frames in ascending distance (R82, R85) -/

theorem ascendingFrom_self (f : Frame) : ascendingFrom f.sequence 0 [f] := by
  simp [ascendingFrom, distance_self]

/-- A frame whose sequence is not queued is inserted between the nearer and the farther frames (R85). -/
theorem insertFrame_splits {reference : BitVec 8} {least : Int} {queue : List Frame} {f : Frame}
    (h : ascendingFrom reference least queue) (hf : ∀ g ∈ queue, g.sequence ≠ f.sequence) :
    ∃ before after, queue = before ++ after ∧ insertFrame reference f queue = before ++ f :: after
      ∧ (∀ g ∈ before, distance g.sequence reference < distance f.sequence reference)
      ∧ ∀ g ∈ after, distance f.sequence reference < distance g.sequence reference := by
  induction queue with
  | nil => exact ⟨[], [], rfl, rfl, by simp, by simp⟩
  | cons k rest ih =>
    obtain ⟨hpair, hrange⟩ := h
    obtain ⟨hk, hrest⟩ := List.pairwise_cons.mp hpair
    unfold insertFrame
    split
    · next hlt =>
      refine ⟨[], k :: rest, rfl, rfl, by simp, fun g hg => ?_⟩
      rcases List.mem_cons.mp hg with rfl | hg
      · exact hlt
      · exact hlt.trans (hk g hg)
    · next hge =>
      obtain ⟨before, after, hq, hi, hb, ha⟩ :=
        ih ⟨hrest, fun g hg => hrange g (List.mem_cons_of_mem k hg)⟩ fun g hg => hf g (List.mem_cons_of_mem k hg)
      refine ⟨k :: before, after, by rw [hq, List.cons_append], by rw [hi, List.cons_append], fun g hg => ?_, ha⟩
      rcases List.mem_cons.mp hg with rfl | hg
      · have hne : distance g.sequence reference ≠ distance f.sequence reference := fun he =>
          hf g List.mem_cons_self (distance_inj.mp he)
        exact lt_of_le_of_ne (not_lt.mp hge) hne
      · exact hb g hg

theorem length_insertFrame (reference : BitVec 8) (f : Frame) (queue : List Frame) :
    (insertFrame reference f queue).length = queue.length + 1 := by
  induction queue with
  | nil => rfl
  | cons k rest ih =>
    unfold insertFrame
    split
    · rfl
    · rw [List.length_cons, ih, List.length_cons]

theorem ascendingFrom.insert {reference : BitVec 8} {least : Int} {queue : List Frame} {f : Frame}
    (h : ascendingFrom reference least queue) (hf : ∀ g ∈ queue, g.sequence ≠ f.sequence)
    (hleast : least ≤ distance f.sequence reference) (hmost : distance f.sequence reference ≤ 15) :
    ascendingFrom reference least (insertFrame reference f queue) := by
  obtain ⟨before, after, rfl, hi, hb, ha⟩ := insertFrame_splits h hf
  obtain ⟨hpair, hrange⟩ := h
  obtain ⟨hbefore, hafter, hcross⟩ := List.pairwise_append.mp hpair
  rw [hi]
  refine ⟨List.pairwise_append.mpr ⟨hbefore, List.pairwise_cons.mpr ⟨ha, hafter⟩, fun x hx y hy => ?_⟩, fun g hg => ?_⟩
  · rcases List.mem_cons.mp hy with rfl | hy
    · exact hb x hx
    · exact hcross x hx y hy
  · rcases List.mem_append.mp hg with hg | hg
    · exact hrange g (List.mem_append_left after hg)
    · rcases List.mem_cons.mp hg with rfl | hg
      · exact ⟨hleast, hmost⟩
      · exact hrange g (List.mem_append_right before hg)

/-- At a full queue the head gives way to a frame farther than all (R86). -/
theorem ascendingFrom.replaceHead {reference : BitVec 8} {least : Int} {queue : List Frame} {f : Frame}
    (h : ascendingFrom reference least queue)
    (hf : ∀ g ∈ queue, distance g.sequence reference < distance f.sequence reference)
    (hleast : least ≤ distance f.sequence reference) (hmost : distance f.sequence reference ≤ 15) :
    ascendingFrom reference least (queue.drop 1 ++ [f]) := by
  obtain ⟨hpair, hrange⟩ := h
  have hmem : ∀ {g}, g ∈ queue.drop 1 → g ∈ queue := List.mem_of_mem_drop
  refine ⟨List.pairwise_append.mpr ⟨hpair.drop, List.pairwise_singleton _ f, fun x hx y hy => ?_⟩, fun g hg => ?_⟩
  · rw [List.mem_singleton.mp hy]
    exact hf x (hmem hx)
  · rcases List.mem_append.mp hg with hg | hg
    · exact hrange g (hmem hg)
    · rw [List.mem_singleton.mp hg]
      exact ⟨hleast, hmost⟩

/-- A window opened for a sequence that no queued frame is nearer than leaves the others ahead of it (R90, R92). -/
theorem ascendingFrom.openedAt {reference : BitVec 8} {least : Int} {queue : List Frame}
    (h : ascendingFrom reference least queue) {expected : BitVec 8} (hahead : 0 ≤ distance expected reference)
    (hleast : ∀ g ∈ queue, distance expected reference ≤ distance g.sequence reference) :
    ascendingFrom expected 1 (queue.filter fun g => !decide (g.sequence = expected)) := by
  obtain ⟨hpair, hrange⟩ := h
  have hrebase : ∀ g ∈ queue, distance g.sequence expected
      = distance g.sequence reference - distance expected reference := fun g hg => distance_rebase hahead (hleast g hg)
  refine ⟨(hpair.imp_of_mem fun {f g} hf hg hlt => ?_).filter _, fun g hg => ?_⟩
  · rw [hrebase f hf, hrebase g hg]
    omega
  · obtain ⟨hmem, hother⟩ := List.mem_filter.mp hg
    have hne : distance g.sequence reference ≠ distance expected reference := fun he => by
      simp [distance_inj.mp he] at hother
    have hfar := hrange g hmem
    have hnear := hleast g hmem
    rw [hrebase g hmem]
    omega

/-! ### The Receive Queue by what it is counted from (R81, R82) -/

/-- What the distances of a Receive Queue are counted from, and the least of them that it may hold: the reference of
PRIMING, once there is one, or the expected sequence. -/
def Uplink.anchor : Uplink → Option (BitVec 8 × Int)
  | .priming reference _ => reference.map fun r => (r, 0)
  | .running _ expected _ => some (expected, 1)

theorem UplinkFields.queueOk_iff (u : UplinkFields) :
    u.queueOk ↔ u.queue.length ≤ 6 ∧ (u.stream.anchor = none → u.queue = [])
      ∧ ∀ r least, u.stream.anchor = some (r, least) → ascendingFrom r least u.queue := by
  unfold UplinkFields.queueOk Uplink.anchor
  split <;> simp_all

theorem UplinkFields.queueOk_of_anchor {u : UplinkFields} {r : BitVec 8} {least : Int}
    (ha : u.stream.anchor = some (r, least)) : u.queueOk ↔ u.queue.length ≤ 6 ∧ ascendingFrom r least u.queue := by
  rw [UplinkFields.queueOk_iff]
  refine and_congr_right fun _ => ⟨fun h => h.2 r least ha, fun h => ⟨fun hn => ?_, fun r' least' ha' => ?_⟩⟩
  · rw [ha] at hn
    cases hn
  · rw [ha] at ha'
    cases ha'
    exact h

end Sys2Proof.Machine
end

section
/-! SUPPORT. The Receive Queues and the phases gathered by the context that holds them, and the updates of the state that
keep them. -/

namespace Sys2Proof.Machine

/-! ### The queue and the phases of one context -/

/-- An uplink whose Receive Queue is as R82 states and whose phase lies in 0..159. -/
def UplinkFields.flowOk (u : UplinkFields) : Prop := u.queueOk ∧ u.phase < 160

/-- Both streams of an ACTIVE context with their phases in 0..159, and its Receive Queue as R82 states. -/
def Active.flowOk (a : Active) : Prop := a.down.phase < 160 ∧ a.up.flowOk

/-- The queue and the phases of a context, which has none outside ACTIVE. -/
def Life.flowOk : Life → Prop
  | .active a => a.flowOk
  | .free | .halfF _ | .halfR _ => True

/-- All that the relation sees of an ACTIVE context: the two phases, the queue, and what its distances are counted from. -/
def Active.flow (a : Active) : Nat × Nat × List Frame × Option (BitVec 8 × Int) :=
  (a.down.phase, a.up.phase, a.up.queue, a.up.stream.anchor)

theorem Active.flowOk.of_flow {a b : Active} (h : a.flowOk) (hb : b.flow = a.flow) : b.flowOk := by
  simp only [Active.flow, Prod.mk.injEq] at hb
  obtain ⟨hdown, hup, hqueue, hanchor⟩ := hb
  obtain ⟨hd, hq, hu⟩ := h
  rw [UplinkFields.queueOk_iff] at hq
  refine ⟨hdown ▸ hd, (UplinkFields.queueOk_iff _).mpr ?_, hup ▸ hu⟩
  rw [hqueue, hanchor]
  exact hq

theorem Life.flowOk_mapFixed {l : Life} (h : l.flowOk) (f : FixedHalf → FixedHalf) : (l.mapFixed f).flowOk := by
  cases l <;> exact h

theorem Life.flowOk_mapRadio {l : Life} (h : l.flowOk) (f : RadioHalf → RadioHalf) : (l.mapRadio f).flowOk := by
  cases l <;> exact h

theorem Life.flowOk_rederived {l : Life} (h : l.flowOk) : l.rederived.flowOk := by
  cases l <;> exact h

theorem Life.flowOk_applyItem {l : Life} (h : l.flowOk) (i : Item) (v : BitVec 16) : (l.applyItem i v).flowOk := by
  cases i with
  | timeslot => exact h
  | gainToFixed | gainToRadio | quietThreshold =>
    rw [Life.applyItem]
    exact Life.flowOk_mapFixed h _
  | mode | modeSet | align | dtx =>
    rw [Life.applyItem]
    exact Life.flowOk_mapRadio h _

/-- A context enters ACTIVE with an empty queue, no reference, and its phases within the cycle (R12). -/
theorem State.entry_flowOk (s : State) (c : Chan) (tag : BitVec 14) (fixed : FixedHalf) (radio : RadioHalf) :
    (s.entry c tag fixed radio).flowOk :=
  ⟨Nat.mod_lt _ (by decide), ⟨Nat.zero_le 6, rfl⟩, Nat.mod_lt _ (by decide)⟩

/-- The phase of a boundary moves within the cycle (R58). -/
theorem afterBoundary_flowOk (time : Nat) {a : Active} (h : a.flowOk) : (afterBoundary time a).flowOk := by
  refine ⟨?_, h.2⟩
  simp only [afterBoundary]
  omega

/-- A frame sync changes neither queue nor phase of a context. -/
theorem Life.flowOk_onSync (s : State) (incoming : Vector Octet 128) {ch : Channel} (h : ch.life.flowOk) :
    (ch.onSync s incoming).life.flowOk := by
  have hcheck : ∀ x k o, (ch.checkOctet s x k o).life.flowOk := fun x k o => by
    unfold Channel.checkOctet
    split
    · trivial
    · dsimp only
      split
      · rw [Channel.life_record]
        trivial
      · trivial
  unfold Channel.onSync
  split
  · dsimp only
    split
    · exact hcheck _ _ _
    · trivial
  · trivial
  · next a ha =>
    rw [ha] at h
    exact h
  · exact h

/-! ### The relation on the part -/

/-- The invariant of this family: the cycle within 0..159, and every context's queue and phases as they must be. -/
structure State.flowsOk (s : State) : Prop where
  cycle : s.cycle < 160
  lives : ∀ c, (s.life c).flowOk

theorem State.flowsOk_iff (s : State) : s.flowsOk ↔ s.queuesOk ∧ s.phasesOk := by
  have hlives : (∀ c, (s.life c).flowOk) ↔ ∀ c a, s.life c = .active a → a.flowOk := by
    refine forall_congr' fun c => ?_
    cases s.life c with
    | active b => exact ⟨fun h a ha => by cases ha; exact h, fun h => h b rfl⟩
    | _ => exact ⟨fun _ _ ha => (nomatch ha), fun _ => trivial⟩
  refine ⟨fun ⟨hc, hl⟩ => ?_, fun ⟨hq, hc, hp⟩ => ⟨hc, hlives.mpr fun c a ha => ?_⟩⟩
  · have hl := hlives.mp hl
    exact ⟨fun c a ha => (hl c a ha).2.1, hc, fun c a ha => ⟨(hl c a ha).1, (hl c a ha).2.2⟩⟩
  · exact ⟨(hp c a ha).1, hq c a ha, (hp c a ha).2⟩

section Updates

variable {s : State} (h : s.flowsOk)
include h

theorem State.flowsOk.active {c : Chan} {a : Active} (ha : s.life c = .active a) : a.flowOk := by
  have hc := h.lives c
  rwa [ha] at hc

/-- Only the cycle and the lives of the contexts matter. -/
theorem State.flowsOk.of_lives {t : State} (hc : t.cycle = s.cycle) (hl : ∀ c, t.life c = s.life c) : t.flowsOk :=
  ⟨hc ▸ h.cycle, fun c => (hl c).symm ▸ h.lives c⟩

/-- An operation that leaves the device part and the lives. -/
theorem State.flowsOk.of_frame {t : State} (hd : t.device = s.device) (hl : ∀ c, t.life c = s.life c) : t.flowsOk :=
  h.of_lives (State.cycle_of_device hd) hl

theorem State.flowsOk.mapChan (c : Chan) {f : Channel → Channel}
    (hf : ∀ ch, ch.life.flowOk → (f ch).life.flowOk) : (s.mapChan c f).flowsOk := by
  refine ⟨h.cycle, fun d => ?_⟩
  rw [State.life_def, State.chan_mapChan]
  split
  · exact hf _ (h.lives d)
  · exact h.lives d

theorem State.flowsOk.setLife (c : Chan) {l : Life} (hl : l.flowOk) : (s.setLife c l).flowsOk :=
  h.mapChan c fun _ _ => hl

theorem State.flowsOk.mapActive (c : Chan) {f : Active → Active} (hf : ∀ a, a.flowOk → (f a).flowOk) :
    (s.mapActive c f).flowsOk := by
  unfold State.mapActive
  split
  · next a ha => exact h.setLife c (hf a (h.active ha))
  · exact h

/-- A change of an ACTIVE context beside its phases, its queue and what the queue is counted from. -/
theorem State.flowsOk.mapActive_keeps (c : Chan) {f : Active → Active} (hf : ∀ a, (f a).flow = a.flow) :
    (s.mapActive c f).flowsOk :=
  h.mapActive c fun a ha => ha.of_flow (hf a)

theorem State.flowsOk.setUp (c : Chan) {up : UplinkFields} (hu : up.flowOk) : (s.setUp c up).flowsOk :=
  h.mapActive c fun _ ha => ⟨ha.1, hu⟩

theorem State.flowsOk.mapSlot (x : Slot) (f : Timeslot → Timeslot) : (s.mapSlot x f).flowsOk :=
  h.of_frame (by simp) (by simp)

theorem State.flowsOk.mapLine (l : Line) (f : LineUnit → LineUnit) : (s.mapLine l f).flowsOk :=
  h.of_frame (by simp) (by simp)

theorem State.flowsOk.settle : s.settle.flowsOk := h.of_frame (by simp) (by simp)

/-- A fold of updates each of which keeps the queues and the phases. -/
theorem State.flowsOk.foldl {β : Type} {f : State → β → State} (hf : ∀ s b, s.flowsOk → (f s b).flowsOk)
    (l : List β) : (l.foldl f s).flowsOk := by
  induction l generalizing s with
  | nil => exact h
  | cons b l ih => exact ih (hf s b h)

/-! ### Events and counters -/

theorem State.flowsOk.count (c : Chan) (k : Counter) : (s.count c k).flowsOk := h.mapChan c fun _ hch => hch

theorem State.flowsOk.record (c : Chan) (l : Line) (k : Kind) : (s.record c l k).flowsOk :=
  h.mapChan c fun ch hch => (ch.life_record _ l k 0).symm ▸ hch

theorem State.flowsOk.warn (c : Chan) (k : Cause) : (s.warn c k).flowsOk :=
  h.mapChan c fun ch hch => by rwa [Channel.life_record, Channel.life_record]

/-! ### Records, misses and held items -/

theorem State.flowsOk.offerRecord (r : Record) : (s.offerRecord r).flowsOk := by
  refine h.of_frame (by simp) fun d => ?_
  rw [State.life_def, State.chan_offerRecord]
  split <;> rfl

/-- A window changes its state, not what the queue is counted from. -/
theorem State.flowsOk.setWindow (c : Chan) (w : WindowState) : (s.setWindow c w).flowsOk :=
  h.mapActive_keeps c fun a => by
    split
    · next hs => simp only [Active.flow, hs, Uplink.anchor]
    · rfl

theorem State.flowsOk.decodeMiss (c : Chan) : (s.decodeMiss c).flowsOk :=
  ((h.setWindow c .closed).count c _).warn c _

theorem State.flowsOk.encodeMiss (c : Chan) : (s.encodeMiss c).flowsOk := (h.count c _).warn c _

theorem State.flowsOk.setHeld (c : Chan) (items : List Held) : (s.setHeld c items).flowsOk :=
  h.mapActive_keeps c fun _ => rfl

theorem State.flowsOk.releaseItems (c : Chan) (items : List Held) : (State.releaseItems c items s).flowsOk := by
  induction items generalizing s with
  | nil => exact h.setHeld c []
  | cons i rest ih =>
    cases i with
    | record r => exact ih (h.offerRecord r)
    | job e deadline =>
      have hoffer : (s.offerEncode c e deadline).1.flowsOk := h.of_frame (by simp) (by simp)
      rw [State.releaseItems]
      split
      · next t ht =>
        rw [ht] at hoffer
        exact ih (hoffer.encodeMiss c)
      · next t ht =>
        rw [ht] at hoffer
        exact hoffer.setHeld c rest

theorem State.flowsOk.releaseHeld (c : Chan) : (s.releaseHeld c).flowsOk := h.releaseItems c _

theorem State.flowsOk.handOn (c : Chan) (i : Held) : (s.handOn c i).flowsOk := by
  unfold State.handOn
  split
  · exact h.setHeld c _
  · exact h.releaseItems c _

/-! ### The frame of a decode window -/

theorem State.flowsOk.offerDecode (c : Chan) (f : SpeechFrame) (deadline : Nat) :
    (s.offerDecode c f deadline).flowsOk := by
  unfold State.offerDecode
  split
  · exact h.setWindow c _
  · have hoffer : ((s.setWindow c (.decoding f false)).offerJob
        { channel := c, deadline, work := .decode f, discard := false }).1.flowsOk :=
      (h.setWindow c (.decoding f false)).of_frame (by simp) (by simp)
    split
    · next t ht =>
      rw [ht] at hoffer
      exact hoffer.decodeMiss c
    · next t ht =>
      rw [ht] at hoffer
      exact hoffer

theorem State.flowsOk.takeFrame (c : Chan) (f : Frame) (deadline : Nat) : (s.takeFrame c f deadline).flowsOk := by
  cases f with
  | quiet n level => exact h.setWindow c _
  | speech f =>
    rw [State.takeFrame]
    split
    · split
      · exact h.setWindow c _
      · exact h.offerDecode c f deadline
    · exact h.offerDecode c f deadline

/-- A window opens for a sequence that no queued frame is nearer than, and takes the frame that has it (R92). -/
theorem State.flowsOk.openWindow (c : Chan) {up : UplinkFields} (hu : up.flowOk) (comfort : Bool)
    {expected r : BitVec 8} {least : Int} (ha : up.stream.anchor = some (r, least)) (hahead : 0 ≤ distance expected r)
    (hleast : ∀ g ∈ up.queue, distance expected r ≤ distance g.sequence r) :
    (s.openWindow c up comfort expected).flowsOk := by
  obtain ⟨hq, hphase⟩ := hu
  obtain ⟨hlength, hascending⟩ := (UplinkFields.queueOk_of_anchor ha).mp hq
  have hwaiting := h.setUp c (up := { up with
      queue := up.queue.filter fun g => !decide (g.sequence = expected)
      stream := .running comfort expected { deadline := s.time + 152, state := .waiting } })
    ⟨(UplinkFields.queueOk_of_anchor rfl).mpr
      ⟨(List.length_filter_le _ _).trans hlength, hascending.openedAt hahead hleast⟩, hphase⟩
  unfold State.openWindow
  dsimp only
  split
  · exact hwaiting.takeFrame c _ _
  · exact hwaiting

end Updates

end Sys2Proof.Machine
end

section
/-! SUPPORT. The classification of an arrived frame, case by case, and what arrivals, playout instants, boundaries and
completions make of the queues and the phases. -/

namespace Sys2Proof.Machine

/-! ### The classification (R84) -/

/-- The uplink fields in PRIMING that a first frame has made its reference (R84). -/
def UplinkFields.referredTo (u : UplinkFields) (f : Frame) (count : Nat) : UplinkFields :=
  { u with queue := [f], stream := .priming (some f.sequence) count }

/-- The first frame of an empty queue in PRIMING becomes the reference. -/
theorem State.classify_first (s : State) (c : Chan) {a : Active} {reference : Option (BitVec 8)} {count : Nat}
    (hs : a.up.stream = .priming reference count) (hq : a.up.queue = [] ∨ reference = none) (f : Frame) :
    s.classify c a f = (s.setUp c (a.up.referredTo f count)).count c .framesAccepted := by
  simp only [State.classify, hs]
  cases hk : a.up.queue with
  | nil => rfl
  | cons k rest =>
    obtain rfl : reference = none := hq.resolve_left (by simp [hk])
    rfl

/-- A frame at distance 0 in PLAYING or COMFORT is decided by the window (R93). -/
theorem State.classify_atWindow (s : State) (c : Chan) {a : Active} {comfort : Bool} {w : Window} {f : Frame}
    (hs : a.up.stream = .running comfort f.sequence w) : s.classify c a f = s.windowArrival c w f := by
  simp only [State.classify, hs, distance_self]
  rfl

/-- A frame counted from an anchor: late, in the window ahead, or too far from it for the stream to go on (R83 to R87). -/
theorem State.classify_anchored (s : State) (c : Chan) {a : Active} {r : BitVec 8} {least : Int} (f : Frame)
    (ha : a.up.stream.anchor = some (r, least)) (hq : least = 0 → a.up.queue ≠ []) :
    (-32 ≤ distance f.sequence r ∧ distance f.sequence r ≤ -1 → s.classify c a f = s.count c .framesLate)
      ∧ (least ≤ distance f.sequence r ∧ distance f.sequence r ≤ 15 →
        s.classify c a f
          = if a.up.queue.any (fun g => decide (g.sequence = f.sequence)) = true then s.count c .framesDuplicate
            else s.insertArrival c a.up r f)
      ∧ (distance f.sequence r < -32 ∨ 15 < distance f.sequence r → s.classify c a f = s.resync c a.up f) := by
  cases hs : a.up.stream with
  | priming reference count =>
    obtain ⟨rfl, rfl⟩ : reference = some r ∧ least = 0 := by
      rw [hs] at ha
      cases reference <;> simp_all [Uplink.anchor]
    obtain ⟨k, rest, hk⟩ := List.exists_cons_of_ne_nil (hq rfl)
    simp only [State.classify, hs, hk]
    refine ⟨fun h => if_pos h, fun h => ?_, fun h => ?_⟩
    · rw [if_neg (by omega), if_pos h]
    · rw [if_neg (by omega), if_neg (by omega)]
  | running comfort expected w =>
    obtain ⟨rfl, rfl⟩ : expected = r ∧ least = 1 := by
      rw [hs] at ha
      simp_all [Uplink.anchor]
    simp only [State.classify, hs]
    refine ⟨fun h => if_pos h, fun h => ?_, fun h => ?_⟩
    · rw [if_neg (by omega), if_neg (by omega), if_pos h]
    · rw [if_neg (by omega), if_neg (by omega), if_neg (by omega)]

theorem any_sequence_eq_false {queue : List Frame} {f : Frame} :
    ¬(queue.any fun g => decide (g.sequence = f.sequence)) = true ↔ ∀ g ∈ queue, g.sequence ≠ f.sequence := by
  simp

/-- All that a classification can be: a first frame accepted, a frame decided by the window, a count alone, an insertion of a
frame ahead whose sequence is not queued, or a resync (R84). -/
inductive State.classified (s : State) (c : Chan) (a : Active) (f : Frame) : State → Prop
  | first (reference : Option (BitVec 8)) (count : Nat) (hs : a.up.stream = .priming reference count) :
      s.classified c a f ((s.setUp c (a.up.referredTo f count)).count c .framesAccepted)
  | atWindow (comfort : Bool) (w : Window) (hs : a.up.stream = .running comfort f.sequence w) :
      s.classified c a f (s.windowArrival c w f)
  | counted (k : Counter) : s.classified c a f (s.count c k)
  | ahead (r : BitVec 8) (least : Int) (ha : a.up.stream.anchor = some (r, least))
      (hnew : ∀ g ∈ a.up.queue, g.sequence ≠ f.sequence) (hleast : least ≤ distance f.sequence r)
      (hmost : distance f.sequence r ≤ 15) : s.classified c a f (s.insertArrival c a.up r f)
  | resync : s.classified c a f (s.resync c a.up f)

theorem State.classified_of_anchor (s : State) (c : Chan) {a : Active} (f : Frame) {r : BitVec 8} {least : Int}
    (ha : a.up.stream.anchor = some (r, least)) (hq : least = 0 → a.up.queue ≠ [])
    (hd : least ≤ distance f.sequence r ∨ distance f.sequence r < 0) : s.classified c a f (s.classify c a f) := by
  obtain ⟨hlate, hahead, hfar⟩ := s.classify_anchored c f ha hq
  by_cases hresync : distance f.sequence r < -32 ∨ 15 < distance f.sequence r
  · rw [hfar hresync]
    exact .resync
  · by_cases hleast : least ≤ distance f.sequence r
    · rw [hahead ⟨hleast, by omega⟩]
      split
      · exact .counted _
      · next hnew => exact .ahead r least ha (any_sequence_eq_false.mp hnew) hleast (by omega)
    · rw [hlate (by omega)]
      exact .counted _

theorem State.classify_classified (s : State) (c : Chan) (a : Active) (f : Frame) :
    s.classified c a f (s.classify c a f) := by
  cases hs : a.up.stream with
  | priming reference count =>
    by_cases hq : a.up.queue = [] ∨ reference = none
    · rw [s.classify_first c hs hq f]
      exact .first reference count hs
    · obtain ⟨hne, href⟩ := not_or.mp hq
      obtain ⟨r, rfl⟩ := Option.ne_none_iff_exists'.mp href
      exact s.classified_of_anchor c f (congrArg Uplink.anchor hs) (fun _ => hne) (le_or_gt _ _)
  | running comfort expected w =>
    by_cases hd : f.sequence = expected
    · subst hd
      rw [s.classify_atWindow c hs]
      exact .atWindow comfort w hs
    · have hne : distance f.sequence expected ≠ 0 := fun he =>
        hd (distance_inj.mp (he.trans (distance_self expected).symm))
      exact s.classified_of_anchor c f (congrArg Uplink.anchor hs) (fun h0 => absurd h0 (by decide)) (by omega)

/-! ### What an instant leaves of the uplink fields -/

/-- The choice of a block changes neither the queue nor the stream nor the phase. -/
theorem chooseBlock_keeps {a : Active} {comfort comfort' : Bool} {w : WindowState} {block : Block} {up : UplinkFields}
    (h : chooseBlock a comfort w = some (block, up, comfort')) :
    up.queue = a.up.queue ∧ up.stream = a.up.stream ∧ up.phase = a.up.phase := by
  cases w with
  | ready f b | quietNoted level =>
    cases h
    exact ⟨rfl, rfl, rfl⟩
  | closed =>
    unfold chooseBlock at h
    dsimp only at h
    split at h <;> cases h <;> exact ⟨rfl, rfl, rfl⟩
  | waiting | decoding f held | direct f => cases h

/-- Nor does the choice of what goes toward a partner. -/
theorem chooseSplice_keeps {a : Active} {comfort comfort' : Bool} {w : WindowState} {b : Chan} {target : Life}
    {sequence : BitVec 8} {sent : Sent} {up : UplinkFields}
    (h : chooseSplice a comfort w b target sequence = some (sent, up, comfort')) :
    up.queue = a.up.queue ∧ up.stream = a.up.stream ∧ up.phase = a.up.phase := by
  cases w with
  | direct f | ready f block | quietNoted level =>
    cases h
    exact ⟨rfl, rfl, rfl⟩
  | closed =>
    unfold chooseSplice at h
    dsimp only at h
    split at h <;> cases h <;> exact ⟨rfl, rfl, rfl⟩
  | waiting | decoding f held => cases h

theorem UplinkFields.flowOk.of_eq {u v : UplinkFields} (h : u.flowOk)
    (hv : v.queue = u.queue ∧ v.stream = u.stream ∧ v.phase = u.phase) : v.flowOk := by
  obtain ⟨hq, hs, hp⟩ := hv
  refine ⟨?_, hp ▸ h.2⟩
  unfold UplinkFields.queueOk
  rw [hq, hs]
  exact h.1

/-- The next expected sequence is one ahead, and no queued frame is nearer (R82, R103). -/
theorem UplinkFields.flowOk.next_ahead {u : UplinkFields} (h : u.flowOk) {comfort : Bool} {expected : BitVec 8}
    {w : Window} (hs : u.stream = .running comfort expected w) :
    0 ≤ distance (expected + 1) expected
      ∧ ∀ g ∈ u.queue, distance (expected + 1) expected ≤ distance g.sequence expected := by
  have hq := (UplinkFields.queueOk_of_anchor (congrArg Uplink.anchor hs)).mp h.1
  rw [distance_succ]
  exact ⟨by decide, fun g hg => (hq.2.2 g hg).1⟩

/-- The head of a queue is its nearest frame, and not behind the reference (R82). -/
theorem UplinkFields.flowOk.head_nearest {u : UplinkFields} (h : u.flowOk) {r : BitVec 8} {count : Nat}
    (hs : u.stream = .priming (some r) count) {head : Frame} {rest : List Frame} (hq : u.queue = head :: rest) :
    0 ≤ distance head.sequence r ∧ ∀ g ∈ u.queue, distance head.sequence r ≤ distance g.sequence r := by
  obtain ⟨-, hpair, hrange⟩ := (UplinkFields.queueOk_of_anchor (congrArg Uplink.anchor hs)).mp h.1
  rw [hq] at hpair hrange ⊢
  refine ⟨(hrange head List.mem_cons_self).1, fun g hg => ?_⟩
  rcases List.mem_cons.mp hg with rfl | hg
  · exact le_rfl
  · exact ((List.pairwise_cons.mp hpair).1 g hg).le

section Operations

variable {s : State} (h : s.flowsOk)
include h

/-! ### Arrivals -/

theorem State.flowsOk.insertArrival (c : Chan) {up : UplinkFields} (hu : up.flowOk) {r : BitVec 8} {least : Int}
    (ha : up.stream.anchor = some (r, least)) {f : Frame} (hf : ∀ g ∈ up.queue, g.sequence ≠ f.sequence)
    (hleast : least ≤ distance f.sequence r) (hmost : distance f.sequence r ≤ 15) :
    (s.insertArrival c up r f).flowsOk := by
  obtain ⟨hq, hphase⟩ := hu
  obtain ⟨hlength, hascending⟩ := (UplinkFields.queueOk_of_anchor ha).mp hq
  unfold State.insertArrival
  split
  · next hroom =>
    refine (h.setUp c ?_).count c _
    refine ⟨(UplinkFields.queueOk_of_anchor (u := { up with queue := insertFrame r f up.queue }) ha).mpr
      ⟨?_, hascending.insert hf hleast hmost⟩, hphase⟩
    rw [length_insertFrame]
    exact hroom
  · split
    · next hfar =>
      have hfar : ∀ g ∈ up.queue, distance g.sequence r < distance f.sequence r := by simpa using hfar
      refine (((h.setUp c ?_).count c _).count c _).warn c _
      refine ⟨(UplinkFields.queueOk_of_anchor (u := { up with queue := up.queue.drop 1 ++ [f] }) ha).mpr
        ⟨?_, hascending.replaceHead hfar hleast hmost⟩, hphase⟩
      rw [List.length_append, List.length_drop, List.length_singleton]
      omega
    · exact (h.count c _).warn c _

/-- The frame of a resync is the only entry and the reference (R87). -/
theorem State.flowsOk.resync (c : Chan) {up : UplinkFields} (hu : up.flowOk) (f : Frame) :
    (s.resync c up f).flowsOk := by
  have habandoned : (s.abandonJob c .decode).flowsOk := h.of_frame (by simp) (by simp)
  refine ((habandoned.setUp c ?_).count c _).warn c _
  exact ⟨⟨Nat.one_le_ofNat, ascendingFrom_self f⟩, hu.2⟩

theorem State.flowsOk.windowArrival (c : Chan) (w : Window) (f : Frame) : (s.windowArrival c w f).flowsOk := by
  unfold State.windowArrival
  split
  · exact (h.takeFrame c f _).count c _
  all_goals exact h.count c _

theorem State.flowsOk.classify (c : Chan) {a : Active} (ha : a.up.flowOk) (f : Frame) :
    (s.classify c a f).flowsOk := by
  have hc := s.classify_classified c a f
  generalize s.classify c a f = t at hc ⊢
  cases hc with
  | first _ count _ =>
    refine (h.setUp c ?_).count c _
    exact ⟨⟨Nat.one_le_ofNat, ascendingFrom_self f⟩, ha.2⟩
  | atWindow _ w _ => exact h.windowArrival c w f
  | counted k => exact h.count c k
  | ahead r least hr hnew hleast hmost => exact h.insertArrival c ha hr hnew hleast hmost
  | resync => exact h.resync c ha f

theorem State.flowsOk.arrival (octets : List Octet) : (s.arrival octets).flowsOk := by
  unfold State.arrival
  dsimp only
  split
  · exact h.of_lives rfl fun _ => rfl
  · split
    · next a ha =>
      split
      · exact (h.classify _ (h.active ha).2 _).settle
      · exact h.count _ _
    · exact h.of_lives rfl fun _ => rfl

/-! ### Playout instants -/

theorem State.flowsOk.primingInstant (c : Chan) {a : Active} (ha : a.up.flowOk) {reference : Option (BitVec 8)}
    {count : Nat} (hs : a.up.stream = .priming reference count) (count' : Nat) :
    (s.primingInstant c a reference count').flowsOk := by
  have hgoesOn : ∀ n, (s.setUp c { a.up with stream := .priming reference n }).flowsOk := fun n => by
    refine h.setUp c ⟨?_, ha.2⟩
    have hq := (UplinkFields.queueOk_iff _).mp ha.1
    rw [hs] at hq
    exact (UplinkFields.queueOk_iff _).mpr hq
  unfold State.primingInstant
  dsimp only
  split
  · next head rest hq =>
    split
    · cases reference with
      | none =>
        have hnil := ((UplinkFields.queueOk_iff _).mp ha.1).2.1 (congrArg Uplink.anchor hs)
        rw [hq] at hnil
        cases hnil
      | some r =>
        obtain ⟨hahead, hnearest⟩ := ha.head_nearest hs hq
        exact h.openWindow c ha _ (congrArg Uplink.anchor hs) hahead hnearest
    · exact hgoesOn _
  · exact hgoesOn _

theorem State.flowsOk.concealed (c : Chan) (a : Active) (lossRun : Nat) : (s.concealed c a lossRun).flowsOk := by
  unfold State.concealed
  dsimp only
  split
  · exact (h.count c _).warn c _
  · exact h.count c _

theorem State.flowsOk.playBlock (a : Active) (b : Block) : (s.playBlock a b).flowsOk :=
  h.of_frame (by simp) (by simp)

/-- In PLAYING and COMFORT the window of the next sequence opens, whatever the instant has chosen (R103). -/
theorem State.flowsOk.openNext (c : Chan) {u : UplinkFields} (hu : u.flowOk) {comfort : Bool} {expected : BitVec 8}
    {w : Window} (hs : u.stream = .running comfort expected w) (comfort' : Bool) :
    (s.openWindow c u comfort' (expected + 1)).flowsOk := by
  obtain ⟨hahead, hnearest⟩ := hu.next_ahead hs
  exact h.openWindow c hu comfort' (congrArg Uplink.anchor hs) hahead hnearest

theorem State.flowsOk.runningInstant (c : Chan) {a : Active} (ha : a.up.flowOk) {comfort : Bool}
    {expected : BitVec 8} {w : Window} (hs : a.up.stream = .running comfort expected w) :
    (s.runningInstant c a comfort expected w).flowsOk := by
  unfold State.runningInstant
  split
  · exact h
  · next block up comfort' hb =>
    have hkeeps := chooseBlock_keeps hb
    refine State.flowsOk.openNext ?_ c (ha.of_eq hkeeps) (hkeeps.2.1.trans hs) comfort'
    split
    · exact (h.playBlock a block).concealed c a _
    · exact h.playBlock a block

theorem State.flowsOk.plainInstant (c : Chan) {a : Active} (ha : a.up.flowOk) : (s.plainInstant c a).flowsOk := by
  unfold State.plainInstant
  split
  · next hs => exact (h.playBlock a _).primingInstant c ha hs _
  · next hs => exact h.runningInstant c ha hs

theorem State.flowsOk.sendToward (b : Chan) (target : Active) (sent : Sent) :
    (s.sendToward b target sent).flowsOk := by
  cases sent with
  | nothing => exact h
  | record r => exact h.handOn b _
  | translation samples => exact h.handOn b _
  | missed => exact h.encodeMiss b

theorem State.flowsOk.advanceSequence (b : Chan) : (s.advanceSequence b).flowsOk :=
  h.mapActive_keeps b fun _ => rfl

theorem State.flowsOk.splicedInstant (c : Chan) {a : Active} (ha : a.up.flowOk) (b : Chan) (target : Active) :
    (s.splicedInstant c a b target).flowsOk := by
  unfold State.splicedInstant
  split
  · next hs => exact (h.advanceSequence b).primingInstant c ha hs _
  · next hs =>
    split
    · exact h
    · next sent up comfort' hchoice =>
      have hkeeps := chooseSplice_keeps hchoice
      refine State.flowsOk.openNext (State.flowsOk.advanceSequence ?_ b) c (ha.of_eq hkeeps)
        (hkeeps.2.1.trans hs) comfort'
      split
      · exact (h.sendToward b target sent).concealed c a _
      · exact h.sendToward b target sent

/-! ### Boundaries -/

theorem State.flowsOk.reportActivity (c : Chan) (a : Active) : (s.reportActivity c a).flowsOk := by
  have hfixed : (if a.copyF = a.down.activity then s else s.record c .F .activityChanged).flowsOk := by
    split
    · exact h
    · exact h.record c _ _
  unfold State.reportActivity
  dsimp only
  split
  · exact hfixed
  · exact hfixed.record c _ _

theorem State.flowsOk.boundary (c : Chan) {a : Active} (ha : a.flowOk) : (s.boundary c a).flowsOk := by
  have hafter := h.setLife c (l := .active (afterBoundary s.time a)) (afterBoundary_flowOk s.time ha)
  unfold State.boundary
  dsimp only
  refine State.flowsOk.reportActivity ?_ c _
  split
  · exact hafter.handOn c _
  · exact hafter

/-! ### Completions and start deadlines -/

theorem State.flowsOk.closeWindow (c : Chan) (w : Window) : (s.closeWindow c w).flowsOk := by
  have hunqueued : (s.unqueue c .decode).flowsOk := h.of_frame (by simp) (by simp)
  unfold State.closeWindow
  split
  · exact h.setWindow c _
  · split
    · exact h.decodeMiss c
    · split
      · exact hunqueued.decodeMiss c
      · exact h
  all_goals exact h

theorem State.flowsOk.deliver (j : Job) : (s.deliver j).flowsOk := by
  unfold State.deliver
  split
  · exact h
  · split
    · exact (h.offerRecord _).mapActive_keeps _ fun _ => rfl
    · refine h.mapActive_keeps _ fun a => ?_
      split
      · next hs => simp only [Active.flow, hs, Uplink.anchor]
      · rfl

theorem State.flowsOk.afterCompletion (j : Job) : (s.afterCompletion j).flowsOk := by
  unfold State.afterCompletion
  split
  · exact h.releaseHeld _
  · unfold State.offerHeldDecode
    split
    · split
      · exact h.offerDecode _ _ _
      · exact h
    · exact h

theorem State.flowsOk.complete (e : Fin 4) (j : Job) : (s.complete e j).flowsOk := by
  have hleft : ({ s with engines := s.engines.set e.val (s.engines[e.val]).afterJob } : State).flowsOk :=
    h.of_lives rfl fun _ => rfl
  have harbitrated : (((({ s with engines := s.engines.set e.val (s.engines[e.val]).afterJob } : State).deliver
      j).afterCompletion j).arbitrate).flowsOk :=
    ((hleft.deliver j).afterCompletion j).of_frame (by simp) (by simp)
  exact harbitrated.settle

theorem State.flowsOk.encodeDeadline (c : Chan) : (s.encodeDeadline c).flowsOk := by
  have hunqueued : (s.unqueue c .encode).flowsOk := h.of_frame (by simp) (by simp)
  unfold State.encodeDeadline
  split
  · exact ((hunqueued.encodeMiss c).releaseHeld c).settle
  · split
    · have hdropped : ((s.dropLateHeld c).encodeMiss c).flowsOk := (h.setHeld c _).encodeMiss c
      dsimp only
      refine State.flowsOk.settle ?_
      split
      · exact hdropped
      · exact hdropped.releaseHeld c
    · exact h

theorem State.flowsOk.decodeDeadline (c : Chan) : (s.decodeDeadline c).flowsOk := by
  have hunqueued : (s.unqueue c .decode).flowsOk := h.of_frame (by simp) (by simp)
  unfold State.decodeDeadline
  split
  · exact (hunqueued.decodeMiss c).settle
  · split
    · exact (h.decodeMiss c).settle
    · exact h

/-! ### Frame syncs -/

theorem State.flowsOk.frameSync (incoming : Vector Octet 128) : (s.frameSync incoming).flowsOk := by
  refine State.flowsOk.settle ⟨Nat.mod_lt _ (by decide), fun c => ?_⟩
  simp only [State.life, State.chan, Vector.getElem_map]
  exact Life.flowOk_onSync s incoming (h.lives c)

end Operations

end Sys2Proof.Machine
end

section
/-! SUPPORT. Staging rows, the lifecycle, the end of a splice and the orders keep the queues and the phases. -/

namespace Sys2Proof.Machine

section Operations

variable {s : State} (h : s.flowsOk)
include h

/-! ### Rows -/

theorem State.flowsOk.moveTimeslot (c : Chan) (atPoint : Bool) (x : Slot) : (s.moveTimeslot c atPoint x).flowsOk := by
  unfold State.moveTimeslot
  split
  · exact h
  · dsimp only
    split
    · exact h
    · refine ((h.mapSlot x _).mapSlot _ _).mapChan c fun ch hch => ?_
      dsimp only
      exact Life.flowOk_mapFixed hch _

theorem State.flowsOk.applySlot (c : Chan) (atPoint : Bool) (p : Item × BitVec 16) :
    (State.applySlot c atPoint s p).flowsOk := by
  unfold State.applySlot
  split
  · exact h.moveTimeslot c atPoint _
  · exact h.mapChan c fun _ hch => Life.flowOk_applyItem hch _ _

theorem State.flowsOk.applyRow (l : Line) (atPoint : Bool) : (s.applyRow l atPoint).flowsOk := by
  unfold State.applyRow
  dsimp only
  split
  · exact h
  · next c _ =>
    have hslots := h.foldl (f := State.applySlot c atPoint) (fun _ p ht => ht.applySlot c atPoint p)
      (s.line l).row.slots
    refine (State.flowsOk.record ?_ c l _).mapLine l _
    split
    · exact hslots.mapChan c fun _ hch => Life.flowOk_rederived hch
    · exact hslots

theorem State.flowsOk.applyPending (l : Line) (c : Chan) (atPoint : Bool) : (s.applyPending l c atPoint).flowsOk := by
  unfold State.applyPending
  split
  · exact h.applyRow l atPoint
  · exact h

theorem State.flowsOk.applyBoth (c : Chan) (atPoint : Bool) : (s.applyBoth c atPoint).flowsOk :=
  (h.applyPending .F c atPoint).applyPending .R c atPoint

/-- A row lost changes of a context its event records alone. -/
theorem State.flowsOk.loseRow (l : Line) (c : Chan) : (s.loseRow l c).flowsOk := by
  refine h.of_frame (by simp) fun d => ?_
  rw [State.life_def, State.chan_loseRow]
  split
  · cases l <;> rfl
  · rfl

/-- The rows apply before the boundary and before the instant. -/
theorem State.flowsOk.takeBoundary (c : Chan) : (s.takeBoundary c).flowsOk := by
  have hrows := h.applyBoth c true
  unfold State.takeBoundary
  dsimp only
  split
  · next a ha => exact (hrows.boundary c (hrows.active ha)).settle
  · exact hrows.settle

theorem State.flowsOk.takeInstant (c : Chan) : (s.takeInstant c).flowsOk := by
  unfold State.takeInstant
  split
  · next a ha =>
    have hup : (a.nextInstant s.time).up.flowOk := (h.active ha).2
    split
    · exact (h.plainInstant c hup).settle
    · next b _ =>
      dsimp only
      split
      · exact ((h.applyBoth b true).splicedInstant c hup b _).settle
      · exact (h.applyBoth b true).settle
  · exact h

/-! ### The end of a splice -/

theorem State.flowsOk.sever (c : Chan) : (s.sever c).flowsOk :=
  (h.mapActive_keeps c (f := fun a => { a with partner := none }) fun _ => rfl).record c _ _

theorem State.flowsOk.resume (c : Chan) : (s.resume c).flowsOk := h.mapActive_keeps c fun _ => rfl

theorem State.flowsOk.redirect (c : Chan) : (s.redirect c).flowsOk := by
  unfold State.redirect
  split
  · exact h.offerDecode c _ _
  · exact h

theorem State.flowsOk.endSplice (a b : Chan) : (s.endSplice a b).flowsOk := by
  have hresumed := (((h.sever a).sever b).resume a).resume b
  unfold State.endSplice
  dsimp only
  split
  · exact (hresumed.redirect a).redirect b
  · exact (hresumed.redirect b).redirect a

theorem State.flowsOk.stopStreams (c : Chan) (a : Active) : (s.stopStreams c a).flowsOk := by
  have habandoned : ((s.abandonJob c .decode).abandonJob c .encode).flowsOk := h.of_frame (by simp) (by simp)
  unfold State.stopStreams
  dsimp only
  split
  · exact habandoned
  · next b _ => exact (((habandoned.sever c).sever b).resume b).redirect b

/-! ### The halves, which hold neither queue nor phase -/

theorem State.flowsOk.abortCheck (c : Chan) (x : HalfF) : (s.abortCheck c x).flowsOk := by
  unfold State.abortCheck
  split
  · exact h
  · have hlife := (h.mapChan c (f := fun ch => { ch with continuity := { result := .aborted, delay := 0 } })
      fun _ hch => hch).setLife c (l := .halfF { x with check := none }) trivial
    exact (hlife.record c _ _).mapSlot _ _

theorem State.flowsOk.releaseHalf (l : Line) (c : Chan) : (s.releaseHalf l c).flowsOk := by
  unfold State.releaseHalf
  split
  · next x _ => exact (((h.abortCheck c x).mapSlot _ _).setLife c (l := .free) trivial).loseRow .F c
  · exact (h.setLife c (l := .free) trivial).loseRow .R c
  · next a _ =>
    have hstopped := (h.stopStreams c a).mapSlot a.fixed.timeslot fun ts => { ts with entry := .free, source := .idle }
    have hleft := hstopped.setLife c
      (l := .halfR { tag := a.tag, radio := a.radio.derived .m32, timer := s.halfWaitTimer .R }) trivial
    exact ((hleft.record c _ _).loseRow .F c).applyPending .R c false
  · next a _ =>
    have hstopped := (h.stopStreams c a).mapSlot a.fixed.timeslot fun ts => { ts with source := .idle }
    have hleft := hstopped.setLife c
      (l := .halfF { tag := a.tag, fixed := a.fixed, timer := s.halfWaitTimer .F, check := none }) trivial
    exact ((hleft.record c _ _).loseRow .R c).applyPending .F c false
  · exact h

/-! ### Taking an order -/

theorem State.flowsOk.carryOut (o : Order) (owned : Bool) {body : State → Effect} (hbody : (body s).state.flowsOk) :
    (carryOut o owned body s).state.flowsOk := by
  unfold Machine.carryOut
  split
  · exact h
  · split
    · exact h
    · exact hbody

/-- An order keeps the queues and the phases where its verb does, whoever it is for. -/
theorem State.flowsOk.takeOrder (o : Order) (owned broadcast : Bool) (ch : State → BitVec 7)
    {body : State → Effect} (hbody : ∀ {t : State}, t.flowsOk → (body t).state.flowsOk) :
    (takeOrder o owned broadcast ch body s).flowsOk := by
  have htouch : (s.touch o.line).flowsOk := h.of_frame (by simp) (by simp)
  have hcarried := htouch.carryOut o owned (hbody htouch)
  unfold Machine.takeOrder
  split
  · exact h
  · split
    · refine State.flowsOk.mapLine ?_ _ _
      split
      · exact hcarried
      · exact htouch
    · split
      · exact hcarried.of_frame (by simp) (by simp)
      · exact h.mapLine _ _

/-! ### The orders on channels -/

theorem State.flowsOk.bindFree (c : Chan) (x : Slot) (fixed : FixedHalf) (tag : BitVec 14) :
    (s.bindFree c x fixed tag).flowsOk :=
  (h.mapSlot x fun ts => { ts with entry := .bound c, source := .idle }).mapChan c
    (f := fun ch => ch.fresh (.halfF { tag, fixed, timer := s.halfWaitTimer .F, check := none })) fun _ _ => trivial

theorem State.flowsOk.bindHalfR (c : Chan) (x : Slot) (fixed : FixedHalf) (half : HalfR) :
    (s.bindHalfR c x fixed half).flowsOk :=
  (((h.mapSlot x fun ts => { ts with entry := .bound c, source := .idle }).setLife c
    (l := .active (s.entry c half.tag fixed (half.radio.derived fixed.cap))) (s.entry_flowOk c _ _ _)).record
    c _ _).settle

theorem State.flowsOk.bindEffect (c : Chan) (x : Slot) (p : Fin 8) (tag : BitVec 14) :
    (bindEffect c x p tag s).state.flowsOk := by
  unfold Machine.bindEffect
  dsimp only
  split
  · exact h
  · exact h
  · split
    · exact h
    · split
      · exact h
      · exact h.bindFree c x _ tag
  · split
    · exact h
    · split
      · exact h
      · split
        · exact h
        · exact h.bindHalfR c x _ _

theorem State.flowsOk.attachFree (c : Chan) (radio : RadioHalf) (tag : BitVec 14) :
    (s.attachFree c radio tag).flowsOk :=
  h.mapChan c (f := fun ch => ch.fresh (.halfR { tag, radio, timer := s.halfWaitTimer .R })) fun _ _ => trivial

theorem State.flowsOk.attachHalfF (c : Chan) (radio : RadioHalf) (x : HalfF) : (s.attachHalfF c radio x).flowsOk :=
  (((h.abortCheck c x).setLife c (l := .active (s.entry c x.tag x.fixed radio)) (s.entry_flowOk c _ _ _)).record
    c _ _).settle

theorem State.flowsOk.attachEffect (c : Chan) (modeSet : BitVec 3) (requested : BitVec 2) (tag : BitVec 14) :
    (attachEffect c modeSet requested tag s).state.flowsOk := by
  unfold Machine.attachEffect
  dsimp only
  split
  · exact h
  · exact h
  · exact h
  · split
    · exact h
    · exact h.attachFree c _ tag
  · split
    · exact h
    · split
      · exact h
      · exact h.attachHalfF c _ _

theorem State.flowsOk.releaseEffect (l : Line) (c : Chan) : (releaseEffect l c s).state.flowsOk := by
  unfold Machine.releaseEffect
  split
  · exact (h.releaseHalf l c).settle
  · exact h

/-- A playout that starts anew has an empty queue and no reference (R105). -/
theorem State.flowsOk.handoverEffect (c : Chan) : (handoverEffect c s).state.flowsOk := by
  have habandoned : (s.abandonJob c .decode).flowsOk := h.of_frame (by simp) (by simp)
  unfold Machine.handoverEffect
  split
  · next a ha =>
    refine habandoned.setUp c ?_
    exact ⟨⟨Nat.zero_le 6, rfl⟩, (h.active ha).2.2⟩
  · exact h

theorem State.flowsOk.startCheck (c : Chan) (x : HalfF) : (s.startCheck c x).flowsOk := by
  unfold State.startCheck
  refine (h.mapChan c ?_).mapSlot _ _
  exact fun _ _ => trivial

theorem State.flowsOk.checkEffect (c : Chan) : (checkEffect c s).state.flowsOk := by
  unfold Machine.checkEffect
  split
  · split
    · exact h
    · split
      · exact h
      · exact h.startCheck c _
  · exact h

theorem State.flowsOk.joinSplice (c : Chan) {a : Active} (ha : a.flowOk) (partner : Chan) :
    (s.joinSplice c a partner).flowsOk := by
  unfold State.joinSplice State.idleSlot
  exact (h.setLife c (l := .active { a with partner := some partner, down := a.down.spliced }) ha).mapSlot _ _

theorem State.flowsOk.spliceEffect (a b : Chan) : (spliceEffect a b s).state.flowsOk := by
  unfold Machine.spliceEffect
  split
  · next x y hx hy =>
    split
    · exact h
    · exact (h.joinSplice a (h.active hx) b).joinSplice b (h.active hy) a
  · exact h

theorem State.flowsOk.unspliceEffect (c : Chan) : (unspliceEffect c s).state.flowsOk := by
  unfold Machine.unspliceEffect
  split
  · exact (h.endSplice c _).settle
  · exact h

/-! ### Staging orders -/

theorem State.flowsOk.stageEffect (l : Line) (c : Chan) (i : Item) (v : BitVec 16) :
    (stageEffect l c i v s).state.flowsOk := by
  unfold Machine.stageEffect
  dsimp only
  split
  · exact h
  · split
    · exact h
    · split
      · exact h
      · split
        · exact h
        · split
          · exact h
          · split
            · exact h
            · unfold State.stageInto
              dsimp only
              exact h.mapLine l _

theorem State.flowsOk.commitEffect (l : Line) : (commitEffect l s).state.flowsOk := by
  have hreserved : ∀ row c, (s.reserveFor row c).flowsOk := fun row c => by
    unfold State.reserveFor
    split
    · exact h.mapSlot _ _
    · exact h
  unfold Machine.commitEffect
  dsimp only
  split
  · exact h
  · split
    · exact h
    · split
      · exact h
      · split
        · dsimp only
          exact (hreserved _ _).mapLine l _
        · exact ((hreserved _ _).applyRow l false).settle

theorem State.flowsOk.cancelEffect (l : Line) : (cancelEffect l s).state.flowsOk := by
  unfold Machine.cancelEffect
  split
  · exact h
  · unfold State.done
    dsimp only
    exact h.mapLine l _

/-! ### Orders that read, clear and write -/

theorem State.flowsOk.readChannelEffect (l : Line) (c : Chan) (aspect : Fin 16) :
    (readChannelEffect l c aspect s).state.flowsOk := by
  unfold Machine.readChannelEffect
  dsimp only
  split
  · exact h.mapActive_keeps c fun _ => by cases l <;> rfl
  · split
    · exact h
    · split <;> exact h

theorem State.flowsOk.clearEventsEffect (l : Line) (c : Chan) (kinds : BitVec 9) :
    (clearEventsEffect l c kinds s).state.flowsOk :=
  (h.mapChan c fun _ hch => by cases l <;> exact hch).settle

theorem State.flowsOk.clearLineEventsEffect (l : Line) (kinds : BitVec 5) :
    (clearLineEventsEffect l kinds s).state.flowsOk := by
  unfold Machine.clearLineEventsEffect
  dsimp only
  exact h.mapLine l _

theorem State.flowsOk.selectItemEffect (l : Line) (sp : Space) (index : Fin 128) :
    (selectItemEffect l sp index s).state.flowsOk := by
  unfold Machine.selectItemEffect
  split
  · exact h
  · dsimp only
    exact h.mapLine l _

theorem State.flowsOk.stored (l : Line) (clamped : Bool) (v : Nat) : (s.stored l clamped v).state.flowsOk :=
  h.of_frame (by simp [State.stored]) (by simp [State.stored])

theorem State.flowsOk.writeItemEffect (l : Line) (v : BitVec 16) : (writeItemEffect l v s).state.flowsOk := by
  have hsettings : ∀ f, (s.setSettings l f).flowsOk := fun _ => h.mapLine l _
  unfold Machine.writeItemEffect State.writeAt
  split
  · exact h
  · split
    · refine State.flowsOk.stored ?_ l _ _
      exact h.of_lives rfl fun _ => rfl
    · unfold State.writePattern
      dsimp only
      split
      · exact h
      · split
        · refine State.flowsOk.stored ?_ l _ _
          exact h.of_lives rfl fun _ => rfl
        · refine State.flowsOk.stored ?_ l _ _
          exact h.of_lives rfl fun _ => rfl
    · unfold State.writeSetting
      split
      · exact ((hsettings _).mapLine l _).stored l _ _
      · split
        · exact (hsettings _).stored l _ _
        · exact h
      · exact (hsettings _).stored l _ _
      · exact (hsettings _).stored l _ _
    · exact h

/-! ### Service orders -/

theorem State.flowsOk.engineInEffect (e : Fin 4) : (engineInEffect e s).state.flowsOk := by
  have hin : ({ s with engines := s.engines.set e.val (s.engines[e.val]).serviceIn } : State).flowsOk :=
    h.of_lives rfl fun _ => rfl
  exact hin.of_frame (State.device_arbitrate _) (State.life_arbitrate _)

theorem State.flowsOk.restartEffect (l : Line) : (restartEffect l s).state.flowsOk := by
  unfold Machine.restartEffect
  dsimp only
  split
  · exact h.of_lives rfl fun _ => rfl
  · split
    · exact h.of_lives rfl fun _ => rfl
    · exact h.of_frame (by simp) (by simp)

/-! ### Timers -/

theorem State.flowsOk.halfWaitExpiry (c : Chan) : (s.halfWaitExpiry c).flowsOk := by
  unfold State.halfWaitExpiry
  split
  · next l _ => exact ((h.releaseHalf l c).record c l _).settle
  · exact h

theorem State.flowsOk.severAll : s.severAll.flowsOk :=
  h.foldl (fun t c ht => by
    split
    · exact ht.sever c
    · exact ht) _

theorem State.flowsOk.watchdogExpiry (l : Line) : (s.watchdogExpiry l).flowsOk := by
  have hsilent : ((s.mapLine l fun u => { u with silent := true, expiry := none }).recordLine (otherLine l)
      .partnerSilent).flowsOk := h.of_frame (by simp) (by simp)
  unfold State.watchdogExpiry
  dsimp only
  refine State.flowsOk.settle ?_
  split
  · exact (hsilent.severAll.foldl (fun _ c ht => ht.releaseHalf l c) _).mapLine l _
  · exact hsilent

/-! ### Events that are due or not -/

/-- An event that is not due leaves the state as it is (log 3). -/
theorem State.flowsOk.ifDue {t : State} (ht : t.flowsOk) (p : Prop) [Decidable p] :
    (if p then t else s).flowsOk := by
  split
  · exact ht
  · exact h

theorem State.flowsOk.spoil (l : Line) : (s.spoil l).flowsOk := h.ifDue (h.mapLine l _) _

theorem State.flowsOk.noReply (l : Line) : (s.noReply l).flowsOk := h.ifDue (h.mapLine l _) _

end Operations

/-- A part whose contexts are all FREE, at a cycle within 0..159. -/
theorem State.flowsOk_of_free {s : State} (hc : s.cycle < 160) (hl : ∀ c, s.life c = .free) : s.flowsOk :=
  ⟨hc, fun c => by rw [hl c]; trivial⟩

theorem State.flowsOk_powerOn (s : State) : s.powerOn.flowsOk :=
  State.flowsOk_of_free (Nat.zero_lt_succ _) State.life_reset

/-- A command leaves a next state, with the queues and the phases as they must be where they were so. -/
theorem State.flowsOk.exec {s : State} (h : s.flowsOk) (i : Instr) : ∃ t, exec i s = .next t ∧ t.flowsOk := by
  cases i with
  | powerOn => exact ⟨_, rfl, s.flowsOk_powerOn⟩
  | resetLow => exact ⟨_, rfl, s.flowsOk_powerOn.of_lives rfl fun _ => rfl⟩
  | resetRise =>
    refine ⟨_, rfl, h.ifDue ?_ _⟩
    exact s.flowsOk_powerOn.of_lives rfl fun _ => rfl
  | ready strapF strapR =>
    refine ⟨_, rfl, h.ifDue ?_ _⟩
    exact ⟨Nat.zero_lt_succ _, h.lives⟩
  | frameSync incoming =>
    refine ⟨_, rfl, ?_⟩
    split
    · exact h.of_lives rfl fun _ => rfl
    · refine h.ifDue ?_ _
      exact h.of_lives rfl fun _ => rfl
    · exact h.ifDue (h.frameSync incoming) _
  | continuityTimeout c =>
    refine ⟨_, rfl, ?_⟩
    split
    · refine h.ifDue ((State.flowsOk.record (h.mapChan c ?_) c _ _).settle) _
      exact fun _ _ => trivial
    · exact h
  | downlinkBoundary c => exact ⟨_, rfl, h.ifDue (h.takeBoundary c) _⟩
  | playoutInstant c => exact ⟨_, rfl, h.ifDue (h.takeInstant c) _⟩
  | windowStartDeadline c =>
    refine ⟨_, rfl, ?_⟩
    split
    · exact h.ifDue (h.closeWindow c _).settle _
    · exact h
  | jobStartDeadline c kind =>
    refine ⟨_, rfl, ?_⟩
    cases kind with
    | encode => exact h.encodeDeadline c
    | decode => exact h.decodeDeadline c
  | jobCompletion e =>
    refine ⟨_, rfl, ?_⟩
    split
    · next j ends _ _ =>
      have hclock : ({ s with clock := max s.clock ends } : State).flowsOk := h.of_lives rfl fun _ => rfl
      exact h.ifDue (hclock.complete e j) _
    · exact h
  | recordArrival octets =>
    have hbegun : ({ s with begun := s.begun - 1 } : State).flowsOk := h.of_lives rfl fun _ => rfl
    exact ⟨_, rfl, h.ifDue (hbegun.arrival octets) _⟩
  | recordTransmitted =>
    refine ⟨_, rfl, ?_⟩
    split
    · next ends _ =>
      have hidle : ({ s with clock := max s.clock ends, sending := none } : State).flowsOk :=
        h.of_lives rfl fun _ => rfl
      exact h.ifDue (hidle.of_frame (State.device_startTransmit _) (State.life_startTransmit _)) _
    · exact h
  | halfWaitExpiry c => exact ⟨_, rfl, h.ifDue (h.halfWaitExpiry c) _⟩
  | watchdogExpiry l => exact ⟨_, rfl, h.ifDue (h.watchdogExpiry l) _⟩
  | restartLapse l => exact ⟨_, rfl, h.ifDue (h.of_frame (by simp) (by simp)) _⟩
  | earlySelectRise l => exact ⟨_, rfl, (h.spoil l).noReply l⟩
  | orderCrcMismatch l => exact ⟨_, rfl, (h.spoil l).noReply l⟩
  | extraClock l => exact ⟨_, rfl, h.spoil l⟩
  | nop o => exact ⟨_, rfl, h.takeOrder o _ _ _ fun ht => ht⟩
  | bind o x p tag => exact ⟨_, rfl, h.takeOrder o _ _ _ fun ht => ht.bindEffect _ x p tag⟩
  | attach o modeSet requested tag =>
    exact ⟨_, rfl, h.takeOrder o _ _ _ fun ht => ht.attachEffect _ modeSet requested tag⟩
  | release o => exact ⟨_, rfl, h.takeOrder o _ _ _ fun ht => ht.releaseEffect _ _⟩
  | handover o => exact ⟨_, rfl, h.takeOrder o _ _ _ fun ht => ht.handoverEffect _⟩
  | check o => exact ⟨_, rfl, h.takeOrder o _ _ _ fun ht => ht.checkEffect _⟩
  | splice o partner => exact ⟨_, rfl, h.takeOrder o _ _ _ fun ht => ht.spliceEffect _ partner⟩
  | unsplice o => exact ⟨_, rfl, h.takeOrder o _ _ _ fun ht => ht.unspliceEffect _⟩
  | stage o item v => exact ⟨_, rfl, h.takeOrder o _ _ _ fun ht => ht.stageEffect _ _ item v⟩
  | commit o => exact ⟨_, rfl, h.takeOrder o _ _ _ fun ht => ht.commitEffect _⟩
  | cancel o => exact ⟨_, rfl, h.takeOrder o _ _ _ fun ht => ht.cancelEffect _⟩
  | readChannel o aspect => exact ⟨_, rfl, h.takeOrder o _ _ _ fun ht => ht.readChannelEffect _ _ aspect⟩
  | nextEvent o => exact ⟨_, rfl, h.takeOrder o _ _ _ fun ht => ht⟩
  | clearEvents o kinds => exact ⟨_, rfl, h.takeOrder o _ _ _ fun ht => ht.clearEventsEffect _ _ kinds⟩
  | clearLineEvents o kinds => exact ⟨_, rfl, h.takeOrder o _ _ _ fun ht => ht.clearLineEventsEffect _ kinds⟩
  | selectItem o sp index => exact ⟨_, rfl, h.takeOrder o _ _ _ fun ht => ht.selectItemEffect _ sp index⟩
  | readItem o =>
    exact ⟨_, rfl, h.takeOrder o _ _ _ fun ht => ht.of_frame (State.device_advancePointer _ _)
      (State.life_advancePointer _ _)⟩
  | writeItem o v => exact ⟨_, rfl, h.takeOrder o _ _ _ fun ht => ht.writeItemEffect _ v⟩
  | engineServiceOut o e => exact ⟨_, rfl, h.takeOrder o _ _ _ fun ht => ht.of_lives rfl fun _ => rfl⟩
  | engineServiceIn o e => exact ⟨_, rfl, h.takeOrder o _ _ _ fun ht => ht.engineInEffect e⟩
  | restart o => exact ⟨_, rfl, h.takeOrder o _ _ _ fun ht => ht.restartEffect _⟩
  | restartExecution =>
    refine ⟨_, rfl, ?_⟩
    split
    · exact State.flowsOk_of_free h.cycle fun c => by
        simp [State.restarted, State.life, State.chan, Channel.reset]
    · exact h
  | recordStart =>
    refine ⟨_, rfl, h.ifDue ?_ _⟩
    exact h.of_lives rfl fun _ => rfl
  | unknownVerb o code => exact ⟨_, rfl, h.takeOrder o _ _ _ fun ht => ht⟩

/-- A step is a command on the state with the rest of the queue, or one core clock (log 1). -/
theorem State.flowsOk.step {s : State} (h : s.flowsOk) : ∃ t, step s = .next t ∧ t.flowsOk := by
  unfold Machine.step State.front
  cases s.pending with
  | nil =>
    refine ⟨_, rfl, h.ifDue ?_ _⟩
    exact h.of_lives rfl fun _ => rfl
  | cons i rest => exact State.flowsOk.exec (s := { s with pending := rest }) (h.of_lives rfl fun _ => rfl) i

/-- Settles O58: what moves a queue or a phase is an arrival, an opened window, a boundary, a new start of the playout or an
entry to ACTIVE; every other operation leaves what the relation sees of a context. -/
theorem stepKeepsReceiveQueuesOrdered : Obligations.StepKeepsReceiveQueuesOrdered := by
  intro s t hqueues hphases hstep
  obtain ⟨u, hu, hok⟩ := State.flowsOk.step ((State.flowsOk_iff s).mpr ⟨hqueues, hphases⟩)
  rw [hstep] at hu
  cases hu
  exact (State.flowsOk_iff t).mp hok

end Sys2Proof.Machine
end

section
/-! SUPPORT. The instant of an unspliced channel in PLAYING and COMFORT: the block that its window gives is played, a
concealment accounted, and the window of the next instant opened. -/

namespace Sys2Proof.Machine

/-! ### The block on the highway (R30, R61) -/

/-- The octets of a block under the to-fixed gain of a context. -/
def Active.octets (a : Active) (block : Block) : List Octet :=
  block.map fun x => Speech.compress (Speech.gain a.fixed.gainToFixed x)

theorem State.slot_playBlock (s : State) (a : Active) (block : Block) (x : Slot) :
    (s.playBlock a block).slot x
      = if a.fixed.timeslot = x then
          { s.slot x with source := .block ((a.octets block).drop 1), out := (a.octets block).headD 0 }
        else s.slot x := by
  have hoctets : (Speech.gainBlock a.fixed.gainToFixed block).map Speech.compress = a.octets block := by
    rw [Speech.gainBlock, List.map_map]
    rfl
  rw [State.playBlock, State.slot_mapSlot, hoctets]

/-! ### The instant (R88, R99 to R103) -/

/-- An instant of an unspliced channel in PLAYING or COMFORT that is due. -/
theorem exec_playoutInstant_running {s : State} {c : Chan} {a : Active} {comfort : Bool} {expected : BitVec 8}
    {w : Window} (hl : s.life c = .active a) (hp : a.partner = none) (hi : a.up.instant ≤ s.time)
    (hs : a.up.stream = .running comfort expected w) (hw : w.state.settled false = true) :
    exec (.playoutInstant c) s
      = .next (s.runningInstant c (a.nextInstant s.time) comfort expected w).settle := by
  have hdue : s.instantDue c = true := by simp [State.instantDue, hl, hs, State.reached, hi, hp, hw]
  have hnext : (a.nextInstant s.time).up.stream = .running comfort expected w := hs
  show execPlayoutInstant c s = _
  simp only [execPlayoutInstant, hdue, if_true, State.takeInstant, hl, hp, State.plainInstant, hnext]

/-- An event from `s` to `t` that plays a block of an unspliced channel, accounts a concealment where `conceals` holds
(`v`), and opens the window of the next expected sequence. -/
structure State.plays (s v t : State) (c : Chan) (a : Active) (block : Block) (conceals : Prop) (up : UplinkFields)
    (comfort : Bool) (expected : BitVec 8) (queue : List Frame) (next : WindowState) : Prop where
  accounted : (s.playBlock a block).accounts v conceals c a up.lossRun
  opened : v.sameButLife t c
  device : t.device = v.device
  link : t.link = v.link
  slot : ∀ x, t.slot x = v.slot x
  lines : s.sameLines t
  window : v.windowOpens t c none a.up.queue expected queue next
  life : t.life c = .active { a with up := { up with
    instant := s.time + 160, queue, stream := .running comfort expected { deadline := s.time + 152, state := next } } }

section Plays

variable {s v t : State} {c : Chan} {a : Active} {block : Block} {conceals : Prop} {up : UplinkFields} {comfort : Bool}
  {expected : BitVec 8} {queue : List Frame} {next : WindowState}
  (h : s.plays v t c a block conceals up comfort expected queue next)
include h

theorem State.plays.streamFrame : s.streamFrame t [c] [a.fixed.timeslot] := by
  refine ⟨?_, fun d hd => ?_, fun x hx => ?_⟩
  · rw [h.device, h.accounted.device, State.device_playBlock]
  · rw [h.opened.sameChannels d hd, h.accounted.others d hd, State.chan_playBlock]
  · rw [h.slot, h.accounted.slot, State.slot_playBlock, if_neg fun hc => hx (List.mem_singleton.mpr hc.symm)]

theorem State.plays.link_eq : t.link = s.link := by
  rw [h.link, h.accounted.link, State.link_playBlock]

theorem State.plays.slot_self :
    t.slot a.fixed.timeslot
      = { s.slot a.fixed.timeslot with
          source := .block ((a.octets block).drop 1), out := (a.octets block).headD 0 } := by
  rw [h.slot, h.accounted.slot, State.slot_playBlock, if_pos rfl]

theorem State.plays.windowOpens : s.windowOpens t c none a.up.queue expected queue next :=
  State.windowOpens_of_eq (h.accounted.pool.trans (State.pool_playBlock s a block))
    (h.accounted.device.trans (State.device_playBlock s a block)) h.window

/-- Of the channel itself an instant that conceals nothing changes the uplink alone. -/
theorem State.plays.chan_self (hnot : ¬conceals) : t.chan c = { s.chan c with life := t.life c } := by
  rw [h.opened c, if_pos rfl, h.accounted.kept hnot, State.chan_playBlock]

theorem State.plays.counter_self (hp : conceals) (k : Counter) :
    (t.chan c).counter k
      = if k = .blocksConcealed then saturatingSucc ((s.chan c).counter k) else (s.chan c).counter k := by
  have hcounted := h.accounted.counted k hp
  rw [State.chan_playBlock] at hcounted
  rw [h.opened c, if_pos rfl]
  exact hcounted

theorem State.plays.events_self (hp : conceals) (l : Line) :
    (t.chan c).events l
      = if up.lossRun = a.fixed.lossToMute then s.warnedFor l .muted ((s.chan c).events l) else (s.chan c).events l := by
  have hwarned := h.accounted.warned l hp
  rw [State.chan_playBlock, State.warnedFor_of_settings (s := s) (by rw [State.line_playBlock])] at hwarned
  rw [h.opened c, if_pos rfl, ← hwarned]
  cases l <;> rfl

theorem State.plays.continuity_self : (t.chan c).continuity = (s.chan c).continuity := by
  rw [h.opened c, if_pos rfl, ← State.chan_playBlock s a block c]
  exact h.accounted.continuity

end Plays

/-- The instant, from the block that the window chooses. -/
theorem State.plays_playoutInstant {s : State} {c : Chan} {a : Active} {comfort : Bool} {expected : BitVec 8} {w : Window}
    (hl : s.life c = .active a) (hp : a.partner = none) (hi : a.up.instant ≤ s.time)
    (hs : a.up.stream = .running comfort expected w) (hw : w.state.settled false = true) {block : Block}
    {up : UplinkFields} {comfort' : Bool} (hq : up.queue = a.up.queue)
    (hchoice : chooseBlock (a.nextInstant s.time) comfort w.state
      = some (block, { up with instant := s.time + 160 }, comfort')) :
    ∃ v t queue next, exec (.playoutInstant c) s = .next t
      ∧ s.plays v t c a block (w.state = .closed ∧ comfort = false) up comfort' (expected + 1) queue next := by
  obtain ⟨v, hv⟩ : ∃ v, v = (s.playBlock a block).concealedIf (w.state = .closed ∧ comfort = false) c a up.lossRun :=
    ⟨_, rfl⟩
  have haccounted : (s.playBlock a block).accounts v (w.state = .closed ∧ comfort = false) c a up.lossRun :=
    hv ▸ State.accounts_concealedIf _ _ _ _ _
  have hresult : s.runningInstant c (a.nextInstant s.time) comfort expected w
      = v.openWindow c { up with instant := s.time + 160 } comfort' (expected + 1) := by
    simp only [State.runningInstant, hchoice, hv]
    rfl
  have hlife : v.life c = .active a := by
    rw [haccounted.life, State.life_playBlock]
    exact hl
  have htime : v.time = s.time :=
    State.time_of_device (haccounted.device.trans (State.device_playBlock s a block))
  obtain ⟨queue, next, hopens, hopened⟩ := State.windowOpens_openWindow hlife none (.inl ⟨hp, rfl⟩)
    { up with instant := s.time + 160 } comfort' (expected + 1)
  rw [htime] at hopened
  refine ⟨v, _, queue, next, exec_playoutInstant_running hl hp hi hs hw, ?_⟩
  rw [hresult]
  refine ⟨haccounted, v.sameButLife_openWindow c _ _ _, by simp, by simp, by simp,
    State.sameLines_settle fun l => ?_, hq ▸ hopens, hopened⟩
  rw [State.line_openWindow, haccounted.line, State.line_playBlock]

/-! ### The statements -/

/-- Settles O13: a READY window gives its block. -/
theorem readyWindowPlaysTheDecodedBlock : Obligations.ReadyWindowPlaysTheDecodedBlock := by
  intro c s a comfort expected w f block hl hp hi hs hw
  obtain ⟨v, t, queue, next, hexec, h⟩ := State.plays_playoutInstant (block := block) (comfort' := false)
    (up := { a.up with lastGood := block, lossRun := 0 }) hl hp hi hs (by rw [hw]; rfl) rfl (by rw [hw]; rfl)
  have hnot : ¬(w.state = .closed ∧ comfort = false) := fun hc => nomatch hw.symm.trans hc.1
  refine ⟨t, a.octets block, queue, next, hexec, h.streamFrame, h.link_eq, h.lines, rfl, h.slot_self, h.windowOpens, ?_⟩
  rw [h.chan_self hnot, h.life]

/-- A QUIET_NOTED window and a CLOSED one in COMFORT choose the comfort block of the level noted or held (R99, R101). -/
theorem chooseBlock_comfort {a : Active} {comfort : Bool} {w : WindowState} {level : Nat} {block : Block}
    {noise : BitVec 16}
    (hw : (∃ octet : Octet, w = .quietNoted octet ∧ level = min 63 octet.toNat)
      ∨ (w = .closed ∧ comfort = true ∧ level = a.up.comfortLevel))
    (hblock : Speech.comfortBlock level a.up.noise = (block, noise)) (time : Nat) :
    w.settled false = true ∧ ¬(w = .closed ∧ comfort = false)
      ∧ chooseBlock (a.nextInstant time) comfort w
        = some (block, { a.up with
            comfortLevel := level, noise := noise, lossRun := if w = .closed then a.up.lossRun else 0
            instant := time + 160 }, true) := by
  have hnoise : (a.nextInstant time).up.noise = a.up.noise := rfl
  rcases hw with ⟨octet, rfl, rfl⟩ | ⟨rfl, rfl, rfl⟩
  · refine ⟨rfl, fun hc => (nomatch hc.1), ?_⟩
    simp only [chooseBlock, comfortLevelOf, hnoise, hblock]
    rfl
  · have hlevel : (a.nextInstant time).up.comfortLevel = a.up.comfortLevel := rfl
    refine ⟨rfl, fun hc => (nomatch hc.2), ?_⟩
    simp only [chooseBlock, hlevel, hnoise, hblock, if_true]
    rfl

/-- Settles O14: the comfort block of the level noted, or of the level held. -/
theorem comfortBlocksAreGenerated : Obligations.ComfortBlocksAreGenerated := by
  intro c s a comfort expected w level block noise hl hp hi hs hw hblock
  obtain ⟨hsettled, hnot, hchoice⟩ := chooseBlock_comfort hw hblock s.time
  obtain ⟨v, t, queue, next, hexec, h⟩ := State.plays_playoutInstant
    (up := { a.up with
      comfortLevel := level, noise := noise, lossRun := if w.state = .closed then a.up.lossRun else 0 })
    hl hp hi hs hsettled rfl hchoice
  refine ⟨t, a.octets block, queue, next, hexec, h.streamFrame, h.link_eq, h.lines, rfl, h.slot_self, h.windowOpens, ?_⟩
  rw [h.chan_self hnot, h.life]

/-- Settles O15: the last good block under the scale of the loss run, or zeros; the concealment is counted, and warned of
where the run reaches L. -/
theorem closedWindowConceals : Obligations.ClosedWindowConceals := by
  rintro c s a expected w run hl hp hi hs hw rfl
  obtain ⟨v, t, queue, next, hexec, h⟩ := State.plays_playoutInstant (comfort' := false)
    (block := Speech.concealment (min 255 (a.up.lossRun + 1)) a.fixed.lossToMute a.up.lastGood)
    (up := { a.up with lossRun := min 255 (a.up.lossRun + 1) }) hl hp hi hs (by rw [hw]; rfl) rfl (by rw [hw]; rfl)
  have hconceals : w.state = .closed ∧ false = false := ⟨hw, rfl⟩
  exact ⟨t, _, a.octets _, queue, next, hexec, h.streamFrame, h.link_eq, h.lines, rfl, rfl, h.slot_self, h.windowOpens,
    h.life, h.counter_self hconceals, h.events_self hconceals .F, h.events_self hconceals .R, h.continuity_self⟩

end Sys2Proof.Machine
end

section
/-! SUPPORT. A DECODE given up, and HANDOVER, which starts the playout of a channel anew. -/

namespace Sys2Proof.Machine

/-! ### The DECODE of a channel given up (R97, R130, R132) -/

theorem State.jobs_abandonJob (s : State) (c : Chan) (k : JobKind) :
    (s.abandonJob c k).jobs = s.jobs.filter fun j => !(decide (j.channel = c) && decide (j.kind = k)) := rfl

theorem State.engines_abandonJob (s : State) (c : Chan) (k : JobKind) (e : Fin 4) :
    (s.abandonJob c k).engines[e.val]
      = (s.engines[e.val]).mapJob fun j => if j.channel = c ∧ j.kind = k then { j with discard := true } else j := by
  simp [State.abandonJob, Job.isOf]

/-- The uplink fields of an ACTIVE channel replaced, and nothing else of it. -/
theorem State.chan_setUp {s : State} {c : Chan} {a : Active} (hl : s.life c = .active a) (up : UplinkFields) (d : Chan) :
    (s.setUp c up).chan d = if c = d then { s.chan d with life := .active { a with up } } else s.chan d := by
  rw [State.setUp, State.chan_mapActive]
  split
  · next hd => rw [Channel.mapActive_of_active (hd ▸ hl)]
  · rfl

/-! ### HANDOVER (R105) -/

theorem exec_handover {o : Order} (ho : o.line = .R) (s : State) :
    exec (.handover o) s = .next (takeOrder o true false (echo o) (handoverEffect o.channel) s) := by
  show Host.Outcome.next (takeOrder o o.onR false (echo o) _ s) = _
  rw [Order.onR, ho]
  rfl

/-- Of the contexts, a playout that starts anew changes its own uplink alone. -/
theorem State.chan_primeAnew {s : State} {c : Chan} {a : Active} (hl : s.life c = .active a) (d : Chan) :
    (s.primeAnew c a).chan d
      = if c = d then
          { s.chan d with life := .active { a with up := { a.up with
            queue := [], stream := .priming none 0, lastGood := List.replicate 160 0, lossRun := 0 } } }
        else s.chan d := by
  rw [State.primeAnew, State.chan_setUp (a := a) (by simpa using hl), State.chan_abandonJob]
  rfl

/-- An order whose effect leaves the Line Units as the taking of the order did. -/
theorem State.orderFrame_of_touch {s e : State} {o : Order} {chans : List Chan} {slots : List Slot}
    (hd : e.device = s.device) (hc : s.sameChannels e chans) (hs : s.sameSlots e slots)
    (hline : ∀ l, e.line l = (s.touch o.line).line l) : s.orderFrame e o chans slots := by
  obtain ⟨-, -, -, htaken, hother⟩ := s.orderFrame_touch o
  exact ⟨hd, hc, hs, hline o.line ▸ htaken, hline (otherLine o.line) ▸ hother⟩

/-- Settles O35: the playout starts anew on the touched state; elsewhere the order is refused. -/
theorem handoverPrimesAnew : Obligations.HandoverPrimesAnew := by
  intro o s ha ho
  refine ⟨fun hnot => ?_, fun a hl => ?_⟩
  · refine State.refuses_of_effect ha (exec_handover ho s) ?_
    unfold handoverEffect
    rw [State.life_touch]
    cases hlife : s.life o.channel with
    | active a => exact absurd (by rw [hlife]; rfl) hnot
    | free | halfF h | halfR h => rfl
  · have hl' : (s.touch o.line).life o.channel = .active a := by rwa [State.life_touch]
    obtain ⟨e, he⟩ : ∃ e, e = (s.touch o.line).primeAnew o.channel a := ⟨_, rfl⟩
    have hb : handoverEffect o.channel (s.touch o.line) = { state := e, result := .done, data := 0 } := by
      rw [handoverEffect, hl', he]
      rfl
    have hchan : ∀ d, e.chan d = _ := he ▸ State.chan_primeAnew hl'
    have hline : ∀ l, e.line l = (s.touch o.line).line l := fun l => by simp [he, State.primeAnew]
    have hpool : e.pool = ((s.touch o.line).abandonJob o.channel .decode).pool := by
      rw [he, State.primeAnew, State.pool_setUp]
    obtain ⟨hengines, hjobs⟩ := Prod.mk.inj hpool
    have hframe : s.orderFrame e o [o.channel] [] := by
      refine State.orderFrame_of_touch (by simp [he, State.primeAnew]) (fun d hd => ?_)
        (fun x _ => by simp [he, State.primeAnew]) hline
      rw [hchan, if_neg fun hc => hd (List.mem_singleton.mpr hc.symm), State.chan_touch]
    refine ⟨_, State.exec_of_effect ha (exec_handover ho s) hb, State.answered_formReply _ _ _ _ _,
      State.orderFrameTo_formReply hframe _ _ _, by simp [he, State.primeAnew], fun k => ?_, ?_, fun x => ?_, ?_⟩
    · by_cases hk : o.line = k
      · subst hk
        rw [State.line_formReply_self, hline, State.events_touch]
      · rw [State.line_formReply_ne _ hk, hline, State.events_touch]
    · have hreply : (e.formReply o.line .done o.echoed 0).jobs = e.jobs := congrArg Prod.snd (State.pool_formReply _ _ _ _ _)
      rw [hreply, hjobs, State.jobs_abandonJob, State.touch_jobs]
    · have hreply : (e.formReply o.line .done o.echoed 0).engines = e.engines :=
        congrArg Prod.fst (State.pool_formReply _ _ _ _ _)
      simp only [hreply, hengines, State.engines_abandonJob, State.touch_engines]
    · rw [State.chan_formReply, hchan, if_pos rfl, State.chan_touch]

end Sys2Proof.Machine
end

section
/-! SUPPORT. What the classification of an arrived frame leaves of its channel's context, and the record that brings the
frame. -/

namespace Sys2Proof.Machine

/-! ### What an operation leaves of one context -/

/-- A channel's record for a line after a warning, where there is one. -/
def State.warnedBy (s : State) (l : Line) (warning : Option Cause) (e : EventRecord) : EventRecord :=
  match warning with
  | none => e
  | some q => s.warnedFor l q e

/-- An operation from `s` to `t` on one context, which becomes `b`: the counters listed are counted once each, and both
lines have the warning, where there is one. -/
structure State.noted (s t : State) (c : Chan) (b : Active) (counted : List Counter) (warning : Option Cause) : Prop where
  line : ∀ l, t.line l = s.line l
  others : s.sameChannels t [c]
  life : t.life c = .active b
  continuity : (t.chan c).continuity = (s.chan c).continuity
  counter : ∀ k, (t.chan c).counter k
    = if k ∈ counted then saturatingSucc ((s.chan c).counter k) else (s.chan c).counter k
  events : ∀ l, (t.chan c).events l = s.warnedBy l warning ((s.chan c).events l)

section Noted

variable {s t : State} {c : Chan} {a b : Active} {counted : List Counter} {warning : Option Cause}

theorem State.noted_self (hl : s.life c = .active a) : s.noted s c a [] none :=
  ⟨fun _ => rfl, fun _ _ => rfl, hl, rfl, fun _ => rfl, fun _ => rfl⟩

theorem State.noted_mapActive (hl : s.life c = .active a) (f : Active → Active) :
    s.noted (s.mapActive c f) c (f a) [] none := by
  have hchan : (s.mapActive c f).chan c = { s.chan c with life := .active (f a) } := by
    rw [State.chan_mapActive_self, Channel.mapActive_of_active hl]
  refine ⟨fun l => by simp, fun d hd => s.chan_mapActive_ne (fun h => hd (List.mem_singleton.mpr h.symm)) f, ?_, ?_,
    fun k => ?_, fun l => ?_⟩
  · rw [State.life_def, hchan]
  · rw [hchan]
  · rw [hchan]
    rfl
  · rw [hchan]
    cases l <;> rfl

theorem State.noted.count (h : s.noted t c b counted warning) {k : Counter} (hk : k ∉ counted) :
    s.noted (t.count c k) c b (k :: counted) warning := by
  obtain ⟨hlife, hcontinuity, heventsF, heventsR⟩ := t.context_count c k
  refine ⟨fun l => (t.line_count c k l).trans (h.line l), fun d hd => ?_, hlife.trans h.life,
    hcontinuity.trans h.continuity, fun k' => ?_, fun l => ?_⟩
  · rw [State.count, State.chan_mapChan_ne _ fun hc => hd (List.mem_singleton.mpr hc.symm)]
    exact h.others d hd
  · rw [State.counter_count, h.counter]
    by_cases hk' : k' = k
    · subst hk'
      simp [hk]
    · simp [hk']
  · rw [← h.events]
    cases l
    · exact heventsF
    · exact heventsR

theorem State.noted.warn (h : s.noted t c b counted none) (q : Cause) :
    s.noted (t.warn c q) c b counted (some q) := by
  have hsame : ∀ l e, t.warnedFor l q e = s.warnedFor l q e := fun l =>
    State.warnedFor_of_settings (by rw [h.line]) q
  have hchan := t.chan_warn c
  have hself := hchan c q
  rw [if_pos rfl] at hself
  refine ⟨fun l => (t.line_warn c q l).trans (h.line l), fun d hd => ?_, ?_, ?_, fun k => ?_, fun l => ?_⟩
  · rw [hchan, if_neg fun hc => hd (List.mem_singleton.mpr hc.symm)]
    exact h.others d hd
  · rw [← h.life, State.life_def, State.life_def, hself]
  · rw [hself]
    exact h.continuity
  · rw [hself]
    exact h.counter k
  · have hevents := h.events l
    rw [hself]
    cases l
    · exact (hsame .F _).trans (congrArg _ hevents)
    · exact (hsame .R _).trans (congrArg _ hevents)

/-- The state before the operation with the same channels and Line Units. -/
theorem State.noted.of_same {u : State} (h : u.noted t c b counted warning) (hchan : ∀ d, u.chan d = s.chan d)
    (hline : ∀ l, u.line l = s.line l) : s.noted t c b counted warning := by
  refine ⟨fun l => (h.line l).trans (hline l), fun d hd => (h.others d hd).trans (hchan d), h.life,
    h.continuity.trans (by rw [hchan]), fun k => ?_, fun l => ?_⟩
  · rw [h.counter, hchan]
  · rw [h.events, hchan]
    cases warning with
    | none => rfl
    | some q => exact State.warnedFor_of_settings (by rw [hline]) q _

theorem State.noted.unique {b' : Active} {counted' : List Counter} {warning' : Option Cause}
    (h : s.noted t c b counted warning) (h' : s.noted t c b' counted' warning') : b = b' :=
  Life.active.inj (h.life.symm.trans h'.life)

theorem State.noted.counter_one {k : Counter} (h : s.noted t c b [k] warning) (k' : Counter) :
    (t.chan c).counter k' = if k' = k then saturatingSucc ((s.chan c).counter k') else (s.chan c).counter k' := by
  simpa using h.counter k'

theorem State.noted.counter_two {k l : Counter} (h : s.noted t c b [k, l] warning) (k' : Counter) :
    (t.chan c).counter k' = if k' = k ∨ k' = l then saturatingSucc ((s.chan c).counter k') else (s.chan c).counter k' := by
  simpa using h.counter k'

/-! ### A window's frame taken (R92, R93, R94) -/

/-- What a DECODE withdrawn in its offer counts: the window it leaves is CLOSED (R94). -/
def WindowState.missed (w : WindowState) : List Counter := if w = .closed then [.decodeMisses] else []

/-- What a DECODE withdrawn in its offer warns. -/
def WindowState.missWarning (w : WindowState) : Option Cause := if w = .closed then some .decodeMiss else none

theorem State.noted_offerDecode {comfort : Bool} {expected : BitVec 8} {old : Window} (hl : s.life c = .active a)
    (hs : a.up.stream = .running comfort expected old) (f : SpeechFrame) (deadline : Nat) :
    ∃ w, s.noted (s.offerDecode c f deadline) c (a.inWindow w) w.missed w.missWarning := by
  obtain ⟨w, -, hlife, hcontinuity, hcounter, heventsF, heventsR⟩ := State.offerDecode_spec hl hs f deadline
  refine ⟨w, fun l => by simp, fun d hd => ?_, hlife, hcontinuity, fun k => ?_, fun l => ?_⟩
  · exact s.chan_offerDecode_ne (fun h => hd (List.mem_singleton.mpr h.symm)) f deadline
  · rw [hcounter]
    by_cases hw : w = .closed
    · simp [WindowState.missed, hw]
    · simp [WindowState.missed, hw]
  · have hevents : ((s.offerDecode c f deadline).chan c).events l
        = if w = .closed then s.warnedFor l .decodeMiss ((s.chan c).events l) else (s.chan c).events l := by
      cases l
      · exact heventsF
      · exact heventsR
    rw [hevents, WindowState.missWarning]
    split <;> rfl

/-- A window that takes a frame changes its own state alone, but for a miss in the offer. -/
theorem State.noted_takeFrame {comfort : Bool} {expected : BitVec 8} {old : Window} (hl : s.life c = .active a)
    (hs : a.up.stream = .running comfort expected old) (f : Frame) (deadline : Nat) :
    ∃ w, s.noted (s.takeFrame c f deadline) c (a.inWindow w) w.missed w.missWarning := by
  cases f with
  | quiet n level => exact ⟨.quietNoted level, State.noted_mapActive hl _⟩
  | speech g =>
    rw [State.takeFrame]
    split
    · split
      · exact ⟨.direct g, State.noted_mapActive hl _⟩
      · exact State.noted_offerDecode hl hs g deadline
    · exact State.noted_offerDecode hl hs g deadline

theorem Active.inWindow_injective {comfort : Bool} {expected : BitVec 8} {old : Window}
    (hs : a.up.stream = .running comfort expected old) {w v : WindowState} (h : a.inWindow w = a.inWindow v) : w = v := by
  rw [Active.inWindow_of_running hs, Active.inWindow_of_running hs] at h
  have hstream := congrArg (·.up.stream) h
  simp only [Active.withWindow_stream, Uplink.running.injEq, Window.mk.injEq] at hstream
  exact hstream.2.2.2

theorem State.decodeOffered.of_after {t' : State} {f : SpeechFrame} {deadline : Nat} {w : WindowState}
    (h : s.decodeOffered t c f deadline w) (hp : t'.pool = t.pool) (hc : t'.clock = t.clock) :
    s.decodeOffered t' c f deadline w := by
  obtain ⟨hheld, hoffer⟩ := h
  refine ⟨fun hin => ⟨(hheld hin).1, hp.trans (hheld hin).2⟩, fun hin => ⟨fun hd => ?_, fun hd => ?_⟩⟩
  · exact ⟨((hoffer hin).1 hd).1, ((hoffer hin).1 hd).2.of_after hp hc⟩
  · exact ⟨((hoffer hin).2 hd).1, hp.trans ((hoffer hin).2 hd).2⟩

theorem State.windowTakes.of_after {t' : State} {partner : Option Active} {f : Frame} {deadline : Nat}
    {w : WindowState} (h : s.windowTakes t c partner f deadline w) (hp : t'.pool = t.pool) (hc : t'.clock = t.clock) :
    s.windowTakes t' c partner f deadline w := by
  unfold State.windowTakes at *
  split at h
  · exact ⟨h.1, hp.trans h.2⟩
  · exact h.of_after hp hc
  · exact ⟨fun hx => ⟨(h.1 hx).1, hp.trans (h.1 hx).2⟩, fun hx => (h.2 hx).of_after hp hc⟩

/-- The state that `noted_takeFrame` gives the window is the one that the frame asks for. -/
theorem State.noted.windowTakes {comfort : Bool} {expected : BitVec 8} {old : Window} (hl : s.life c = .active a)
    (hs : a.up.stream = .running comfort expected old) {f : Frame} {deadline : Nat} {w : WindowState}
    (h : s.noted (s.takeFrame c f deadline) c (a.inWindow w) counted warning) {partner : Option Active}
    (hb : (a.partner = none ∧ partner = none) ∨ ∃ d y, a.partner = some d ∧ s.life d = .active y ∧ partner = some y) :
    s.windowTakes (s.takeFrame c f deadline) c partner f deadline w := by
  obtain ⟨v, htakes, hlife⟩ := State.windowTakes_takeFrame hl hs partner hb f deadline
  rw [← Active.inWindow_of_running hs, h.life] at hlife
  exact Active.inWindow_injective hs (Life.active.inj hlife) ▸ htakes

/-! ### A frame classified (R84 to R87, R93) -/

theorem State.noted_referredTo (hl : s.life c = .active a) (f : Frame) (count : Nat) :
    s.noted ((s.setUp c (a.up.referredTo f count)).count c .framesAccepted) c { a with up := a.up.referredTo f count }
      [.framesAccepted] none :=
  (State.noted_mapActive hl _).count List.not_mem_nil

theorem State.windowArrival_waiting (s : State) (c : Chan) {w : Window} (h : w.state = .waiting) (f : Frame) :
    s.windowArrival c w f = (s.takeFrame c f w.deadline).count c .framesAccepted := by
  rw [State.windowArrival, h]

theorem State.windowArrival_closed (s : State) (c : Chan) {w : Window} (h : w.state = .closed) (f : Frame) :
    s.windowArrival c w f = s.count c .framesLate := by
  rw [State.windowArrival, h]

/-- A window that has its frame already. -/
theorem State.windowArrival_filled (s : State) (c : Chan) {w : Window} (hclosed : w.state ≠ .closed)
    (hwaiting : w.state ≠ .waiting) (f : Frame) : s.windowArrival c w f = s.count c .framesDuplicate := by
  unfold State.windowArrival
  split
  · contradiction
  · contradiction
  all_goals rfl

theorem State.noted_counted (hl : s.life c = .active a) (k : Counter) : s.noted (s.count c k) c a [k] none :=
  (State.noted_self hl).count List.not_mem_nil

/-- A frame taken is accepted, whatever its offer then makes of it. -/
theorem State.noted.accepted {w : WindowState} (h : s.noted t c b w.missed warning) :
    s.noted (t.count c .framesAccepted) c b (.framesAccepted :: w.missed) warning := by
  refine h.count ?_
  unfold WindowState.missed
  split <;> simp

theorem State.insertArrival_room (s : State) (c : Chan) {up : UplinkFields} (r : BitVec 8) (f : Frame)
    (h : up.queue.length < 6) :
    s.insertArrival c up r f
      = (s.setUp c { up with queue := insertFrame r f up.queue }).count c .framesAccepted :=
  if_pos h

theorem State.insertArrival_far (s : State) (c : Chan) {up : UplinkFields} {r : BitVec 8} {f : Frame}
    (h : 6 ≤ up.queue.length) (hfar : ∀ g ∈ up.queue, distance g.sequence r < distance f.sequence r) :
    s.insertArrival c up r f
      = (((s.setUp c { up with queue := up.queue.drop 1 ++ [f] }).count c .overflowDrops).count c
        .framesAccepted).warn c .overflow :=
  (if_neg (Nat.not_lt.mpr h)).trans (if_pos (by simpa using hfar))

theorem State.insertArrival_near (s : State) (c : Chan) {up : UplinkFields} {r : BitVec 8} {f : Frame}
    (h : 6 ≤ up.queue.length) (hnear : ∃ g ∈ up.queue, distance f.sequence r < distance g.sequence r) :
    s.insertArrival c up r f = (s.count c .overflowDrops).warn c .overflow := by
  obtain ⟨g, hg, hd⟩ := hnear
  exact (if_neg (Nat.not_lt.mpr h)).trans (if_neg fun hall => by
    have := of_decide_eq_true (List.all_eq_true.mp hall g hg)
    omega)

theorem State.noted_insertArrival_room (hl : s.life c = .active a) (r : BitVec 8) (f : Frame)
    (h : a.up.queue.length < 6) :
    s.noted (s.insertArrival c a.up r f) c { a with up := { a.up with queue := insertFrame r f a.up.queue } }
      [.framesAccepted] none := by
  rw [s.insertArrival_room c r f h]
  exact (State.noted_mapActive hl _).count List.not_mem_nil

theorem State.noted_insertArrival_far (hl : s.life c = .active a) {r : BitVec 8} {f : Frame}
    (h : 6 ≤ a.up.queue.length) (hfar : ∀ g ∈ a.up.queue, distance g.sequence r < distance f.sequence r) :
    s.noted (s.insertArrival c a.up r f) c { a with up := { a.up with queue := a.up.queue.drop 1 ++ [f] } }
      [.framesAccepted, .overflowDrops] (some .overflow) := by
  rw [s.insertArrival_far c h hfar]
  exact (((State.noted_mapActive hl _).count List.not_mem_nil).count (by decide)).warn _

theorem State.noted_insertArrival_near (hl : s.life c = .active a) {r : BitVec 8} {f : Frame}
    (h : 6 ≤ a.up.queue.length) (hnear : ∃ g ∈ a.up.queue, distance f.sequence r < distance g.sequence r) :
    s.noted (s.insertArrival c a.up r f) c a [.overflowDrops] (some .overflow) := by
  rw [s.insertArrival_near c h hnear]
  exact (State.noted_counted hl _).warn _

theorem State.noted_resync (hl : s.life c = .active a) (f : Frame) :
    s.noted (s.resync c a.up f) c
      { a with up := { a.up with queue := [f], stream := .priming (some f.sequence) 0, lossRun := 0 } } [.resyncs]
      (some .resync) := by
  have habandoned : (s.abandonJob c .decode).life c = .active a := hl
  exact (((State.noted_mapActive habandoned _).count List.not_mem_nil).warn _).of_same (fun _ => rfl)
    fun l => s.line_abandonJob c .decode l

theorem State.pool_resync (s : State) (c : Chan) (up : UplinkFields) (f : Frame) :
    (s.resync c up f).pool = (s.abandonJob c .decode).pool := by
  simp [State.resync]

theorem Active.inWindow_keeps (a : Active) (w : WindowState) :
    (a.inWindow w).fixed = a.fixed ∧ (a.inWindow w).radio = a.radio ∧ (a.inWindow w).down = a.down := by
  unfold Active.inWindow
  split <;> exact ⟨rfl, rfl, rfl⟩

/-- Whatever the classification is, of the context it changes the uplink alone. -/
theorem State.noted_classify (hl : s.life c = .active a) (f : Frame) :
    ∃ b counted warning, s.noted (s.classify c a f) c b counted warning
      ∧ b.fixed = a.fixed ∧ b.radio = a.radio ∧ b.down = a.down := by
  have hc := s.classify_classified c a f
  generalize s.classify c a f = t at hc ⊢
  cases hc with
  | first _ count _ => exact ⟨_, _, _, State.noted_referredTo hl f count, rfl, rfl, rfl⟩
  | counted k => exact ⟨a, _, _, State.noted_counted hl k, rfl, rfl, rfl⟩
  | resync => exact ⟨_, _, _, State.noted_resync hl f, rfl, rfl, rfl⟩
  | atWindow comfort w hs =>
    by_cases hwaiting : w.state = .waiting
    · obtain ⟨next, htaken⟩ := State.noted_takeFrame hl hs f w.deadline
      rw [s.windowArrival_waiting c hwaiting]
      exact ⟨_, _, _, htaken.accepted, a.inWindow_keeps next⟩
    · by_cases hclosed : w.state = .closed
      · rw [s.windowArrival_closed c hclosed]
        exact ⟨a, _, _, State.noted_counted hl _, rfl, rfl, rfl⟩
      · rw [s.windowArrival_filled c hclosed hwaiting]
        exact ⟨a, _, _, State.noted_counted hl _, rfl, rfl, rfl⟩
  | ahead r least ha hnew _ _ =>
    by_cases hlength : a.up.queue.length < 6
    · exact ⟨_, _, _, State.noted_insertArrival_room hl r f hlength, rfl, rfl, rfl⟩
    · have hfull : 6 ≤ a.up.queue.length := Nat.not_lt.mp hlength
      by_cases hnear : ∃ g ∈ a.up.queue, distance f.sequence r < distance g.sequence r
      · exact ⟨a, _, _, State.noted_insertArrival_near hl hfull hnear, rfl, rfl, rfl⟩
      · refine ⟨_, _, _, State.noted_insertArrival_far hl hfull fun g hg => ?_, rfl, rfl, rfl⟩
        have hle := not_lt.mp fun h => hnear ⟨g, hg, h⟩
        exact lt_of_le_of_ne hle fun he => hnew g hg (distance_inj.mp he)

end Noted

/-! ### The record that brings the frame -/

/-- A record that arrives good is classified in the same arrival (R72, R84). -/
theorem State.arrival_good {octets : List Octet} {s : State} {a : Active} {f : Frame}
    (h : readable (recordOctets octets) = true) (hl : s.life (recordChannel (recordOctets octets)) = .active a)
    (hf : goodFrame a.radio.modeSet (recordOctets octets) = some f) :
    s.arrival octets = (s.classify (recordChannel (recordOctets octets)) a f).settle := by
  simp only [State.arrival, h, Bool.not_true, Bool.false_eq_true, if_false, hl, hf]

/-- The state in which a record that ends is checked: it is no longer begun. -/
def State.recordEnded (s : State) : State := { s with begun := s.begun - 1 }

@[simp] theorem State.chan_recordEnded (s : State) (d : Chan) : s.recordEnded.chan d = s.chan d := rfl

theorem exec_recordArrival_good {s : State} (hr : s.run = .ready) (hb : 0 < s.begun) {octets : List Octet} {a : Active}
    {f : Frame} (h : readable (recordOctets octets) = true)
    (hl : s.life (recordChannel (recordOctets octets)) = .active a)
    (hf : goodFrame a.radio.modeSet (recordOctets octets) = some f) :
    exec (.recordArrival octets) s
      = .next (s.recordEnded.classify (recordChannel (recordOctets octets)) a f).settle :=
  (exec_recordArrival hr hb octets).trans (congrArg _ (State.arrival_good (s := s.recordEnded) h hl hf))

/-- What the classification in an arrival leaves beside its context. -/
theorem State.streamFrame_arrived {s : State} {c : Chan} {a b : Active} {f : Frame} {counted : List Counter}
    {warning : Option Cause} (h : s.recordEnded.noted (s.recordEnded.classify c a f) c b counted warning) :
    s.streamFrame { (s.recordEnded.classify c a f).settle with begun := s.begun } [c] []
      ∧ (s.recordEnded.classify c a f).settle.begun = s.begun - 1 := by
  have hdevice := State.device_classify s.recordEnded c a f
  exact ⟨⟨congrArg (fun d : Device => { d with begun := s.begun }) hdevice, h.others,
    fun x _ => State.slot_classify s.recordEnded c a f x⟩, congrArg Device.begun hdevice⟩

/-- Settles O22: a frame counted from an anchor, as the record that brings it finds the channel. -/
theorem arrivedFramesAreClassified : Obligations.ArrivedFramesAreClassified := by
  rintro octets r c s a f reference least d hr hb rfl hread rfl hl hgood hq hanchor rfl
  have ha : a.up.stream.anchor = some (reference, least) ∧ (least = 0 → a.up.queue ≠ []) := by
    rcases hanchor with ⟨⟨count, hs⟩, hne, rfl⟩ | ⟨⟨comfort, w, hs⟩, rfl⟩
    · exact ⟨congrArg Uplink.anchor hs, fun _ => hne⟩
    · exact ⟨congrArg Uplink.anchor hs, fun h0 => absurd h0 (by decide)⟩
  obtain ⟨ha, hne⟩ := ha
  obtain ⟨-, hascending⟩ := (UplinkFields.queueOk_of_anchor ha).mp hq
  have hexec := exec_recordArrival_good hr hb hread hl hgood
  generalize recordChannel (recordOctets octets) = c at hl hexec ⊢
  have hl0 : s.recordEnded.life c = .active a := hl
  obtain ⟨b, counted, warning, hnoted, hfixed, hradio, hdown⟩ := State.noted_classify hl0 f
  obtain ⟨hframe, hbegun⟩ := State.streamFrame_arrived hnoted
  obtain ⟨hlate, hahead, hfar⟩ := s.recordEnded.classify_anchored c f ha hne
  have hnew_ahead := fun hd hnew => (hahead hd).trans (if_neg (any_sequence_eq_false.mpr hnew))
  refine ⟨_, b, hexec, hframe, hbegun, State.link_classify _ c a f, State.sameLines_settle (State.line_classify _ c a f),
    hnoted.life, hfixed, hradio, hdown, hnoted.continuity, fun hd => ?_, fun hd hin => ?_, fun hd hnew hroom => ?_,
    fun hd hfull hbehind => ?_, fun hd hfull hnew hnear => ?_, fun hd => ?_⟩
  · rw [hlate hd] at hnoted ⊢
    have h := State.noted_counted hl0 .framesLate
    exact ⟨hnoted.unique h, State.pool_count _ c .framesLate, h.events .F, h.events .R, h.counter_one⟩
  · rw [hahead hd, if_pos (by simpa using hin)] at hnoted ⊢
    have h := State.noted_counted hl0 .framesDuplicate
    exact ⟨hnoted.unique h, State.pool_count _ c .framesDuplicate, h.events .F, h.events .R, h.counter_one⟩
  · rw [hnew_ahead hd hnew] at hnoted ⊢
    have h := State.noted_insertArrival_room hl0 reference f hroom
    obtain ⟨before, after, hqueue, hinserted, hbefore, hafter⟩ := insertFrame_splits hascending hnew
    rw [hinserted] at h
    exact ⟨State.pool_insertArrival _ c a.up reference f,
      ⟨before, after, hqueue, hnoted.unique h, hbefore, hafter⟩, h.events .F, h.events .R, h.counter_one⟩
  · have hnew : ∀ g ∈ a.up.queue, g.sequence ≠ f.sequence := fun g hg he =>
      (hbehind g hg).ne (distance_inj.mpr he)
    rw [hnew_ahead hd hnew] at hnoted ⊢
    have h := State.noted_insertArrival_far hl0 hfull.ge hbehind
    exact ⟨State.pool_insertArrival _ c a.up reference f, hnoted.unique h, h.events .F, h.events .R, h.counter_two⟩
  · rw [hnew_ahead hd hnew] at hnoted ⊢
    have h := State.noted_insertArrival_near hl0 hfull.ge hnear
    exact ⟨hnoted.unique h, State.pool_insertArrival _ c a.up reference f, h.events .F, h.events .R, h.counter_one⟩
  · rw [hfar hd] at hnoted ⊢
    have h := State.noted_resync hl0 f
    obtain ⟨hengines, hjobs⟩ := Prod.mk.inj (s.recordEnded.pool_resync c a.up f)
    have hmarked : ∀ e : Fin 4, (s.recordEnded.resync c a.up f).engines[e.val] = _ := fun e => by
      simp only [hengines, State.engines_abandonJob]
      rfl
    exact ⟨hnoted.unique h, hjobs, hmarked, h.events .F, h.events .R, h.counter_one⟩

/-- Settles O23: a frame decided by the window, or the first of an empty queue, as the record that brings it finds the
channel. -/
theorem framesForTheWindowAreDecided : Obligations.FramesForTheWindowAreDecided := by
  rintro octets r c s a f hr hb rfl hread rfl hl hgood
  have hexec := exec_recordArrival_good hr hb hread hl hgood
  generalize recordChannel (recordOctets octets) = c at hl hexec ⊢
  have hl0 : s.recordEnded.life c = .active a := hl
  obtain ⟨b, counted, warning, hnoted, -⟩ := State.noted_classify hl0 f
  obtain ⟨hframe, hbegun⟩ := State.streamFrame_arrived hnoted
  refine ⟨_, b, hexec, hframe, hbegun, hnoted.life, fun reference count hs hq => ?_,
    fun comfort w hs => ⟨State.link_classify _ c a f, ?_⟩⟩
  · rw [State.classify_first _ c hs (.inl hq)] at hnoted ⊢
    have h := State.noted_referredTo hl0 f count
    exact ⟨hnoted.unique h, (State.pool_count _ c .framesAccepted).trans (State.pool_setUp _ c _),
      (State.link_count _ c .framesAccepted).trans (State.link_setUp _ c _), h.counter_one⟩
  · rw [State.classify_atWindow _ c hs] at hnoted ⊢
    refine ⟨fun hclosed => ?_, fun hclosed hwaiting => ?_, fun hwaiting partner hpartner => ?_⟩
    · rw [State.windowArrival_closed _ c hclosed] at hnoted ⊢
      have h := State.noted_counted hl0 .framesLate
      exact ⟨hnoted.unique h, State.pool_count _ c .framesLate, h.counter_one⟩
    · rw [State.windowArrival_filled _ c hclosed hwaiting] at hnoted ⊢
      have h := State.noted_counted hl0 .framesDuplicate
      exact ⟨hnoted.unique h, State.pool_count _ c .framesDuplicate, h.counter_one⟩
    · rw [State.windowArrival_waiting _ c hwaiting] at hnoted ⊢
      obtain ⟨next, htaken⟩ := State.noted_takeFrame hl0 hs f w.deadline
      have h := htaken.accepted
      have htakes := (htaken.windowTakes hl0 hs hpartner).of_after (State.pool_count _ c .framesAccepted)
        (congrArg Device.clock (State.device_count _ c .framesAccepted))
      refine ⟨next, (hnoted.unique h).trans (Active.inWindow_of_running hs next), htakes, fun l => ?_, fun k => ?_⟩
      · refine (h.events l).trans ?_
        rw [WindowState.missWarning]
        split <;> rfl
      · refine (h.counter k).trans ?_
        by_cases hmiss : next = .closed
        · simp [WindowState.missed, hmiss]
        · simp [WindowState.missed, hmiss]

end Sys2Proof.Machine
end

section
/-! SUPPORT. The start deadlines: windows closed, jobs not started withdrawn as misses, and what waited for them released. -/

namespace Sys2Proof.Machine

/-! ### Misses (R94, R119) -/

section Misses

variable {s t : State} {c : Chan} {a b : Active}

theorem State.noted_decodeMiss (hl : s.life c = .active a) :
    s.noted (s.decodeMiss c) c (a.inWindow .closed) [.decodeMisses] (some .decodeMiss) :=
  ((State.noted_mapActive hl _).count List.not_mem_nil).warn _

theorem State.noted.encodeMiss (h : s.noted t c b [] none) :
    s.noted (t.encodeMiss c) c b [.encodeMisses] (some .encodeMiss) :=
  (h.count List.not_mem_nil).warn _

end Misses

/-! ### Jobs withdrawn (R131) -/

theorem State.inPool_of_pool {s t : State} (h : t.pool = s.pool) (c : Chan) (k : JobKind) :
    t.inPool c k = s.inPool c k := by
  obtain ⟨hengines, hjobs⟩ := Prod.mk.inj h
  simp only [State.inPool, State.queued, State.running, hengines, hjobs]

theorem State.unqueue_of_not_queued {s : State} {c : Chan} {k : JobKind} (h : s.queued c k = false) :
    s.unqueue c k = s := by
  have hkept : s.jobs.filter (fun j => !j.isOf c k) = s.jobs :=
    List.filter_eq_self.mpr fun j hj => by simpa using List.any_eq_false.mp h j hj
  rw [State.unqueue, hkept]

/-- A queued job is late where every job of its channel and kind has come to its deadline. -/
theorem State.lateJob_eq_queued {s : State} {c : Chan} {k : JobKind}
    (h : ∀ j ∈ s.jobs, j.isOf c k = true → j.deadline ≤ s.time) : s.lateJob c k = s.queued c k := by
  rw [Bool.eq_iff_iff]
  simp only [State.lateJob, State.queued, List.any_eq_true, Bool.and_eq_true, State.reached, decide_eq_true_eq]
  exact ⟨fun ⟨j, hj, hof, _⟩ => ⟨j, hj, hof⟩, fun ⟨j, hj, hof⟩ => ⟨j, hj, hof, h j hj hof⟩⟩

/-! ### Windows at their start deadline (R94) -/

theorem exec_windowStartDeadline {s : State} {c : Chan} {a : Active} {comfort : Bool} {expected : BitVec 8} {w : Window}
    (hl : s.life c = .active a) (hs : a.up.stream = .running comfort expected w) (hd : w.deadline ≤ s.time) :
    exec (.windowStartDeadline c) s = .next (s.closeWindow c w).settle := by
  have hwindow : s.window? c = some w := by simp only [State.window?, hl, hs]
  show Host.Outcome.next _ = _
  simp only [hwindow, State.reached, hd, decide_true, if_true]

/-- A DECODE withdrawn at its deadline, whether the window's or the job's is taken: it leaves the queue where it is in it,
and its window closes. -/
theorem exec_deadline_unstarted {s : State} {c : Chan} {a : Active} {comfort : Bool} {expected : BitVec 8} {w : Window}
    {f : SpeechFrame} {held : Bool} (hl : s.life c = .active a) (hs : a.up.stream = .running comfort expected w)
    (hd : w.deadline ≤ s.time) (hw : w.state = .decoding f held) (hheld : held = true ↔ s.queued c .decode = false)
    (hlate : ∀ j ∈ s.jobs, j.isOf c .decode = true → j.deadline ≤ s.time) {i : Instr}
    (hi : i = .windowStartDeadline c ∨ i = .jobStartDeadline c .decode) :
    exec i s = .next ((s.unqueue c .decode).decodeMiss c).settle := by
  have hjob := State.lateJob_eq_queued hlate
  have hwindow := exec_windowStartDeadline hl hs hd
  obtain ⟨deadline, state⟩ := w
  obtain rfl : state = .decoding f held := hw
  cases held with
  | false =>
    have hqueued : s.queued c .decode = true := by simpa using hheld
    rcases hi with rfl | rfl
    · rw [hwindow, State.closeWindow, hqueued]
      rfl
    · show Host.Outcome.next (s.decodeDeadline c) = _
      rw [State.decodeDeadline, hjob, if_pos hqueued]
  | true =>
    have hqueued : s.queued c .decode = false := hheld.mp rfl
    rw [State.unqueue_of_not_queued hqueued]
    rcases hi with rfl | rfl
    · rw [hwindow]
      rfl
    · have hheldLate : s.lateHeldDecode c = true := by
        simp only [State.lateHeldDecode, hl, hs, State.reached, decide_eq_true_eq]
        exact hd
      show Host.Outcome.next (s.decodeDeadline c) = _
      rw [State.decodeDeadline, hjob, hqueued, if_neg Bool.false_ne_true, if_pos hheldLate]

/-- A DECODE that has started is not withdrawn: at most the event lists are brought up to date. -/
theorem exec_deadline_started {s : State} {c : Chan} {a : Active} {comfort : Bool} {expected : BitVec 8} {w : Window}
    {f : SpeechFrame} (hl : s.life c = .active a) (hs : a.up.stream = .running comfort expected w)
    (hd : w.deadline ≤ s.time) (hw : w.state = .decoding f false) (hqueued : s.queued c .decode = false) {i : Instr}
    (hi : i = .windowStartDeadline c ∨ i = .jobStartDeadline c .decode) :
    exec i s = .next s.settle ∨ exec i s = .next s := by
  have hwindow := exec_windowStartDeadline hl hs hd
  obtain ⟨deadline, state⟩ := w
  obtain rfl : state = .decoding f false := hw
  rcases hi with rfl | rfl
  · left
    rw [hwindow, State.closeWindow, hqueued]
    rfl
  · right
    have hjob : s.lateJob c .decode = false := List.any_eq_false.mpr fun j hj => by
      have hof := List.any_eq_false.mp hqueued j hj
      simp only [Bool.and_eq_true, not_and]
      exact fun h => absurd h hof
    have hheldLate : s.lateHeldDecode c = false := by simp only [State.lateHeldDecode, hl, hs]
    show Host.Outcome.next (s.decodeDeadline c) = _
    rw [State.decodeDeadline, hjob, hheldLate]
    rfl

/-- What is left of a state of which at most the event lists have been brought up to date. -/
theorem State.unchanged_of_settle {s t : State} (h : t = s.settle ∨ t = s) :
    s.streamFrame t [] [] ∧ t.pool = s.pool ∧ t.link = s.link ∧ s.sameLines t := by
  rcases h with rfl | rfl
  · exact ⟨⟨rfl, fun _ _ => rfl, fun _ _ => rfl⟩, rfl, rfl, State.sameLines_settle fun _ => rfl⟩
  · exact ⟨⟨rfl, fun _ _ => rfl, fun _ _ => rfl⟩, rfl, rfl, rfl, rfl⟩

/-! ### Held items released (R117, R160) -/

/-- A record at the head of the released items offered, where there is one. -/
def State.offerFirst (s : State) (first : Option Record) : State :=
  match first with
  | none => s
  | some r => s.offerRecord r

/-- An event from `s` to `t` that offers a record of a channel, or none, to the Transmit Queue and counts it. -/
structure State.recordReleased (s t : State) (c : Chan) (first : Option Record) : Prop where
  device : t.device = s.device
  pool : t.pool = s.pool
  slot : ∀ x, t.slot x = s.slot x
  others : s.sameChannels t [c]
  life : t.life c = s.life c
  continuity : (t.chan c).continuity = (s.chan c).continuity
  events : ∀ l, (t.chan c).events l = (s.chan c).events l
  kept : first = none → t.link = s.link
  offered : ∀ r, first = some r → s.recordOffered t r
  counter : ∀ k, (t.chan c).counter k
    = if first ≠ none ∧ k = (if s.transmit.length < 32 then .framesSent else .transmitDrops) then
        saturatingSucc ((s.chan c).counter k)
      else (s.chan c).counter k
  line : ∀ l, { s.line l with
      lineEvents := if first ≠ none ∧ 32 ≤ s.transmit.length then s.recordedSet l .queueOverflow (s.line l).lineEvents
        else (s.line l).lineEvents }.sameButList (t.line l)

theorem State.recordReleased_offerFirst (s : State) {c : Chan} {first : Option Record}
    (h : ∀ r, first = some r → recordChannel r = c) : s.recordReleased (s.offerFirst first) c first := by
  cases first with
  | none =>
    exact ⟨rfl, rfl, fun _ => rfl, fun _ _ => rfl, rfl, rfl, fun _ => rfl, fun _ => rfl, nofun,
      fun k => by simp [State.offerFirst], fun l => by simp [State.offerFirst, LineUnit.sameButList]⟩
  | some r =>
    have hc := h r rfl
    obtain ⟨hoffered, hcounted, hlines⟩ := s.recordCounted_offerRecord hc
    have hchan := s.chan_offerRecord r
    have hself := hchan c
    rw [if_pos hc] at hself
    have hlife := congrArg Channel.life hself
    have hcontinuity := congrArg Channel.continuity hself
    have hevents : ∀ l, ((s.offerRecord r).chan c).events l = (s.chan c).events l := fun l => by
      rw [hself]
      cases l <;> rfl
    refine ⟨s.device_offerRecord r, s.pool_offerRecord r, s.slot_offerRecord r, fun d hd => ?_, hlife, hcontinuity,
      hevents, nofun, fun r' hr => Option.some.inj hr ▸ hoffered, fun k => ?_, fun l => ?_⟩
    · exact (hchan d).trans (if_neg fun hd' => hd (List.mem_singleton.mpr (hd'.symm.trans hc)))
    · simpa [State.offerFirst] using hcounted k
    · have hline := hlines l
      by_cases hroom : s.transmit.length < 32
      · simpa [State.offerFirst, hroom, Nat.not_le.mpr hroom] using hline
      · simpa [State.offerFirst, hroom, Nat.not_lt.mp hroom] using hline

/-- The job next in line offered before its deadline, where there is one. -/
def State.offerNext (s : State) (c : Chan) (a : Active) (tail : List Held) : State :=
  match tail with
  | .job work deadline :: _ => s.offerItem c a (.job work deadline)
  | _ => s

/-- Held items of which no record follows a record, and whose next job has not come to its deadline. -/
def waitsForNext (tail : List Held) (time : Nat) : Prop :=
  tail = [] ∨ ∃ next deadline rest, tail = .job next deadline :: rest ∧ time < deadline

theorem State.releaseItems_job {s : State} {c : Chan} {a : Active} (hl : s.life c = .active a) {work : EncodeWork}
    {deadline : Nat} (h : s.time < deadline) (rest : List Held) :
    State.releaseItems c (.job work deadline :: rest) s = (s.offerItem c a (.job work deadline)).setHeld c rest := by
  have hoffer : s.offerEncode c work deadline = s.offerJob (a.encodeJob c work deadline) := by
    simp only [State.offerEncode, hl]
    rfl
  have htaken := s.offerJob_before (a.encodeJob c work deadline) h
  simp only [State.releaseItems, hoffer, htaken]
  rfl

theorem State.releaseItems_tail {s : State} {c : Chan} {a : Active} (hl : s.life c = .active a) {tail : List Held}
    (h : waitsForNext tail s.time) :
    State.releaseItems c tail s = (s.offerNext c a tail).setHeld c (tail.drop 1) := by
  rcases h with rfl | ⟨next, deadline, rest, rfl, hd⟩
  · rfl
  · exact State.releaseItems_job hl hd rest

/-- Held items released: a record at their head, then the job next in line, the rest waiting on. -/
theorem State.releaseHeld_eq {s : State} {c : Chan} {a : Active} (hl : s.life c = .active a) {first : Option Record}
    {tail : List Held} (hheld : a.down.held = first.toList.map Held.record ++ tail) (h : waitsForNext tail s.time)
    (hfirst : ∀ r, first = some r → recordChannel r = c) :
    s.releaseHeld c = ((s.offerFirst first).offerNext c a tail).setHeld c (tail.drop 1) := by
  have hreleased := s.recordReleased_offerFirst hfirst
  have htail := State.releaseItems_tail (hreleased.life.trans hl)
    (h.imp_right fun ⟨next, deadline, rest, ht, hd⟩ =>
      ⟨next, deadline, rest, ht, (State.time_of_device hreleased.device).symm ▸ hd⟩)
  rw [State.releaseHeld, State.heldItems, hl, ← htail]
  show State.releaseItems c a.down.held s = _
  rw [hheld]
  cases first <;> rfl

/-- What the offer of the next job leaves beside the pool, and what it does to the pool. -/
theorem State.offerNext_spec (s : State) (c : Chan) (a : Active) (tail : List Held) :
    (s.offerNext c a tail).device = s.device ∧ (∀ d, (s.offerNext c a tail).chan d = s.chan d)
      ∧ (∀ x, (s.offerNext c a tail).slot x = s.slot x) ∧ (∀ l, (s.offerNext c a tail).line l = s.line l)
      ∧ (s.offerNext c a tail).link = s.link ∧ (tail = [] → (s.offerNext c a tail).pool = s.pool)
      ∧ ∀ next deadline rest, tail = .job next deadline :: rest →
        s.jobOffered (s.offerNext c a tail) (a.encodeJob c next deadline) := by
  unfold State.offerNext
  split
  · next work deadline rest =>
    refine ⟨(State.device_arbitrate _).trans rfl, fun d => (State.chan_arbitrate _ d).trans rfl,
      fun x => (State.slot_arbitrate _ x).trans rfl, fun l => (State.line_arbitrate _ l).trans (by cases l <;> rfl),
      (State.link_arbitrate _).trans rfl, nofun, fun next' deadline' rest' heq => ?_⟩
    cases heq
    exact s.jobOffered_arbitrate _
  · next hno =>
    exact ⟨rfl, fun _ => rfl, fun _ => rfl, fun _ => rfl, rfl, fun _ => rfl,
      fun next deadline rest heq => absurd heq (hno next deadline rest)⟩

/-- An event from `s` to `t` in which an ENCODE of a channel that is out of the pool releases what was held behind it: the
record at the head of the held items, and the job next in line, the rest waiting on. -/
structure State.heldReleased (s t : State) (c : Chan) (a : Active) (first : Option Record) (tail : List Held) : Prop where
  record : ∃ u, s.recordReleased u c first ∧ t.link = u.link ∧ (∀ l, t.line l = u.line l)
    ∧ ∀ d, t.chan d = if c = d then
      { u.chan d with life := .active { a with down := { a.down with held := tail.drop 1 } } } else u.chan d
  device : t.device = s.device
  slot : ∀ x, t.slot x = s.slot x
  pool : tail = [] → t.pool = s.pool
  job : ∀ next deadline rest, tail = .job next deadline :: rest → s.jobOffered t (a.encodeJob c next deadline)

theorem State.heldReleased_releaseHeld {s : State} {c : Chan} {a : Active} (hl : s.life c = .active a)
    {first : Option Record} {tail : List Held} (hheld : a.down.held = first.toList.map Held.record ++ tail)
    (h : waitsForNext tail s.time) (hfirst : ∀ r, first = some r → recordChannel r = c) :
    s.heldReleased (s.releaseHeld c) c a first tail := by
  have hrecord := s.recordReleased_offerFirst hfirst
  obtain ⟨hdevice, hchan, hslot, hline, hlink, hpool, hjob⟩ := (s.offerFirst first).offerNext_spec c a tail
  have hlife : ((s.offerFirst first).offerNext c a tail).life c = .active a := by
    rw [State.life_def, hchan, ← State.life_def, hrecord.life, hl]
  rw [State.releaseHeld_eq hl hheld h hfirst]
  refine ⟨⟨_, hrecord, (State.link_setHeld _ c _).trans hlink, fun l => (State.line_setHeld _ c _ l).trans (hline l),
    fun d => ?_⟩, (State.device_setHeld _ c _).trans (hdevice.trans hrecord.device),
    fun x => (State.slot_setHeld _ c _ x).trans ((hslot x).trans (hrecord.slot x)),
    fun ht => (State.pool_setHeld _ c _).trans ((hpool ht).trans hrecord.pool), fun next deadline rest ht => ?_⟩
  · rw [State.chan_setHeld hlife, hchan]
  · exact (State.jobOffered_of_pool hrecord.pool (hjob next deadline rest ht)).of_after (State.pool_setHeld _ c _)
      (congrArg Device.clock (State.device_setHeld _ c _))

/-- A record's offer, seen from states that agree with it in the transmit path. -/
theorem State.recordOffered.of_link {s s' t t' : State} {r : Record} (h : s.recordOffered t r) (hs : s'.link = s.link)
    (ht : t'.link = t.link) (hc : t'.clock = t.clock) : s'.recordOffered t' r := by
  obtain ⟨htransmit, hsending⟩ := Prod.mk.inj hs
  obtain ⟨htransmit', hsending'⟩ := Prod.mk.inj ht
  unfold State.recordOffered at h ⊢
  rw [htransmit, hsending, htransmit', hsending', hs, ht, hc]
  exact h

/-- The counter of a record's offer counted beside that of a miss: they are different counters. -/
theorem counter_after_miss (k : Counter) (p q : Prop) [Decidable p] [Decidable q] (v : BitVec 16) :
    (if p ∧ k = (if q then .framesSent else .transmitDrops) then
        saturatingSucc (if k = .encodeMisses then saturatingSucc v else v)
      else if k = .encodeMisses then saturatingSucc v else v)
    = if k = .encodeMisses ∨ (p ∧ k = (if q then .framesSent else .transmitDrops)) then saturatingSucc v else v := by
  by_cases hk : k = .encodeMisses
  · subst hk
    by_cases hq : q <;> simp [hq]
  · simp [hk]

/-! ### Jobs at their start deadline -/

/-- An ENCODE still queued at its deadline is withdrawn as a miss, and what was held behind it is released. -/
theorem exec_jobStartDeadline_queued {s : State} {c : Chan} {j : Job} (hj : j ∈ s.jobs) (hc : j.channel = c)
    (hk : j.kind = .encode) (hd : j.deadline ≤ s.time) :
    exec (.jobStartDeadline c .encode) s = .next (((s.unqueue c .encode).encodeMiss c).releaseHeld c).settle := by
  have hlate : s.lateJob c .encode = true :=
    List.any_eq_true.mpr ⟨j, hj, by simp [Job.isOf, hc, hk, State.reached, hd]⟩
  show Host.Outcome.next (s.encodeDeadline c) = _
  rw [State.encodeDeadline, if_pos hlate]

/-- A held job at its deadline is withdrawn as a miss while another ENCODE of the channel is in the pool. -/
theorem exec_jobStartDeadline_held {s : State} {c : Chan} {a : Active} {ahead behind : List Held} {work : EncodeWork}
    {deadline : Nat} (hl : s.life c = .active a) (hheld : a.down.held = ahead ++ .job work deadline :: behind)
    (hd : deadline ≤ s.time) (hahead : ∀ e limit, Held.job e limit ∈ ahead → s.time < limit)
    (hpool : s.inPool c .encode = true) (hqueued : ∀ j ∈ s.jobs, j.isOf c .encode = true → s.time < j.deadline) :
    exec (.jobStartDeadline c .encode) s = .next ((s.setHeld c (ahead ++ behind)).encodeMiss c).settle := by
  have hlate : s.lateJob c .encode = false := List.any_eq_false.mpr fun j hj => by
    simp only [Bool.and_eq_true, State.reached, decide_eq_true_eq, not_and, not_le]
    exact hqueued j hj
  have hdue : s.heldDue (.job work deadline) = true := decide_eq_true hd
  have hnot : ∀ i ∈ ahead, ¬s.heldDue i = true := fun i hi => by
    cases i with
    | record r => exact Bool.false_ne_true
    | job e limit => simpa [State.heldDue, State.reached] using hahead e limit hi
  have hitems : s.heldItems c = ahead ++ .job work deadline :: behind := by simp only [State.heldItems, hl, hheld]
  have hany : (s.heldItems c).any s.heldDue = true := List.any_eq_true.mpr ⟨_, by simp [hitems], hdue⟩
  have hdrop : s.dropLateHeld c = s.setHeld c (ahead ++ behind) := by
    rw [State.dropLateHeld, hitems, List.eraseP_append_right _ hnot, List.eraseP_cons_of_pos hdue]
  have hin : ((s.setHeld c (ahead ++ behind)).encodeMiss c).inPool c .encode = true :=
    (State.inPool_of_pool (by simp) c .encode).trans hpool
  show Host.Outcome.next (s.encodeDeadline c) = _
  rw [State.encodeDeadline, hlate, hany, hdrop]
  simp only [Bool.false_eq_true, if_false, if_true, hin]

/-- Settles O17: at a deadline the window's or the job's miss, then what waited behind it. -/
theorem startDeadlinesWithdrawUnstartedJobs : Obligations.StartDeadlinesWithdrawUnstartedJobs := by
  refine ⟨fun c s a comfort expected w hl hs hd => ⟨fun hw => ?_, fun f held hw hheld hlate i hi => ?_,
    fun f hw hqueued i hi => ?_, fun hw => ?_⟩, fun c s a j first tail hl hheld htail hfirst hj hc hk hd => ?_,
    fun c s a ahead behind work deadline hl hheld hd hahead hpool hqueued => ?_⟩
  · have hclosed : s.closeWindow c w = s.setWindow c .closed := by rw [State.closeWindow, hw]
    have hsame := s.sameButLife_mapActive c fun a => a.inWindow .closed
    have hlife : (s.setWindow c .closed).life c = .active (a.withWindow comfort expected w .closed) :=
      State.life_setWindow hl hs .closed
    exact ⟨_, (exec_windowStartDeadline hl hs hd).trans (congrArg (Host.Outcome.next ∘ State.settle) hclosed),
      ⟨State.device_mapActive s c _, hsame.sameChannels, fun x _ => State.slot_mapActive s c _ x⟩,
      State.pool_mapActive s c _, State.link_mapActive s c _,
      State.sameLines_settle fun l => State.line_mapActive s c _ l, hsame.chan_self hlife⟩
  · have h := (State.noted_decodeMiss (s := s.unqueue c .decode) hl).of_same (s := s) (fun _ => rfl)
      fun l => State.line_unqueue s c .decode l
    rw [Active.inWindow_of_running hs] at h
    have hpool := (s.unqueue c .decode).pool_decodeMiss c
    obtain ⟨hengines, hjobs⟩ := Prod.mk.inj hpool
    exact ⟨_, exec_deadline_unstarted hl hs hd hw hheld hlate hi,
      ⟨State.device_decodeMiss _ c, h.others, fun x _ => State.slot_decodeMiss _ c x⟩, State.link_decodeMiss _ c,
      State.sameLines_settle h.line, hengines, hjobs, h.life, h.counter_one, h.events .F, h.events .R⟩
  · obtain h | h := exec_deadline_started hl hs hd hw hqueued hi
    · exact ⟨_, h, State.unchanged_of_settle (.inl rfl)⟩
    · exact ⟨_, h, State.unchanged_of_settle (.inr rfl)⟩
  · have hstays : s.closeWindow c w = s := by
      rcases hw with ⟨f, block, hw⟩ | ⟨level, hw⟩ | hw | ⟨f, hw⟩ <;> rw [State.closeWindow, hw]
    exact ⟨_, (exec_windowStartDeadline hl hs hd).trans (congrArg (Host.Outcome.next ∘ State.settle) hstays),
      State.unchanged_of_settle (.inl rfl)⟩
  · have hmiss := ((State.noted_self (s := s.unqueue c .encode) hl).encodeMiss).of_same (s := s) (fun _ => rfl)
      fun l => State.line_unqueue s c .encode l
    have hdevice := (State.device_encodeMiss (s.unqueue c .encode) c).trans (State.device_unqueue s c .encode)
    have hlink := (State.link_encodeMiss (s.unqueue c .encode) c).trans (State.link_unqueue s c .encode)
    have hreleased := State.heldReleased_releaseHeld hmiss.life hheld
      (htail.imp_right fun ⟨next, deadline, rest, ht, hd⟩ =>
        ⟨next, deadline, rest, ht, (State.time_of_device hdevice).symm ▸ hd⟩) hfirst
    obtain ⟨u, hrecord, hlink', hline', hchan⟩ := hreleased.record
    have hself := hchan c
    rw [if_pos rfl] at hself
    refine ⟨_, (s.unqueue c .encode).jobs, exec_jobStartDeadline_queued hj hc hk hd,
      ⟨hreleased.device.trans hdevice, fun d hd => ?_, fun x _ => (hreleased.slot x).trans ?_⟩, rfl, fun ht => ?_,
      fun next deadline rest ht => ?_, fun hn => ?_, fun r hr => ?_, ?_, ?_, fun k => ?_, ?_, ?_, fun l => ?_⟩
    · rw [State.chan_settle, hchan, if_neg fun hc => hd (List.mem_singleton.mpr hc.symm)]
      exact (hrecord.others d hd).trans (hmiss.others d hd)
    · exact (State.slot_encodeMiss _ c x).trans (State.slot_unqueue s c .encode x)
    · obtain ⟨hengines, hjobs⟩ := Prod.mk.inj ((hreleased.pool ht).trans (State.pool_encodeMiss _ c))
      exact ⟨hjobs, hengines⟩
    · exact State.jobOffered_of_pool (State.pool_encodeMiss (s.unqueue c .encode) c).symm
        (hreleased.job next deadline rest ht)
    · exact hlink'.trans ((hrecord.kept hn).trans hlink)
    · exact (hrecord.offered r hr).of_link hlink.symm hlink'
        (congrArg Device.clock (hreleased.device.trans hrecord.device.symm))
    · exact congrArg Channel.life hself
    · exact (congrArg Channel.continuity hself).trans (hrecord.continuity.trans hmiss.continuity)
    · refine (congrArg (Channel.counter · k) hself).trans ((hrecord.counter k).trans ?_)
      rw [hmiss.counter_one, (Prod.mk.inj hlink).1]
      exact counter_after_miss k _ _ _
    · exact (congrArg Channel.eventsF hself).trans ((hrecord.events .F).trans (hmiss.events .F))
    · exact (congrArg Channel.eventsR hself).trans ((hrecord.events .R).trans (hmiss.events .R))
    · have hset : ∀ e, ((s.unqueue c .encode).encodeMiss c).recordedSet l .queueOverflow e
          = s.recordedSet l .queueOverflow e := fun e => by rw [State.recordedSet, hmiss.line, State.recordedSet]
      have hlines := hrecord.line l
      rw [hmiss.line, hset, (Prod.mk.inj hlink).1, ← hline'] at hlines
      exact hlines.trans (State.line_sameButList_settle _ l)
  · have h := (State.noted_mapActive hl fun a => { a with down := { a.down with held := ahead ++ behind } }).encodeMiss
    exact ⟨_, exec_jobStartDeadline_held hl hheld hd hahead hpool hqueued,
      ⟨(State.device_encodeMiss _ c).trans (State.device_setHeld s c _), h.others,
        fun x _ => (State.slot_encodeMiss _ c x).trans (State.slot_setHeld s c _ x)⟩,
      (State.pool_encodeMiss _ c).trans (State.pool_setHeld s c _),
      (State.link_encodeMiss _ c).trans (State.link_setHeld s c _), State.sameLines_settle h.line, h.life,
      h.continuity, h.counter_one, h.events .F, h.events .R⟩

end Sys2Proof.Machine
end

section
/-! SUPPORT. The completion of a job: what it leaves of its engine and the Job Queue, and the job that waited for it. -/

namespace Sys2Proof.Machine

/-! ### The pool after a completion (R128, R129) -/

/-- The state at the end of a job on engine `e`: the core clock stands there, and the engine has left the job. -/
def State.jobLeft (s : State) (e : Fin 4) (ends : Nat) (left : Engine) : State :=
  { s with clock := max s.clock ends, engines := s.engines.set e.val left }

section Pool

variable {s t : State} {e : Fin 4} {left : Engine} {queue : List Job} {j : Job}

theorem State.engineLeft.of_after {t' : State} (h : s.engineLeft t e left queue) (hp : t'.pool = t.pool)
    (hc : t'.clock = t.clock) : s.engineLeft t' e left queue := by
  obtain ⟨he, hj⟩ := Prod.mk.inj hp
  unfold State.engineLeft at *
  rw [he, hj, hc]
  exact h

theorem State.offeredBehind.of_after {t' : State} (h : s.offeredBehind t e left j) (hp : t'.pool = t.pool)
    (hc : t'.clock = t.clock) : s.offeredBehind t' e left j := by
  obtain ⟨hoffered, hleft⟩ := h
  refine ⟨hoffered.of_after hp hc, fun hfull => ?_⟩
  obtain ⟨queue, hjoins, hqueue⟩ := hleft hfull
  exact ⟨queue, hjoins, hqueue.of_after hp hc⟩

/-- With no other engine FREE, none is once the engine of the job is not. -/
theorem set_not_free {engines : Vector Engine 4} {g : Engine} (hg : g ≠ .free)
    (h : ∀ d : Fin 4, d ≠ e → engines[d.val] ≠ .free) (d : Fin 4) : (engines.set e.val g)[d.val] ≠ .free := by
  by_cases hd : d = e
  · subst hd
    simpa using hg
  · have hne : e.val ≠ d.val := fun he => hd (Fin.ext he.symm)
    simpa [hne] using h d hd

/-- The arbiter acts on an engine that a job has left, and on the queue as it is then. -/
theorem State.engineLeft_of_pool (h : t.pool = (s.engines.set e.val left, queue)) :
    s.engineLeft t.arbitrate e left queue := by
  obtain ⟨hengines, rfl⟩ := Prod.mk.inj h
  have hleft := ({ t with engines := s.engines } : State).engineLeft_arbitrate e left
  have ht : ({ t with engines := s.engines.set e.val left } : State) = t := by rw [← hengines]
  simp only [ht] at hleft
  exact hleft

/-- The arbiter has nothing left to do where it has acted after a completion. -/
theorem State.engineLeft.arbitrate (h : s.engineLeft t e left queue) : s.engineLeft t.arbitrate e left queue := by
  obtain ⟨hnil, hfull⟩ := h
  refine ⟨fun hq => ?_, fun hothers => ⟨fun hout => ?_, fun head rest hfree hq => ?_⟩⟩
  · rw [State.arbitrate_of_nil (hnil hq).1]
    exact hnil hq
  · have hleft := (hfull hothers).1 hout
    rw [State.arbitrate_of_full (by rw [hleft.2]; exact set_not_free nofun hothers)]
    exact hleft
  · have hleft := (hfull hothers).2 head rest hfree hq
    rw [State.arbitrate_of_full (by rw [hleft.2]; exact set_not_free nofun hothers)]
    exact hleft

/-- Nor where it has acted in an offer. -/
theorem State.jobOffered.arbitrate (h : s.jobOffered t j) : s.jobOffered t.arbitrate j := by
  obtain ⟨hstarts, hjoins⟩ := h
  refine ⟨fun e hj he hlowest => ?_, fun hfull => ?_⟩
  · have hstarted := hstarts e hj he hlowest
    rw [State.arbitrate_of_nil hstarted.1]
    exact hstarted
  · have hqueued := hjoins hfull
    rw [State.arbitrate_of_full (by rw [hqueued.1]; exact hfull)]
    exact hqueued

theorem State.offeredBehind.arbitrate (h : s.offeredBehind t e left j) : s.offeredBehind t.arbitrate e left j := by
  obtain ⟨hoffered, hleft⟩ := h
  refine ⟨hoffered.arbitrate, fun hfull => ?_⟩
  obtain ⟨queue, hjoins, hqueue⟩ := hleft hfull
  exact ⟨queue, hjoins, hqueue.arbitrate⟩

/-- A job that joins the queue in its offer, with what the arbiter then does. -/
def State.jobTaken (s : State) (j : Job) : State := ({ s with jobs := insertJob j s.jobs } : State).arbitrate

/-- A job offered behind the one that completes, before its deadline. -/
theorem State.offeredBehind_jobTaken (h : t.pool = (s.engines.set e.val left, s.jobs)) (j : Job) :
    s.offeredBehind (t.jobTaken j) e left j := by
  obtain ⟨hengines, hjobs⟩ := Prod.mk.inj h
  refine ⟨State.jobOffered_of_pool h (t.jobOffered_arbitrate j), fun _ => ⟨insertJob j s.jobs, joins_insertJob j s.jobs,
    State.engineLeft_of_pool ?_⟩⟩
  rw [← hengines, ← hjobs]
  rfl

theorem State.jobTaken_keeps (s : State) (j : Job) :
    (s.jobTaken j).device = s.device ∧ (∀ d, (s.jobTaken j).chan d = s.chan d)
      ∧ (∀ x, (s.jobTaken j).slot x = s.slot x) ∧ (s.jobTaken j).link = s.link
      ∧ ∀ l, (s.jobTaken j).line l = s.line l :=
  ⟨State.device_arbitrate _, State.chan_arbitrate _, State.slot_arbitrate _, State.link_arbitrate _,
    State.line_arbitrate _⟩

end Pool

/-! ### The completion (R129) -/

theorem exec_jobCompletion {e : Fin 4} {s : State} {j : Job} {ends : Nat} {left : Engine}
    (he : (s.engines[e.val] = .busy j ends ∧ left = .free) ∨ (s.engines[e.val] = .draining j ends ∧ left = .out))
    (h : ends ≤ s.clock ∨ (s.outstanding = false ∧ s.nothingEndsBefore ends = true)) :
    exec (.jobCompletion e) s
      = .next (((s.jobLeft e ends left).deliver j).afterCompletion j).arbitrate.settle := by
  have hmay := State.mayAdvance_max h
  have hengine : (s.engines[e.val]).job? = some j ∧ (s.engines[e.val]).ends? = some ends
      ∧ (s.engines[e.val]).afterJob = left := by
    rcases he with ⟨he, rfl⟩ | ⟨he, rfl⟩ <;> rw [he] <;> exact ⟨rfl, rfl, rfl⟩
  obtain ⟨hjob, hends, rfl⟩ := hengine
  show Host.Outcome.next _ = _
  simp only [hjob, hends, hmay, if_true]
  rfl

/-- What a completion leaves beside the channels it touches, where nothing goes to the Transmit Queue after the job has left
its engine. -/
theorem State.frame_completion {s v : State} {e : Fin 4} {ends : Nat} {left : Engine} {chans : List Chan}
    (hd : v.device = (s.jobLeft e ends left).device) (hc : (s.jobLeft e ends left).sameChannels v chans)
    (hs : ∀ x, v.slot x = (s.jobLeft e ends left).slot x) (hlink : v.link = (s.jobLeft e ends left).link)
    (hline : ∀ l, v.line l = (s.jobLeft e ends left).line l) :
    s.streamFrame { v.arbitrate.settle with clock := s.clock } chans []
      ∧ v.arbitrate.settle.clock = max s.clock ends ∧ v.arbitrate.settle.link = s.link
      ∧ s.sameLines v.arbitrate.settle := by
  have hdevice : v.arbitrate.settle.device = (s.jobLeft e ends left).device := v.device_arbitrate.trans hd
  exact ⟨⟨congrArg (fun d : Device => { d with clock := s.clock }) hdevice,
    fun d hd' => (v.chan_arbitrate d).trans (hc d hd'), fun x _ => (v.slot_arbitrate x).trans (hs x)⟩,
    congrArg Device.clock hdevice, v.link_arbitrate.trans hlink,
    State.sameLines_settle fun l => (v.line_arbitrate l).trans (hline l)⟩

theorem State.afterCompletion_encode (s : State) {j : Job} (h : j.kind = .encode) :
    s.afterCompletion j = s.releaseHeld j.channel := by
  rw [State.afterCompletion, h]

theorem State.afterCompletion_decode (s : State) {j : Job} (h : j.kind = .decode) :
    s.afterCompletion j = s.offerHeldDecode j.channel := by
  rw [State.afterCompletion, h]

theorem State.deliver_discard {s : State} {j : Job} (h : j.discard = true) : s.deliver j = s := by
  rw [State.deliver, h]
  rfl

theorem State.deliver_decode {s : State} {j : Job} {f : SpeechFrame} {a : Active} (hd : j.discard = false)
    (hl : s.life j.channel = .active a) (hw : j.work = .decode f) : s.deliver j = s.decodeResult j.channel f := by
  simp [State.deliver, hd, hl, hw, Life.lifecycle]

theorem State.releaseHeld_nil {s : State} {c : Chan} (h : s.heldItems c = []) : s.releaseHeld c = s.setHeld c [] := by
  rw [State.releaseHeld, h]
  rfl

/-- With nothing held, nothing changes of the contexts when the held items are emptied. -/
theorem State.chan_setHeld_nil {s : State} {c : Chan} (h : s.heldItems c = []) (d : Chan) :
    (s.setHeld c []).chan d = s.chan d := by
  cases hl : s.life c with
  | active a =>
    have hheld : a.down.held = [] := by rwa [State.heldItems, hl] at h
    rw [State.chan_setHeld hl]
    split
    · next hd =>
      subst hd
      rw [← hheld]
      show ({ s.chan c with life := .active a } : Channel) = s.chan c
      rw [← hl]
      rfl
    · rfl
  | free | halfF h | halfR h => simp only [State.setHeld, State.mapActive, hl]

theorem State.offerHeldDecode_none {s : State} {c : Chan}
    (h : ∀ w f, s.window? c = some w → w.state ≠ .decoding f true) : s.offerHeldDecode c = s := by
  unfold State.offerHeldDecode
  split
  · next a hl =>
    split
    · next deadline f hs =>
      have hwindow : s.window? c = some { deadline, state := .decoding f true } := by simp only [State.window?, hl, hs]
      exact absurd rfl (h _ f hwindow)
    · rfl
  · rfl

/-- A DECODE's result handed to the window that waits for it makes the window READY, and changes no more (R95). -/
theorem State.decodeResult_waited {s : State} {c : Chan} {a : Active} {comfort : Bool} {expected : BitVec 8}
    {deadline : Nat} {f : SpeechFrame} (hl : s.life c = .active a)
    (hs : a.up.stream = .running comfort expected { deadline, state := .decoding f false }) :
    s.sameButLife (s.decodeResult c f) c
      ∧ (s.decodeResult c f).life c = .active { a with up := { a.up with
          stream := .running comfort expected
            { deadline, state := .ready f (Speech.decodeFrame f.mode ⟨f.predictor, f.stepIndex⟩ f.payload) } } } := by
  refine ⟨s.sameButLife_mapActive c _, ?_⟩
  rw [State.decodeResult, State.life_def, State.chan_mapActive_self, Channel.mapActive_of_active hl]
  simp only [hs]

/-- A DECODE held behind a marked one goes to the pool before its deadline, and its window no longer holds it (R96). -/
theorem State.offerHeldDecode_held {s : State} {c : Chan} {a : Active} {comfort : Bool} {expected : BitVec 8}
    {deadline : Nat} {f : SpeechFrame} (hl : s.life c = .active a)
    (hs : a.up.stream = .running comfort expected { deadline, state := .decoding f true }) (hd : s.time < deadline)
    (hpool : s.inPool c .decode = false) :
    s.offerHeldDecode c
      = (s.setWindow c (.decoding f false)).jobTaken { channel := c, deadline, work := .decode f, discard := false } := by
  have htime : (s.setWindow c (.decoding f false)).time = s.time := State.time_of_device (by simp)
  simp only [State.offerHeldDecode, hl, hs, State.offerDecode, hpool, Bool.false_eq_true, if_false]
  rw [State.offerJob_before _ _ (by rw [htime]; exact hd)]
  rfl

/-- Settles O19: the engine is left, the result handed over unless it is marked, and what waited is offered. -/
theorem decodeAndDiscardCompletions : Obligations.DecodeAndDiscardCompletions := by
  intro e s j ends left he hends
  have hexec := exec_jobCompletion he hends
  have hpool : (s.jobLeft e ends left).pool = (s.engines.set e.val left, s.jobs) := rfl
  refine ⟨fun deadline f a comfort expected hwork hdiscard hl hs => ?_, fun hdiscard hheld hwindow => ?_,
    fun deadline f a comfort expected hkind hdiscard hl hs hd hin => ?_,
    fun a next deadline rest hkind hdiscard hl hheld hd => ?_⟩
  · have hl : (s.jobLeft e ends left).life j.channel = .active a := hl
    obtain ⟨hsame, hlife⟩ := State.decodeResult_waited hl hs
    have hkind : j.kind = .decode := by rw [Job.kind, hwork]
    have hnone : ((s.jobLeft e ends left).decodeResult j.channel f).offerHeldDecode j.channel
        = (s.jobLeft e ends left).decodeResult j.channel f := State.offerHeldDecode_none fun w g hw hg => by
      simp only [State.window?, hlife, Option.some.injEq] at hw
      rw [← hw] at hg
      cases hg
    rw [State.deliver_decode hdiscard hl hwork, State.afterCompletion_decode _ hkind, hnone] at hexec
    obtain ⟨hframe, hclock, hlink, hlines⟩ := State.frame_completion (State.device_decodeResult _ j.channel f)
      hsame.sameChannels (State.slot_decodeResult _ j.channel f) (State.link_decodeResult _ j.channel f)
      (State.line_decodeResult _ j.channel f)
    exact ⟨_, hexec, hframe, hclock, hlink, hlines,
      (State.engineLeft_of_pool ((State.pool_decodeResult _ j.channel f).trans hpool)).of_after rfl rfl,
      (State.chan_arbitrate _ j.channel).trans (hsame.chan_self hlife)⟩
  · rw [State.deliver_discard hdiscard] at hexec
    cases hkind : j.kind with
    | encode =>
      have hheld : (s.jobLeft e ends left).heldItems j.channel = [] := hheld
      rw [State.afterCompletion_encode _ hkind, State.releaseHeld_nil hheld] at hexec
      obtain ⟨hframe, hclock, hlink, hlines⟩ := State.frame_completion (chans := [])
        (State.device_setHeld _ j.channel []) (fun d _ => State.chan_setHeld_nil hheld d)
        (State.slot_setHeld _ j.channel []) (State.link_setHeld _ j.channel []) (State.line_setHeld _ j.channel [])
      exact ⟨_, hexec, hframe, hclock, hlink, hlines,
        (State.engineLeft_of_pool ((State.pool_setHeld _ j.channel []).trans hpool)).of_after rfl rfl⟩
    | decode =>
      have hnone := State.offerHeldDecode_none (s := s.jobLeft e ends left) hwindow
      rw [State.afterCompletion_decode _ hkind, hnone] at hexec
      obtain ⟨hframe, hclock, hlink, hlines⟩ := State.frame_completion (s := s) (v := s.jobLeft e ends left) (chans := [])
        rfl (fun _ _ => rfl) (fun _ => rfl) rfl fun _ => rfl
      exact ⟨_, hexec, hframe, hclock, hlink, hlines, (State.engineLeft_of_pool hpool).of_after rfl rfl⟩
  · have hl : (s.jobLeft e ends left).life j.channel = .active a := hl
    have hsame : (s.jobLeft e ends left).sameButLife
        ((s.jobLeft e ends left).setWindow j.channel (.decoding f false)) j.channel :=
      State.sameButLife_mapActive _ j.channel _
    have hlife := State.life_setWindow hl hs (.decoding f false)
    rw [State.deliver_discard hdiscard, State.afterCompletion_decode _ hkind,
      State.offerHeldDecode_held hl hs hd hin] at hexec
    have hbehind := State.offeredBehind_jobTaken
      ((State.pool_setWindow (s.jobLeft e ends left) j.channel (.decoding f false)).trans hpool)
      { channel := j.channel, deadline, work := .decode f, discard := false }
    obtain ⟨hdevice, hchan, hslot, hlink, hline⟩ :=
      ((s.jobLeft e ends left).setWindow j.channel (.decoding f false)).jobTaken_keeps
        { channel := j.channel, deadline, work := .decode f, discard := false }
    obtain ⟨hframe, hclock, hlink, hlines⟩ := State.frame_completion (chans := [j.channel])
      (hdevice.trans (State.device_setWindow _ _ _)) (fun d hd => (hchan d).trans (hsame.sameChannels d hd))
      (fun x => (hslot x).trans (State.slot_setWindow _ _ _ x)) (hlink.trans (State.link_setWindow _ _ _))
      (fun l => (hline l).trans (State.line_setWindow _ _ _ l))
    exact ⟨_, hexec, hframe, hclock, hlink, hlines, hbehind.arbitrate.of_after rfl rfl,
      (State.chan_arbitrate _ j.channel).trans ((hchan j.channel).trans (hsame.chan_self hlife))⟩
  · have hl : (s.jobLeft e ends left).life j.channel = .active a := hl
    have hreleased : (s.jobLeft e ends left).releaseHeld j.channel
        = ((s.jobLeft e ends left).jobTaken (a.encodeJob j.channel next deadline)).setHeld j.channel rest := by
      rw [State.releaseHeld, State.heldItems, hl]
      show State.releaseItems j.channel a.down.held _ = _
      rw [hheld]
      exact State.releaseItems_job hl hd rest
    rw [State.deliver_discard hdiscard, State.afterCompletion_encode _ hkind, hreleased] at hexec
    have hbehind := State.offeredBehind_jobTaken hpool (a.encodeJob j.channel next deadline)
    obtain ⟨hdevice, hchan, hslot, hlink, hline⟩ :=
      (s.jobLeft e ends left).jobTaken_keeps (a.encodeJob j.channel next deadline)
    have hlife := (congrArg Channel.life (hchan j.channel)).trans hl
    have hheldChan := State.chan_setHeld hlife rest
    obtain ⟨hframe, hclock, hlink, hlines⟩ := State.frame_completion (chans := [j.channel])
      ((State.device_setHeld _ j.channel rest).trans hdevice)
      (fun d hd => (hheldChan d).trans
        ((if_neg fun hc => hd (List.mem_singleton.mpr hc.symm)).trans (hchan d)))
      (fun x => (State.slot_setHeld _ j.channel rest x).trans (hslot x))
      ((State.link_setHeld _ j.channel rest).trans hlink)
      (fun l => (State.line_setHeld _ j.channel rest l).trans (hline l))
    refine ⟨_, hexec, hframe, hclock, hlink, hlines, (hbehind.of_after (State.pool_setHeld _ j.channel rest)
      (congrArg Device.clock (State.device_setHeld _ j.channel rest))).arbitrate.of_after rfl rfl, ?_⟩
    refine (State.chan_arbitrate _ j.channel).trans ((hheldChan j.channel).trans ((if_pos rfl).trans ?_))
    exact congrArg (fun ch : Channel =>
      { ch with life := .active { a with down := { a.down with held := rest } } }) (hchan j.channel)

end Sys2Proof.Machine
end

section
/-! SUPPORT. The completion of an ENCODE: its record goes to the Transmit Queue, its end state to the channel, and what was
held behind it goes on. -/

namespace Sys2Proof.Machine

/-! ### A record released, as it is counted (R76, R77) -/

theorem State.recordReleased.recordCounted {s t : State} {c : Chan} {r : Record} (h : s.recordReleased t c (some r)) :
    s.recordCounted t c r := by
  refine ⟨h.offered r rfl, fun k => ?_, fun l => ?_⟩
  · simpa using h.counter k
  · have hline := h.line l
    by_cases hroom : s.transmit.length < 32
    · simpa [hroom, Nat.not_le.mpr hroom] using hline
    · simpa [hroom, Nat.not_lt.mp hroom] using hline

/-- With no record released, what is said of the transmit path before holds after. -/
theorem State.recordReleased.unchanged {s t : State} {c : Chan} (h : s.recordReleased t c none) :
    t.link = s.link ∧ (∀ l, (s.line l).sameButList (t.line l)) ∧ ∀ k, (t.chan c).counter k = (s.chan c).counter k :=
  ⟨h.kept rfl, fun l => by simpa using h.line l, fun k => by simpa using h.counter k⟩

/-! ### The result of an ENCODE (R118, R157) -/

/-- A context with the encoder state that an ENCODE ends in. -/
def Active.withCoder (a : Active) (last : Speech.Coder) : Active :=
  { a with down := { a.down with predictor := last.predictor, stepIndex := last.stepIndex } }

theorem speechRecord_eq (c : Chan) (sequence : BitVec 8) (m : Mode) (start : Speech.Coder) (payload : List Octet) :
    speechRecord c sequence m start payload
      = ([BitVec.ofNat 8 (64 + 16 * m.code), BitVec.ofNat 8 c.val, sequence,
          (BitVec.ofInt 16 start.predictor).extractLsb' 8 8, (BitVec.ofInt 16 start.predictor).extractLsb' 0 8,
          BitVec.ofNat 8 start.stepIndex] ++ payload)
        ++ Checks.crc16Octets ([BitVec.ofNat 8 (64 + 16 * m.code), BitVec.ofNat 8 c.val, sequence,
          (BitVec.ofInt 16 start.predictor).extractLsb' 8 8, (BitVec.ofInt 16 start.predictor).extractLsb' 0 8,
          BitVec.ofNat 8 start.stepIndex] ++ payload) := rfl

theorem recordChannel_speechRecord (c : Chan) (sequence : BitVec 8) (m : Mode) (start : Speech.Coder)
    (payload : List Octet) : recordChannel (speechRecord c sequence m start payload) = c :=
  recordChannel_sealRecord _ c _

theorem State.deliver_encode {s : State} {j : Job} {work : EncodeWork} {start : Speech.Coder} {a : Active}
    (hd : j.discard = false) (hl : s.life j.channel = .active a) (hw : j.work = .encode work start) :
    s.deliver j = s.encodeResult j.channel work start := by
  simp [State.deliver, hd, hl, hw, Life.lifecycle]

/-- An event from `s` to `t` that hands an ENCODE's result over: its record is offered, and its end state becomes the
encoder state of the channel. -/
structure State.encodeHanded (s t : State) (c : Chan) (a : Active) (r : Record) (last : Speech.Coder) : Prop where
  device : t.device = s.device
  pool : t.pool = s.pool
  slot : ∀ x, t.slot x = s.slot x
  others : s.sameChannels t [c]
  life : t.life c = .active (a.withCoder last)
  continuity : (t.chan c).continuity = (s.chan c).continuity
  events : ∀ l, (t.chan c).events l = (s.chan c).events l
  counted : s.recordCounted t c r

theorem State.encodeHanded_encodeResult {s : State} {c : Chan} {a : Active} (hl : s.life c = .active a)
    {work : EncodeWork} {start last : Speech.Coder} {payload : List Octet}
    (hw : Speech.encodeFrame work.mode start work.samples = (payload, last)) :
    s.encodeHanded (s.encodeResult c work start) c a (speechRecord c work.sequence work.mode start payload) last := by
  have hr := recordChannel_speechRecord c work.sequence work.mode start payload
  have hresult : s.encodeResult c work start
      = (s.offerRecord (speechRecord c work.sequence work.mode start payload)).mapActive c (·.withCoder last) := by
    simp only [State.encodeResult, hw]
    rfl
  obtain ⟨r, hrecord⟩ : ∃ r, r = speechRecord c work.sequence work.mode start payload := ⟨_, rfl⟩
  rw [hresult, ← hrecord]
  rw [← hrecord] at hr
  have h : s.recordReleased (s.offerRecord r) c (some r) :=
    s.recordReleased_offerFirst (first := some r) fun q hq => by rwa [← Option.some.inj hq]
  have hsame := (s.offerRecord r).sameButLife_mapActive c (·.withCoder last)
  have hlife : ((s.offerRecord r).mapActive c (·.withCoder last)).life c = .active (a.withCoder last) := by
    rw [State.life_def, State.chan_mapActive_self, Channel.mapActive_of_active (h.life.trans hl)]
  have hself := hsame.chan_self hlife
  refine ⟨(State.device_mapActive _ c _).trans h.device, (State.pool_mapActive _ c _).trans h.pool,
    fun x => (State.slot_mapActive _ c _ x).trans (h.slot x), fun d hd => (hsame.sameChannels d hd).trans (h.others d hd),
    hlife, (congrArg Channel.continuity hself).trans h.continuity, fun l => ?_, ?_⟩
  · rw [hself, ← h.events]
    cases l <;> rfl
  · exact h.recordCounted.of_eq rfl (fun _ => rfl) (fun _ => rfl) (State.link_mapActive _ c _)
      (State.clock_of_device (State.device_mapActive _ c _)) (fun l => by rw [State.line_mapActive]; rfl)
      fun k => by rw [hself]; rfl

/-! ### The completion (R117, R129, R160) -/

/-- The completion of an ENCODE on engine `e` in an event from `s` to `t`, with the context `a` before it and the items held
behind it a record at their head, or none, and then `tail`. -/
structure State.encodeCompleted (s t : State) (e : Fin 4) (ends : Nat) (left : Engine) (c : Chan) (a : Active)
    (r : Record) (last : Speech.Coder) (first : Option Record) (tail : List Held) : Prop where
  frame : s.streamFrame { t with clock := s.clock } [c] []
  clock : t.clock = max s.clock ends
  life : t.life c = .active { a.withCoder last with down := { (a.withCoder last).down with held := tail.drop 1 } }
  continuity : (t.chan c).continuity = (s.chan c).continuity
  events : ∀ l, (t.chan c).events l = (s.chan c).events l
  counted : first = none → s.recordCounted t c r
  follows : ∀ q, first = some q → ∃ u, u.clock = t.clock ∧ s.recordCounted u c r ∧ u.recordCounted t c q
  alone : tail = [] → s.engineLeft t e left s.jobs
  behind : ∀ next deadline rest, tail = .job next deadline :: rest →
    s.offeredBehind t e left ((a.withCoder last).encodeJob c next deadline)

/-- What was held behind a result handed over is released, and the arbiter acts. -/
theorem State.encodeHanded.encodeCompleted {s u : State} {e : Fin 4} {ends : Nat} {left : Engine} {c : Chan} {a : Active}
    {r : Record} {last : Speech.Coder} {first : Option Record} {tail : List Held}
    (h : (s.jobLeft e ends left).encodeHanded u c a r last) (hheld : a.down.held = first.toList.map Held.record ++ tail)
    (htail : waitsForNext tail s.time) (hfirst : ∀ q, first = some q → recordChannel q = c) :
    s.encodeCompleted (u.releaseHeld c).arbitrate.settle e ends left c a r last first tail := by
  have htime : u.time = s.time := congrArg Device.time h.device
  have hwaits : waitsForNext tail u.time := htime ▸ htail
  have hreleased := State.heldReleased_releaseHeld h.life hheld hwaits hfirst
  obtain ⟨w, hrecord, hlink, hline, hchan⟩ := hreleased.record
  have hself := hchan c
  rw [if_pos rfl] at hself
  have hdevice : (u.releaseHeld c).device = (s.jobLeft e ends left).device := hreleased.device.trans h.device
  have hlines : ∀ l, (w.line l).sameButList ((u.releaseHeld c).arbitrate.settle.line l) := fun l => by
    have hsettled := State.line_sameButList_settle (u.releaseHeld c).arbitrate l
    rwa [State.line_arbitrate, hline] at hsettled
  have hlinks : (u.releaseHeld c).arbitrate.settle.link = w.link := (State.link_arbitrate _).trans hlink
  have hdevices : (u.releaseHeld c).arbitrate.settle.device = w.device :=
    (State.device_arbitrate _).trans (hreleased.device.trans hrecord.device.symm)
  have hchans : ∀ d, (u.releaseHeld c).arbitrate.settle.chan d = (u.releaseHeld c).chan d := State.chan_arbitrate _
  have hcounters : ∀ k, ((u.releaseHeld c).arbitrate.settle.chan c).counter k = (w.chan c).counter k := fun k => by
    rw [hchans, hself]
    rfl
  have hcounted : s.recordCounted u c r := h.counted.of_eq rfl (fun _ => rfl) (fun _ => rfl) rfl rfl (fun _ => rfl)
    fun _ => rfl
  have hpool : (u.offerFirst first).pool = (s.engines.set e.val left, s.jobs) :=
    (u.recordReleased_offerFirst hfirst).pool.trans h.pool
  have heq := State.releaseHeld_eq h.life hheld hwaits hfirst
  refine ⟨⟨?_, fun d hd => ?_, fun x _ => ?_⟩, ?_, ?_, ?_, fun l => ?_, fun hn => ?_, fun q hq => ?_, fun ht => ?_,
    fun next deadline rest ht => ?_⟩
  · exact congrArg (fun d : Device => { d with clock := s.clock }) ((State.device_arbitrate _).trans hdevice)
  · refine (hchans d).trans ((hchan d).trans ?_)
    rw [if_neg fun hc => hd (List.mem_singleton.mpr hc.symm)]
    exact (hrecord.others d hd).trans (h.others d hd)
  · exact (State.slot_arbitrate _ x).trans ((hreleased.slot x).trans (h.slot x))
  · exact congrArg Device.clock ((State.device_arbitrate _).trans hdevice)
  · rw [State.life_def, hchans, hself]
  · rw [hchans, hself]
    exact hrecord.continuity.trans h.continuity
  · refine Eq.trans ?_ ((hrecord.events l).trans (h.events l))
    rw [hchans, hself]
    cases l <;> rfl
  · subst hn
    obtain ⟨hlink', hlines', hcounters'⟩ := hrecord.unchanged
    exact hcounted.of_eq rfl (fun _ => rfl) (fun _ => rfl) (hlinks.trans hlink')
      ((congrArg Device.clock hdevices).trans (State.clock_of_device hrecord.device))
      (fun l => (hlines' l).trans (hlines l)) fun k => (hcounters k).trans (hcounters' k)
  · subst hq
    exact ⟨u, (congrArg Device.clock (hdevices.trans hrecord.device)).symm, hcounted,
      hrecord.recordCounted.of_eq rfl (fun _ => rfl) (fun _ => rfl) hlinks (congrArg Device.clock hdevices) hlines hcounters⟩
  · exact (State.engineLeft_of_pool ((hreleased.pool ht).trans h.pool)).of_after rfl rfl
  · rw [heq, ht]
    exact ((State.offeredBehind_jobTaken hpool _).of_after (State.pool_setHeld _ c _)
      (congrArg Device.clock (State.device_setHeld _ c _))).arbitrate.of_after rfl rfl

/-- The completion of an ENCODE not marked for discard, on an ACTIVE channel. -/
theorem exec_jobCompletion_encode {e : Fin 4} {s : State} {j : Job} {ends : Nat} {left : Engine} {work : EncodeWork}
    {start last : Speech.Coder} {payload : List Octet} {a : Active} {first : Option Record} {tail : List Held}
    (he : (s.engines[e.val] = .busy j ends ∧ left = .free) ∨ (s.engines[e.val] = .draining j ends ∧ left = .out))
    (hwork : j.work = .encode work start) (hdiscard : j.discard = false) (hl : s.life j.channel = .active a)
    (hends : ends ≤ s.clock ∨ (s.outstanding = false ∧ s.nothingEndsBefore ends = true))
    (hw : Speech.encodeFrame work.mode start work.samples = (payload, last))
    (hheld : a.down.held = first.toList.map Held.record ++ tail) (htail : waitsForNext tail s.time)
    (hfirst : ∀ q, first = some q → recordChannel q = j.channel) :
    ∃ t, exec (.jobCompletion e) s = .next t
      ∧ s.encodeCompleted t e ends left j.channel a
        (speechRecord j.channel work.sequence work.mode start payload) last first tail := by
  have hkind : j.kind = .encode := by rw [Job.kind, hwork]
  have hl : (s.jobLeft e ends left).life j.channel = .active a := hl
  have hexec := exec_jobCompletion he hends
  rw [State.deliver_encode hdiscard hl hwork, State.afterCompletion_encode _ hkind] at hexec
  exact ⟨_, hexec, (State.encodeHanded_encodeResult hl hw).encodeCompleted hheld htail hfirst⟩

/-- Settles O18: the record and the end state handed over, then what was held behind the job. -/
theorem encodeCompletionSendsTheRecord : Obligations.EncodeCompletionSendsTheRecord := by
  intro e s j ends left work start last c payload body a he hwork hdiscard hc hl hends hw hbody
  subst hc hbody
  rw [← speechRecord_eq]
  refine ⟨fun hheld => ?_, fun r hheld hr => ?_⟩
  · obtain ⟨t, hexec, ht⟩ := exec_jobCompletion_encode (first := none) he hwork hdiscard hl hends hw rfl hheld nofun
    exact ⟨t, hexec, ht.frame, ht.clock, ht.counted rfl, ht.life, ht.continuity, ht.events .F, ht.events .R, ht.alone,
      ht.behind⟩
  · obtain ⟨t, hexec, ht⟩ := exec_jobCompletion_encode (first := some r) (tail := []) he hwork hdiscard hl hends hw hheld
      (.inl rfl) fun q hq => Option.some.inj hq ▸ hr
    obtain ⟨u, hclock, hown, hnext⟩ := ht.follows r rfl
    exact ⟨t, u, hexec, ht.frame, ht.clock, ht.alone rfl, hclock, hown, hnext, ht.life, ht.continuity, ht.events .F,
      ht.events .R⟩

end Sys2Proof.Machine
end

section
/-! SUPPORT. Which channels' records hold ACTIVITY_CHANGED, for which line: what the plain updates and the operations of the
streams leave of it. -/

namespace Sys2Proof.Machine

/-! ### The reports -/

/-- Whether a context's record for a line holds ACTIVITY_CHANGED (R120, R189). -/
def Channel.reported (ch : Channel) (l : Line) : Bool := (ch.events l).kinds.getLsbD Kind.activityChanged.bit

/-- The channels and lines whose records hold ACTIVITY_CHANGED. -/
def State.reports (s : State) (c : Chan) (l : Line) : Bool := (s.chan c).reported l

theorem State.reports_of_chan {s t : State} (h : ∀ d, t.chan d = s.chan d) : t.reports = s.reports :=
  funext fun d => funext fun l => by rw [State.reports, h d, State.reports]

/-- Another kind recorded for a line leaves ACTIVITY_CHANGED as it was. -/
theorem Channel.reported_record (ch : Channel) (u : LineUnit) (k : Line) {e : Kind} (he : e ≠ .activityChanged)
    (causes : BitVec 5) (l : Line) : (ch.record u k e causes).reported l = ch.reported l := by
  have hbit : (BitVec.twoPow 9 e.bit).getLsbD Kind.activityChanged.bit = false := by
    cases e with
    | activityChanged => exact absurd rfl he
    | _ => rfl
  have hadd : ∀ r : EventRecord, (r.add e causes).kinds.getLsbD Kind.activityChanged.bit
      = r.kinds.getLsbD Kind.activityChanged.bit := fun r => by
    rw [EventRecord.add, BitVec.getLsbD_or, hbit, Bool.or_false]
  unfold Channel.record
  split
  · cases k <;> cases l
    · exact hadd _
    · rfl
    · rfl
    · exact hadd _
  · rfl

/-! ### The plain updates -/

theorem State.reports_mapChan (s : State) (c : Chan) {f : Channel → Channel}
    (h : ∀ ch l, (f ch).reported l = ch.reported l) : (s.mapChan c f).reports = s.reports := by
  funext d l
  rw [State.reports, State.chan_mapChan]
  split
  · exact h _ l
  · rfl

@[simp] theorem State.reports_setLife (s : State) (c : Chan) (x : Life) : (s.setLife c x).reports = s.reports :=
  s.reports_mapChan c fun _ l => by cases l <;> rfl

@[simp] theorem State.reports_mapActive (s : State) (c : Chan) (f : Active → Active) :
    (s.mapActive c f).reports = s.reports := by
  unfold State.mapActive
  split
  · exact s.reports_setLife c _
  all_goals rfl

@[simp] theorem State.reports_mapSlot (s : State) (x : Slot) (f : Timeslot → Timeslot) :
    (s.mapSlot x f).reports = s.reports := State.reports_of_chan (by simp)

@[simp] theorem State.reports_mapLine (s : State) (l : Line) (f : LineUnit → LineUnit) :
    (s.mapLine l f).reports = s.reports := State.reports_of_chan (by simp)

/-- A fold of updates that leave the reports leaves them. -/
theorem State.reports_foldl {β : Type} (s : State) (f : State → β → State) (h : ∀ s b, (f s b).reports = s.reports)
    (l : List β) : (l.foldl f s).reports = s.reports :=
  foldl_keeps State.reports f h l s

/-! ### Events, counters and records -/

@[simp] theorem State.reports_record (s : State) (c : Chan) (l : Line) {k : Kind} (hk : k ≠ .activityChanged) :
    (s.record c l k).reports = s.reports :=
  s.reports_mapChan c fun ch => ch.reported_record _ l hk 0

@[simp] theorem State.reports_warn (s : State) (c : Chan) (k : Cause) : (s.warn c k).reports = s.reports :=
  s.reports_mapChan c fun ch l => by
    rw [Channel.reported_record _ _ _ (by decide), Channel.reported_record _ _ _ (by decide)]

@[simp] theorem State.reports_count (s : State) (c : Chan) (k : Counter) : (s.count c k).reports = s.reports :=
  s.reports_mapChan c fun _ l => by cases l <;> rfl

@[simp] theorem State.reports_recordLine (s : State) (l : Line) (k : LineKind) :
    (s.recordLine l k).reports = s.reports := State.reports_of_chan (by simp)

@[simp] theorem State.reports_settle (s : State) : s.settle.reports = s.reports := rfl

@[simp] theorem State.reports_startTransmit (s : State) : s.startTransmit.reports = s.reports :=
  State.reports_of_chan (by simp)

@[simp] theorem State.reports_offerRecord (s : State) (r : Record) : (s.offerRecord r).reports = s.reports := by
  unfold State.offerRecord
  split
  · rw [State.reports_startTransmit, State.reports_count]
    rfl
  · simp

/-! ### The pool and what waits for it -/

@[simp] theorem State.reports_arbitrate (s : State) : s.arbitrate.reports = s.reports := State.reports_of_chan (by simp)

@[simp] theorem State.reports_unqueue (s : State) (c : Chan) (k : JobKind) : (s.unqueue c k).reports = s.reports := rfl

@[simp] theorem State.reports_abandonJob (s : State) (c : Chan) (k : JobKind) :
    (s.abandonJob c k).reports = s.reports := rfl

@[simp] theorem State.reports_setWindow (s : State) (c : Chan) (w : WindowState) :
    (s.setWindow c w).reports = s.reports := s.reports_mapActive c _

@[simp] theorem State.reports_decodeMiss (s : State) (c : Chan) : (s.decodeMiss c).reports = s.reports := by
  simp [State.decodeMiss]

@[simp] theorem State.reports_encodeMiss (s : State) (c : Chan) : (s.encodeMiss c).reports = s.reports := by
  simp [State.encodeMiss]

@[simp] theorem State.reports_setHeld (s : State) (c : Chan) (items : List Held) :
    (s.setHeld c items).reports = s.reports := s.reports_mapActive c _

@[simp] theorem State.reports_releaseItems (s : State) (c : Chan) (items : List Held) :
    (State.releaseItems c items s).reports = s.reports := by
  induction items generalizing s with
  | nil => simp [State.releaseItems]
  | cons i rest ih =>
    cases i with
    | record r => simp [State.releaseItems, ih]
    | job e n =>
      have hoffer : (s.offerEncode c e n).1.reports = s.reports := State.reports_of_chan (by simp)
      rw [State.releaseItems]
      split <;> next t ht => rw [ht] at hoffer; simp [ih, hoffer]

@[simp] theorem State.reports_releaseHeld (s : State) (c : Chan) : (s.releaseHeld c).reports = s.reports := by
  simp [State.releaseHeld]

@[simp] theorem State.reports_handOn (s : State) (c : Chan) (i : Held) : (s.handOn c i).reports = s.reports := by
  unfold State.handOn
  split <;> simp

@[simp] theorem State.reports_offerDecode (s : State) (c : Chan) (f : SpeechFrame) (n : Nat) :
    (s.offerDecode c f n).reports = s.reports := by
  unfold State.offerDecode
  split
  · simp
  · have hoffer : ((s.setWindow c (.decoding f false)).offerJob
        { channel := c, deadline := n, work := .decode f, discard := false }).1.reports
          = (s.setWindow c (.decoding f false)).reports := State.reports_of_chan (by simp)
    split <;> next t ht => rw [ht] at hoffer; simpa using hoffer

/-! ### Windows and arrivals -/

@[simp] theorem State.reports_takeFrame (s : State) (c : Chan) (f : Frame) (n : Nat) :
    (s.takeFrame c f n).reports = s.reports := by
  cases f with
  | quiet => simp [State.takeFrame]
  | speech f =>
    rw [State.takeFrame]
    split
    · split <;> simp
    · simp

@[simp] theorem State.reports_setUp (s : State) (c : Chan) (up : UplinkFields) : (s.setUp c up).reports = s.reports :=
  s.reports_mapActive c _

@[simp] theorem State.reports_openWindow (s : State) (c : Chan) (up : UplinkFields) (comfort : Bool) (n : BitVec 8) :
    (s.openWindow c up comfort n).reports = s.reports := by
  unfold State.openWindow
  dsimp only
  split <;> simp

@[simp] theorem State.reports_insertArrival (s : State) (c : Chan) (up : UplinkFields) (n : BitVec 8) (f : Frame) :
    (s.insertArrival c up n f).reports = s.reports := by
  unfold State.insertArrival
  split
  · simp
  · split <;> simp

@[simp] theorem State.reports_resync (s : State) (c : Chan) (up : UplinkFields) (f : Frame) :
    (s.resync c up f).reports = s.reports := by
  simp [State.resync]

@[simp] theorem State.reports_windowArrival (s : State) (c : Chan) (w : Window) (f : Frame) :
    (s.windowArrival c w f).reports = s.reports := by
  unfold State.windowArrival
  split <;> simp

@[simp] theorem State.reports_classify (s : State) (c : Chan) (a : Active) (f : Frame) :
    (s.classify c a f).reports = s.reports := by
  have hqueued : ∀ (p : Prop) [Decidable p] r,
      (if p then s.count c .framesDuplicate else s.insertArrival c a.up r f).reports = s.reports := fun p _ r => by
    split <;> simp
  unfold State.classify
  dsimp only
  split
  · split
    · simp
    · simp
    · split
      · simp
      · split
        · exact hqueued _ _
        · simp
  · split
    · simp
    · split
      · simp
      · split
        · exact hqueued _ _
        · simp

@[simp] theorem State.reports_arrival (s : State) (octets : List Octet) : (s.arrival octets).reports = s.reports := by
  unfold State.arrival
  dsimp only
  split
  · rfl
  · split
    · split <;> simp
    · rfl

@[simp] theorem State.reports_closeWindow (s : State) (c : Chan) (w : Window) :
    (s.closeWindow c w).reports = s.reports := by
  unfold State.closeWindow
  split
  · simp
  · split
    · simp
    · split <;> simp
  all_goals rfl

/-! ### Playout instants -/

@[simp] theorem State.reports_primingInstant (s : State) (c : Chan) (a : Active) (r : Option (BitVec 8)) (n : Nat) :
    (s.primingInstant c a r n).reports = s.reports := by
  unfold State.primingInstant
  dsimp only
  split
  · split <;> simp
  · simp

@[simp] theorem State.reports_concealed (s : State) (c : Chan) (a : Active) (n : Nat) :
    (s.concealed c a n).reports = s.reports := by
  unfold State.concealed
  dsimp only
  split <;> simp

@[simp] theorem State.reports_playBlock (s : State) (a : Active) (b : Block) : (s.playBlock a b).reports = s.reports :=
  s.reports_mapSlot _ _

@[simp] theorem State.reports_plainInstant (s : State) (c : Chan) (a : Active) :
    (s.plainInstant c a).reports = s.reports := by
  unfold State.plainInstant
  split
  · simp
  · unfold State.runningInstant
    split
    · rfl
    · dsimp only
      split <;> simp

@[simp] theorem State.reports_sendToward (s : State) (b : Chan) (a : Active) (m : Sent) :
    (s.sendToward b a m).reports = s.reports := by
  cases m <;> simp [State.sendToward]

@[simp] theorem State.reports_advanceSequence (s : State) (b : Chan) : (s.advanceSequence b).reports = s.reports :=
  s.reports_mapActive b _

@[simp] theorem State.reports_splicedInstant (s : State) (c : Chan) (a : Active) (b : Chan) (e : Active) :
    (s.splicedInstant c a b e).reports = s.reports := by
  unfold State.splicedInstant
  split
  · simp
  · split
    · rfl
    · dsimp only
      split <;> simp

/-! ### Completions and start deadlines -/

@[simp] theorem State.reports_deliver (s : State) (j : Job) : (s.deliver j).reports = s.reports := by
  unfold State.deliver
  split
  · rfl
  · split
    · exact (State.reports_mapActive _ _ _).trans (s.reports_offerRecord _)
    · exact s.reports_mapActive _ _

@[simp] theorem State.reports_afterCompletion (s : State) (j : Job) : (s.afterCompletion j).reports = s.reports := by
  unfold State.afterCompletion
  split
  · simp
  · unfold State.offerHeldDecode
    split
    · split <;> simp
    · rfl

@[simp] theorem State.reports_complete (s : State) (e : Fin 4) (j : Job) : (s.complete e j).reports = s.reports := by
  simp only [State.complete, State.reports_settle, State.reports_arbitrate, State.reports_afterCompletion,
    State.reports_deliver]
  rfl

@[simp] theorem State.reports_encodeDeadline (s : State) (c : Chan) : (s.encodeDeadline c).reports = s.reports := by
  unfold State.encodeDeadline
  split
  · simp
  · split
    · dsimp only
      split <;> simp [State.dropLateHeld]
    · rfl

@[simp] theorem State.reports_decodeDeadline (s : State) (c : Chan) : (s.decodeDeadline c).reports = s.reports := by
  unfold State.decodeDeadline
  split
  · simp
  · split <;> simp

/-! ### Splices, rows and halves -/

@[simp] theorem State.reports_sever (s : State) (c : Chan) : (s.sever c).reports = s.reports := by
  simp [State.sever]

@[simp] theorem State.reports_resume (s : State) (c : Chan) : (s.resume c).reports = s.reports :=
  s.reports_mapActive c _

@[simp] theorem State.reports_redirect (s : State) (c : Chan) : (s.redirect c).reports = s.reports := by
  unfold State.redirect
  split <;> simp

@[simp] theorem State.reports_endSplice (s : State) (a b : Chan) : (s.endSplice a b).reports = s.reports := by
  unfold State.endSplice
  dsimp only
  split <;> simp

@[simp] theorem State.reports_stopStreams (s : State) (c : Chan) (a : Active) :
    (s.stopStreams c a).reports = s.reports := by
  unfold State.stopStreams
  dsimp only
  split <;> simp

@[simp] theorem State.reports_severAll (s : State) : s.severAll.reports = s.reports :=
  s.reports_foldl _ (fun s c => by split <;> simp) _

/-- A row's items and the active mode go into the life of their channel alone. -/
@[simp] theorem State.reports_written (s : State) (r : Row) (c : Chan) (pt : Bool) :
    (s.written r c pt).reports = s.reports := by
  funext d l
  rw [State.reports, State.reports]
  by_cases hd : c = d
  · rw [← hd, State.chan_written_self]
    cases l <;> rfl
  · rw [State.chan_written_ne _ _ hd]

/-- A row applied records COMMIT_APPLIED alone (R144). -/
@[simp] theorem State.reports_applyRow (s : State) (l : Line) (pt : Bool) : (s.applyRow l pt).reports = s.reports := by
  cases hc : (s.line l).row.latched with
  | none => simp only [State.applyRow, hc]
  | some c =>
    have happlied : s.applyRow l pt
        = ((s.written (s.line l).row c pt).record c l .commitApplied).mapLine l fun u => { u with row := .empty } := by
      simp only [State.applyRow, hc, State.written]
    rw [happlied, State.reports_mapLine, State.reports_record _ _ _ (by decide), State.reports_written]

@[simp] theorem State.reports_applyPending (s : State) (l : Line) (c : Chan) (pt : Bool) :
    (s.applyPending l c pt).reports = s.reports := by
  unfold State.applyPending
  split <;> simp

@[simp] theorem State.reports_applyBoth (s : State) (c : Chan) (pt : Bool) :
    (s.applyBoth c pt).reports = s.reports := by
  simp [State.applyBoth]

@[simp] theorem State.reports_loseRow (s : State) (l : Line) (c : Chan) : (s.loseRow l c).reports = s.reports := by
  unfold State.loseRow
  dsimp only
  split
  · rw [State.reports_mapLine]
    split
    · rw [State.reports_record _ _ _ (by decide)]
      split
      · exact s.reports_mapSlot _ _
      · rfl
    · rfl
  · rfl

@[simp] theorem State.reports_abortCheck (s : State) (c : Chan) (h : HalfF) :
    (s.abortCheck c h).reports = s.reports := by
  unfold State.abortCheck
  split
  · rfl
  · rw [State.idleSlot, State.reports_mapSlot, State.reports_record _ _ _ (by decide), State.reports_setLife]
    exact s.reports_mapChan c fun _ l => by cases l <;> rfl

@[simp] theorem State.reports_releaseHalf (s : State) (l : Line) (c : Chan) :
    (s.releaseHalf l c).reports = s.reports := by
  unfold State.releaseHalf
  split <;> simp [State.freeSlot, State.idleSlot]

/-! ### Frame syncs -/

/-- At a frame sync a record gains CONTINUITY_DONE at most (R170). -/
theorem Channel.reported_onSync (s : State) (incoming : Vector Octet 128) (ch : Channel) (l : Line) :
    (ch.onSync s incoming).reported l = ch.reported l := by
  have hlife : ∀ x k, ({ ch with life := x, continuity := k } : Channel).reported l = ch.reported l := fun x k => by
    cases l <;> rfl
  unfold Channel.onSync
  split
  · dsimp only
    split
    · unfold Channel.checkOctet
      split
      · exact hlife _ _
      · dsimp only
        split
        · rw [Channel.reported_record _ _ _ (by decide)]
          exact hlife _ _
        · exact hlife _ _
    · exact hlife _ _
  · exact hlife _ _
  · exact hlife _ _
  · rfl

@[simp] theorem State.reports_frameSync (s : State) (incoming : Vector Octet 128) :
    (s.frameSync incoming).reports = s.reports := by
  funext c l
  rw [State.frameSync, State.reports_settle]
  simp only [State.reports, State.chan, Vector.getElem_map]
  exact Channel.reported_onSync s incoming _ l

end Sys2Proof.Machine
end

section
/-! SUPPORT. The orders and the commands record no ACTIVITY_CHANGED but at a downlink boundary, and a boundary on its own
channel alone. -/

namespace Sys2Proof.Machine

/-! ### No report gained -/

/-- No record holds ACTIVITY_CHANGED in `t` that does not hold it in `s`. -/
def State.noNewReport (s t : State) : Prop := ∀ c l, t.reports c l = true → s.reports c l = true

theorem State.noNewReport_of_eq {s t : State} (h : t.reports = s.reports) : s.noNewReport t := fun c l ht => by
  rwa [h] at ht

theorem State.noNewReport_refl (s : State) : s.noNewReport s := fun _ _ h => h

theorem State.noNewReport.trans {s t u : State} (h : s.noNewReport t) (h' : t.noNewReport u) : s.noNewReport u :=
  fun c l hu => h c l (h' c l hu)

/-- Contexts at their reset values hold no event (R11). -/
theorem State.noNewReport_of_reset {t : State} (h : ∀ c, t.chan c = Channel.reset) (s : State) : s.noNewReport t :=
  fun c l ht => by
    rw [State.reports, h] at ht
    cases l <;> exact absurd ht (by decide)

theorem State.chan_powerOn (s : State) (c : Chan) : s.powerOn.chan c = Channel.reset := State.chan_reset c

theorem State.chan_restarted (s : State) (cause : RestartCause) (c : Chan) :
    (s.restarted cause).chan c = Channel.reset := by
  rw [State.chan, State.restarted, Vector.getElem_replicate]

/-- An event that is not due leaves the state as it is (log 3). -/
theorem State.reports_ifDue {s t : State} (h : t.reports = s.reports) (p : Prop) [Decidable p] :
    (if p then t else s).reports = s.reports := by
  split
  · exact h
  · rfl

/-! ### Taking an order -/

/-- An order gains no report where its verb gains none, whoever it is for. -/
theorem State.noNewReport_takeOrder (s : State) (o : Order) (owned broadcast : Bool) (ch : State → BitVec 7)
    {body : State → Effect} (hbody : ∀ t : State, t.noNewReport (body t).state) :
    s.noNewReport (takeOrder o owned broadcast ch body s) := by
  have htouch : s.noNewReport (s.touch o.line) := State.noNewReport_of_eq (State.reports_of_chan (by simp))
  have hcarried : s.noNewReport (carryOut o owned body (s.touch o.line)).state := by
    unfold carryOut
    split
    · exact htouch
    · split
      · exact htouch
      · exact htouch.trans (hbody _)
  have hline : ∀ {t : State} f, s.noNewReport t → s.noNewReport (t.mapLine o.line f) := fun f ht =>
    ht.trans (State.noNewReport_of_eq (State.reports_mapLine _ _ f))
  unfold takeOrder
  split
  · exact s.noNewReport_refl
  · split
    · refine hline _ ?_
      split
      · exact hcarried
      · exact htouch
    · split
      · exact hcarried.trans (State.noNewReport_of_eq (State.reports_of_chan (by simp)))
      · exact hline _ s.noNewReport_refl

/-! ### The orders on channels -/

/-- A context that leaves FREE keeps its records (R14, R17). -/
theorem State.reports_fresh (s : State) (c : Chan) (x : Life) : (s.mapChan c (·.fresh x)).reports = s.reports :=
  s.reports_mapChan c fun _ l => by cases l <;> rfl

theorem State.reports_bindEffect (c : Chan) (x : Slot) (p : Fin 8) (tag : BitVec 14) (s : State) :
    (bindEffect c x p tag s).state.reports = s.reports := by
  have hfree : ∀ fixed, (s.bindFree c x fixed tag).reports = s.reports := fun fixed => by
    rw [State.bindFree, State.reports_fresh, State.bindSlot, State.reports_mapSlot]
  have hhalf : ∀ fixed h, (s.bindHalfR c x fixed h).reports = s.reports := fun fixed h => by
    simp [State.bindHalfR, State.bindSlot]
  unfold bindEffect
  dsimp only
  split
  · rfl
  · rfl
  · split
    · rfl
    · split
      · rfl
      · exact hfree _
  · split
    · rfl
    · split
      · rfl
      · split
        · rfl
        · exact hhalf _ _

theorem State.reports_attachEffect (c : Chan) (modeSet : BitVec 3) (requested : BitVec 2) (tag : BitVec 14) (s : State) :
    (attachEffect c modeSet requested tag s).state.reports = s.reports := by
  have hhalf : ∀ radio h, (s.attachHalfF c radio h).reports = s.reports := fun radio h => by simp [State.attachHalfF]
  unfold attachEffect
  dsimp only
  split
  · rfl
  · rfl
  · rfl
  · split
    · rfl
    · exact s.reports_fresh c _
  · split
    · rfl
    · split
      · rfl
      · exact hhalf _ _

theorem State.reports_releaseEffect (l : Line) (c : Chan) (s : State) :
    (releaseEffect l c s).state.reports = s.reports := by
  unfold releaseEffect
  split
  · rw [State.done, State.reports_settle, State.reports_releaseHalf]
  · rfl

theorem State.reports_handoverEffect (c : Chan) (s : State) : (handoverEffect c s).state.reports = s.reports := by
  unfold handoverEffect
  split
  · simp [State.done, State.primeAnew]
  · rfl

theorem State.reports_checkEffect (c : Chan) (s : State) : (checkEffect c s).state.reports = s.reports := by
  unfold checkEffect
  split
  · split
    · rfl
    · split
      · rfl
      · rw [State.done, State.startCheck, State.reports_mapSlot]
        exact s.reports_mapChan c fun _ l => by cases l <;> rfl
  · rfl

theorem State.reports_spliceEffect (a b : Chan) (s : State) : (spliceEffect a b s).state.reports = s.reports := by
  unfold spliceEffect
  split
  · split
    · rfl
    · simp [State.done, State.joinSplice, State.idleSlot]
  · rfl

theorem State.reports_unspliceEffect (c : Chan) (s : State) : (unspliceEffect c s).state.reports = s.reports := by
  unfold unspliceEffect
  split
  · simp [State.done]
  · rfl

/-! ### Orders that stage, read, clear and write -/

theorem State.reports_stageEffect (l : Line) (c : Chan) (i : Item) (v : BitVec 16) (s : State) :
    (stageEffect l c i v s).state.reports = s.reports := by
  unfold stageEffect
  dsimp only
  split
  · rfl
  · split
    · rfl
    · split
      · rfl
      · split
        · rfl
        · split
          · rfl
          · split
            · rfl
            · exact s.reports_mapLine l _

theorem State.reports_commitEffect (l : Line) (s : State) : (commitEffect l s).state.reports = s.reports := by
  have hreserve : ∀ row c, (s.reserveFor row c).reports = s.reports := fun row c => by
    unfold State.reserveFor
    split
    · exact s.reports_mapSlot _ _
    · rfl
  unfold commitEffect
  dsimp only
  split
  · rfl
  · split
    · rfl
    · split
      · rfl
      · split
        · exact (State.reports_mapLine _ l _).trans (hreserve _ _)
        · exact (State.reports_applyRow _ l false).trans (hreserve _ _)

theorem State.reports_cancelEffect (l : Line) (s : State) : (cancelEffect l s).state.reports = s.reports := by
  unfold cancelEffect
  split
  · rfl
  · exact s.reports_mapLine l _

theorem State.reports_readChannelEffect (l : Line) (c : Chan) (aspect : Fin 16) (s : State) :
    (readChannelEffect l c aspect s).state.reports = s.reports := by
  unfold readChannelEffect
  dsimp only
  split
  · exact s.reports_mapActive c _
  · split
    · rfl
    · split <;> rfl

/-- Kinds cleared from a record add none to it (R192). -/
theorem Channel.reported_of_clear {ch : Channel} {l k : Line} {kinds : BitVec 9}
    (h : (ch.setEvents l ((ch.events l).clear kinds)).reported k = true) : ch.reported k = true := by
  have hclear : ∀ e : EventRecord, (e.clear kinds).kinds.getLsbD Kind.activityChanged.bit = true →
      e.kinds.getLsbD Kind.activityChanged.bit = true := fun e he => by
    rw [EventRecord.clear, BitVec.getLsbD_and, Bool.and_eq_true] at he
    exact he.1
  cases l <;> cases k
  · exact hclear _ h
  · exact h
  · exact h
  · exact hclear _ h

theorem State.noNewReport_clearEventsEffect (l : Line) (c : Chan) (kinds : BitVec 9) (s : State) :
    s.noNewReport (clearEventsEffect l c kinds s).state := by
  intro d k hd
  rw [clearEventsEffect, State.reports_settle, State.reports, State.chan_mapChan] at hd
  split at hd
  · exact Channel.reported_of_clear hd
  · exact hd

theorem State.reports_selectItemEffect (l : Line) (sp : Space) (index : Fin 128) (s : State) :
    (selectItemEffect l sp index s).state.reports = s.reports := by
  unfold selectItemEffect
  split
  · rfl
  · exact s.reports_mapLine l _

theorem State.reports_writeItemEffect (l : Line) (v : BitVec 16) (s : State) :
    (writeItemEffect l v s).state.reports = s.reports := by
  have hstored : ∀ (t : State) clamped value, (t.stored l clamped value).state.reports = t.reports := fun t _ _ =>
    t.reports_mapLine l _
  have hsettings : ∀ f, (s.setSettings l f).reports = s.reports := fun f => s.reports_mapLine l _
  unfold writeItemEffect State.writeAt
  split
  · rfl
  · split
    · exact hstored _ _ _
    · unfold State.writePattern
      dsimp only
      split
      · rfl
      · split <;> exact hstored _ _ _
    · unfold State.writeSetting
      split
      · exact (hstored _ _ _).trans ((State.reports_mapLine _ l _).trans (hsettings _))
      · split
        · exact (hstored _ _ _).trans (hsettings _)
        · rfl
      · exact (hstored _ _ _).trans (hsettings _)
      · exact (hstored _ _ _).trans (hsettings _)
    · rfl

theorem State.reports_restartEffect (l : Line) (s : State) : (restartEffect l s).state.reports = s.reports := by
  unfold restartEffect
  dsimp only
  split
  · rfl
  · split
    · rfl
    · exact (State.reports_recordLine _ _ _).trans (s.reports_mapLine l _)

/-! ### Timers and events that are due -/

theorem State.reports_halfWaitExpiry (s : State) (c : Chan) : (s.halfWaitExpiry c).reports = s.reports := by
  unfold State.halfWaitExpiry
  split
  · simp
  · rfl

theorem State.reports_watchdogExpiry (s : State) (l : Line) : (s.watchdogExpiry l).reports = s.reports := by
  have hrelease : ∀ t : State, (t.watchdogRelease l).reports = t.reports := fun t => by
    rw [State.watchdogRelease, State.reports_mapLine, State.reports_foldl _ _ fun s c => s.reports_releaseHalf l c,
      State.reports_severAll]
  unfold State.watchdogExpiry
  dsimp only
  rw [State.reports_settle]
  split
  · rw [hrelease, State.reports_recordLine, State.reports_mapLine]
  · rw [State.reports_recordLine, State.reports_mapLine]

theorem State.reports_takeInstant (s : State) (c : Chan) : (s.takeInstant c).reports = s.reports := by
  unfold State.takeInstant
  split
  · split
    · simp
    · dsimp only
      split <;> simp
  · rfl

theorem State.reports_spoil (s : State) (l : Line) : (s.spoil l).reports = s.reports :=
  State.reports_ifDue (s.reports_mapLine l _) _

theorem State.reports_noReply (s : State) (l : Line) : (s.noReply l).reports = s.reports :=
  State.reports_ifDue (s.reports_mapLine l _) _

/-! ### The boundary (R120) -/

/-- The activity reported on a channel leaves the other channels' reports. -/
theorem State.reports_reportActivity_ne (s : State) {c d : Chan} (h : c ≠ d) (a : Active) (l : Line) :
    (s.reportActivity c a).reports d l = s.reports d l := by
  rw [State.reports, State.chan_reportActivity, if_neg h, State.reports]

/-- A boundary reports on its own channel alone. -/
theorem State.reports_takeBoundary_ne (s : State) {c d : Chan} (h : c ≠ d) (l : Line) :
    (s.takeBoundary c).reports d l = s.reports d l := by
  unfold State.takeBoundary
  dsimp only
  split
  · rw [State.reports_settle, State.boundary, State.reports_reportActivity_ne _ h]
    split <;> simp
  · simp

/-- What a command other than a boundary leaves of the reports (R120). -/
theorem State.noNewReport_exec (s : State) (i : Instr) (hi : ∀ c, i ≠ .downlinkBoundary c) :
    ∃ t, exec i s = .next t ∧ s.noNewReport t := by
  have horder : ∀ {o owned broadcast ch} {body : State → Effect}, (∀ t, (body t).state.reports = t.reports) →
      s.noNewReport (takeOrder o owned broadcast ch body s) := fun hbody =>
    s.noNewReport_takeOrder _ _ _ _ fun t => State.noNewReport_of_eq (hbody t)
  have hkept : ∀ {t : State}, t.reports = s.reports → s.noNewReport t := State.noNewReport_of_eq
  cases i with
  | powerOn => exact ⟨_, rfl, State.noNewReport_of_reset s.chan_powerOn s⟩
  | resetLow => exact ⟨_, rfl, State.noNewReport_of_reset s.chan_powerOn s⟩
  | resetRise =>
    refine ⟨_, rfl, ?_⟩
    split
    · exact State.noNewReport_of_reset s.chan_powerOn s
    · exact s.noNewReport_refl
  | ready strapF strapR =>
    refine ⟨_, rfl, hkept (State.reports_ifDue ?_ _)⟩
    exact State.reports_of_chan fun _ => rfl
  | frameSync incoming =>
    refine ⟨_, rfl, hkept ?_⟩
    split
    · rfl
    · refine State.reports_ifDue ?_ _
      exact State.reports_of_chan fun _ => rfl
    · exact State.reports_ifDue (s.reports_frameSync incoming) _
  | continuityTimeout c =>
    refine ⟨_, rfl, hkept ?_⟩
    split
    · refine State.reports_ifDue ?_ _
      rw [State.reports_settle, State.reports_record _ _ _ (by decide)]
      exact s.reports_mapChan c fun _ l => by cases l <;> rfl
    · rfl
  | downlinkBoundary c => exact absurd rfl (hi c)
  | playoutInstant c => exact ⟨_, rfl, hkept (State.reports_ifDue (s.reports_takeInstant c) _)⟩
  | windowStartDeadline c =>
    refine ⟨_, rfl, hkept ?_⟩
    split
    · refine State.reports_ifDue ?_ _
      rw [State.reports_settle, State.reports_closeWindow]
    · rfl
  | jobStartDeadline c kind =>
    refine ⟨_, rfl, hkept ?_⟩
    cases kind with
    | encode => exact s.reports_encodeDeadline c
    | decode => exact s.reports_decodeDeadline c
  | jobCompletion e =>
    refine ⟨_, rfl, hkept ?_⟩
    split
    · refine State.reports_ifDue ?_ _
      rw [State.reports_complete]
      rfl
    · rfl
  | recordArrival octets =>
    refine ⟨_, rfl, hkept (State.reports_ifDue ?_ _)⟩
    rw [State.reports_arrival]
    rfl
  | recordTransmitted =>
    refine ⟨_, rfl, hkept ?_⟩
    split
    · refine State.reports_ifDue ?_ _
      rw [State.reports_startTransmit]
      rfl
    · rfl
  | halfWaitExpiry c => exact ⟨_, rfl, hkept (State.reports_ifDue (s.reports_halfWaitExpiry c) _)⟩
  | watchdogExpiry l => exact ⟨_, rfl, hkept (State.reports_ifDue (s.reports_watchdogExpiry l) _)⟩
  | restartLapse l =>
    exact ⟨_, rfl, hkept (State.reports_ifDue ((State.reports_recordLine _ l _).trans (s.reports_mapLine l _)) _)⟩
  | earlySelectRise l => exact ⟨_, rfl, hkept ((State.reports_noReply _ l).trans (s.reports_spoil l))⟩
  | orderCrcMismatch l => exact ⟨_, rfl, hkept ((State.reports_noReply _ l).trans (s.reports_spoil l))⟩
  | extraClock l => exact ⟨_, rfl, hkept (s.reports_spoil l)⟩
  | nop o => exact ⟨_, rfl, horder fun _ => rfl⟩
  | bind o x p tag => exact ⟨_, rfl, horder (State.reports_bindEffect _ x p tag)⟩
  | attach o modeSet requested tag => exact ⟨_, rfl, horder (State.reports_attachEffect _ modeSet requested tag)⟩
  | release o => exact ⟨_, rfl, horder (State.reports_releaseEffect _ _)⟩
  | handover o => exact ⟨_, rfl, horder (State.reports_handoverEffect _)⟩
  | check o => exact ⟨_, rfl, horder (State.reports_checkEffect _)⟩
  | splice o partner => exact ⟨_, rfl, horder (State.reports_spliceEffect _ partner)⟩
  | unsplice o => exact ⟨_, rfl, horder (State.reports_unspliceEffect _)⟩
  | stage o item v => exact ⟨_, rfl, horder (State.reports_stageEffect _ _ item v)⟩
  | commit o => exact ⟨_, rfl, horder (State.reports_commitEffect _)⟩
  | cancel o => exact ⟨_, rfl, horder (State.reports_cancelEffect _)⟩
  | readChannel o aspect => exact ⟨_, rfl, horder (State.reports_readChannelEffect _ _ aspect)⟩
  | nextEvent o => exact ⟨_, rfl, horder fun _ => rfl⟩
  | clearEvents o kinds =>
    exact ⟨_, rfl, s.noNewReport_takeOrder _ _ _ _ (State.noNewReport_clearEventsEffect _ _ kinds)⟩
  | clearLineEvents o kinds => exact ⟨_, rfl, horder fun t => t.reports_mapLine _ _⟩
  | selectItem o sp index => exact ⟨_, rfl, horder (State.reports_selectItemEffect _ sp index)⟩
  | readItem o => exact ⟨_, rfl, horder fun t => t.reports_mapLine _ _⟩
  | writeItem o v => exact ⟨_, rfl, horder (State.reports_writeItemEffect _ v)⟩
  | engineServiceOut o e => exact ⟨_, rfl, horder fun _ => rfl⟩
  | engineServiceIn o e => exact ⟨_, rfl, horder fun _ => State.reports_arbitrate _⟩
  | restart o => exact ⟨_, rfl, horder (State.reports_restartEffect _)⟩
  | restartExecution =>
    refine ⟨_, rfl, ?_⟩
    split
    · exact State.noNewReport_of_reset (s.chan_restarted _) s
    · exact s.noNewReport_refl
  | recordStart =>
    refine ⟨_, rfl, hkept (State.reports_ifDue ?_ _)⟩
    rfl
  | unknownVerb o code => exact ⟨_, rfl, horder fun _ => rfl⟩

end Sys2Proof.Machine
end

section
/-! SUPPORT. What the rows that apply at a boundary leave of the reported copies, and the statement about the reports of a
boundary, whatever rows are PENDING. -/

namespace Sys2Proof.Machine

/-! ### The reported copies (R120, R121) -/

/-- The reported activity copy for a line (R120). -/
def Active.copy (a : Active) : Line → Activity
  | .F => a.copyF
  | .R => a.copyR

/-- The reported activity copies for the F and the R line, present while ACTIVE (R12). -/
def Life.copies : Life → Option (Activity × Activity)
  | .active a => some (a.copyF, a.copyR)
  | _ => none

theorem Life.copies_eq_some {l : Life} {x y : Activity} (h : l.copies = some (x, y)) :
    ∃ a, l = .active a ∧ a.copyF = x ∧ a.copyR = y := by
  cases l with
  | active a =>
    obtain ⟨hF, hR⟩ := Prod.mk.inj (Option.some.inj h)
    exact ⟨a, rfl, hF, hR⟩
  | free | halfF h' | halfR h' => cases h

theorem Life.copies_mapFixed (l : Life) (f : FixedHalf → FixedHalf) : (l.mapFixed f).copies = l.copies := by
  cases l <;> rfl

theorem Life.copies_mapRadio (l : Life) (f : RadioHalf → RadioHalf) : (l.mapRadio f).copies = l.copies := by
  cases l <;> rfl

theorem Life.copies_rederived (l : Life) : l.rederived.copies = l.copies := by cases l <;> rfl

theorem Life.copies_applyItem (l : Life) (i : Item) (v : BitVec 16) : (l.applyItem i v).copies = l.copies := by
  cases i with
  | timeslot => rfl
  | gainToFixed | gainToRadio | quietThreshold => simp only [Life.applyItem, Life.copies_mapFixed]
  | mode | modeSet | align | dtx => simp only [Life.applyItem, Life.copies_mapRadio]

theorem State.copies_applySlot (s : State) (c : Chan) (pt : Bool) (p : Item × BitVec 16) :
    ((State.applySlot c pt s p).life c).copies = (s.life c).copies := by
  unfold State.applySlot
  split
  · cases hf : (s.life c).fixed? with
    | none => simp [State.moveTimeslot, hf]
    | some f =>
      by_cases hx : f.timeslot = Fin.ofNat 128 p.2.toNat
      · rw [← hx, State.moveTimeslot_own s c pt f hf]
      · rw [State.life_def, State.chan_moveTimeslot s c c pt f _ hf hx, if_pos rfl]
        simp only [Life.copies_mapFixed]
  · rw [State.life_def, State.chan_mapChan_self]
    exact Life.copies_applyItem _ _ _

theorem State.copies_applyPending (s : State) (l : Line) (c : Chan) (pt : Bool) :
    ((s.applyPending l c pt).life c).copies = (s.life c).copies := by
  cases hp : s.pendingOn l c with
  | false => rw [State.applyPending_of_not_pending hp]
  | true =>
    have hitems : (((s.line l).row.slots.foldl (State.applySlot c pt) s).life c).copies = (s.life c).copies :=
      foldl_keeps (fun s : State => (s.life c).copies) _ (fun s p => s.copies_applySlot c pt p) _ s
    rw [State.life_applyPending_of_pending hp, State.written]
    split
    · rw [State.life_def, State.chan_mapChan_self]
      exact (Life.copies_rederived _).trans hitems
    · exact hitems

/-- Rows that apply leave a channel ACTIVE with its reported copies. -/
theorem State.life_applyBoth {s : State} {c : Chan} {a : Active} (hl : s.life c = .active a) (pt : Bool) :
    ∃ a', (s.applyBoth c pt).life c = .active a' ∧ a'.copyF = a.copyF ∧ a'.copyR = a.copyR := by
  refine Life.copies_eq_some ?_
  rw [State.applyBoth, State.copies_applyPending, State.copies_applyPending, hl]
  rfl

/-- Rows that apply leave the settings of the Line Units. -/
theorem State.settings_applyBoth (s : State) (c : Chan) (pt : Bool) (l : Line) :
    ((s.applyBoth c pt).line l).settings = (s.line l).settings := by
  have hone : ∀ (t : State) k, ((t.applyPending k c pt).line l).settings = (t.line l).settings := fun t k => by
    rw [State.line_applyPending]
    split <;> rfl
  rw [State.applyBoth, hone, hone]

/-! ### The reports of a boundary (R120) -/

/-- The bit of a recorded kind: as it was, or set where the line's mask allows the kind. -/
theorem State.getLsbD_recordedFor (s : State) (l : Line) (k : Kind) (e : EventRecord) :
    (s.recordedFor l k e).kinds.getLsbD k.bit
      = (e.kinds.getLsbD k.bit || (s.line l).settings.eventMask.getLsbD k.bit) := by
  cases hmask : (s.line l).settings.eventMask.getLsbD k.bit with
  | false => simp [State.recordedFor, hmask]
  | true => rw [State.recordedFor_bit hmask, Bool.or_true]

/-- The activity reported on a channel: for each line whose copy differs from it and whose mask allows the kind. -/
theorem State.reports_reportActivity (s : State) (c : Chan) (a : Active) (l : Line) :
    (s.reportActivity c a).reports c l
      = (s.reports c l || ((s.line l).settings.eventMask.getLsbD Kind.activityChanged.bit
        && decide (a.copy l ≠ a.down.activity))) := by
  have hrecorded : ∀ (p : Prop) [Decidable p] (e : EventRecord),
      (if p then e else s.recordedFor l .activityChanged e).kinds.getLsbD Kind.activityChanged.bit
        = (e.kinds.getLsbD Kind.activityChanged.bit
          || ((s.line l).settings.eventMask.getLsbD Kind.activityChanged.bit && decide ¬p)) := fun p _ e => by
    by_cases hp : p
    · simp [hp]
    · simp [hp, State.getLsbD_recordedFor]
  rw [State.reports, State.chan_reportActivity, if_pos rfl]
  cases l
  · exact hrecorded (a.copyF = a.down.activity) _
  · exact hrecorded (a.copyR = a.down.activity) _

theorem State.life_reportActivity (s : State) (c d : Chan) (a : Active) : (s.reportActivity c a).life d = s.life d := by
  rw [State.life_def, State.chan_reportActivity]
  split <;> rfl

/-- The boundary of a channel once its rows have applied: the copies stay, and each line's report is by its copy and the
updated activity. -/
theorem State.boundary_reports (s : State) (c : Chan) (a : Active) :
    ∃ b, (s.boundary c a).life c = .active b ∧ b.copyF = a.copyF ∧ b.copyR = a.copyR
      ∧ ∀ l, (s.boundary c a).reports c l
        = (s.reports c l || ((s.line l).settings.eventMask.getLsbD Kind.activityChanged.bit
          && decide (a.copy l ≠ b.down.activity))) := by
  have hmoved : (s.setLife c (.active (afterBoundary s.time a))).life c = .active (afterBoundary s.time a) := by
    rw [State.life_def, State.chan_setLife_self]
  have hands := State.handsOn_boundary hmoved (item := boundaryItem c s.time a) fun i hi => by
    rw [State.time_of_device (State.device_setLife _ _ _)]
    exact boundaryItem_offerable hi
  obtain ⟨v, hv⟩ : ∃ v, v = (s.setLife c (.active (afterBoundary s.time a))).handOnward c (boundaryItem c s.time a) :=
    ⟨_, rfl⟩
  rw [← hv] at hands
  have hboundary : s.boundary c a = v.reportActivity c (afterBoundary s.time a) := by
    rw [hv]
    rfl
  have hsettings : ∀ l, (v.line l).settings = (s.line l).settings := fun l => by
    rw [(hands.line l).settings_eq, State.line_setLife]
  have hreports : v.reports = s.reports := by
    rw [hv]
    unfold State.handOnward
    split <;> simp
  have hlife : (s.boundary c a).life c = v.life c := by rw [hboundary, State.life_reportActivity]
  refine ⟨_, hlife.trans hands.life, rfl, rfl, fun l => ?_⟩
  rw [hboundary, State.reports_reportActivity, hreports, hsettings]
  rfl

theorem State.boundaryDue_iff (s : State) (c : Chan) :
    s.boundaryDue c = true ↔ ∃ a n, s.life c = .active a ∧ a.partner = none ∧ a.down.boundary = some n ∧ n ≤ s.time := by
  constructor
  · intro h
    unfold State.boundaryDue at h
    split at h
    · next a hl =>
      rw [Bool.and_eq_true, decide_eq_true_eq, State.reached?, Option.any_eq_true] at h
      obtain ⟨hp, n, hb, hn⟩ := h
      exact ⟨a, n, hl, hp, hb, of_decide_eq_true hn⟩
    · cases h
  · rintro ⟨a, n, hl, hp, hb, hn⟩
    simp [State.boundaryDue, hl, hp, hb, State.reached?, State.reached, hn]

theorem exec_downlinkBoundary_due {s : State} {c : Chan} (h : s.boundaryDue c = true) :
    exec (.downlinkBoundary c) s = .next (s.takeBoundary c) := by
  show execDownlinkBoundary c s = _
  rw [execDownlinkBoundary, if_pos h]

theorem exec_downlinkBoundary_not_due {s : State} {c : Chan} (h : ¬s.boundaryDue c = true) :
    exec (.downlinkBoundary c) s = .next s := by
  show execDownlinkBoundary c s = _
  rw [execDownlinkBoundary, if_neg h]

/-- A command after which a record holds ACTIVITY_CHANGED anew is the boundary of that channel. -/
theorem reports_of_exec {i : Instr} {s t : State} {c : Chan} {l : Line} (hexec : exec i s = .next t)
    (ht : t.reports c l = true) :
    s.reports c l = true ∨ (i = .downlinkBoundary c ∧ ∃ a, s.life c = .active a ∧ a.partner = none) := by
  by_cases hi : ∃ d, i = .downlinkBoundary d
  · obtain ⟨d, rfl⟩ := hi
    by_cases hdue : s.boundaryDue d = true
    · rw [exec_downlinkBoundary_due hdue] at hexec
      cases hexec
      by_cases hd : d = c
      · obtain ⟨a, n, hl, hp, -, -⟩ := (s.boundaryDue_iff d).mp hdue
        exact .inr ⟨by rw [hd], a, hd ▸ hl, hp⟩
      · rw [s.reports_takeBoundary_ne hd] at ht
        exact .inl ht
    · rw [exec_downlinkBoundary_not_due hdue] at hexec
      cases hexec
      exact .inl ht
  · obtain ⟨u, hu, hno⟩ := s.noNewReport_exec i fun d hd => hi ⟨d, hd⟩
    rw [hexec] at hu
    cases hu
    exact .inl (hno c l ht)

/-- Settles O9: the boundary's report from the copies that the rows leave; no other command reports. -/
theorem boundaryReportsTheActivity : Obligations.BoundaryReportsTheActivity := by
  refine ⟨fun c s a n hl hp hb hn => ?_, fun i s t c l => reports_of_exec⟩
  obtain ⟨a', hl', hcopyF, hcopyR⟩ := State.life_applyBoth hl true
  obtain ⟨b, hlife, hF, hR, hreports⟩ := (s.applyBoth c true).boundary_reports c a'
  have hcopy : ∀ l, a'.copy l = a.copy l := fun l => by
    cases l
    · exact hcopyF
    · exact hcopyR
  have htaken : s.takeBoundary c = ((s.applyBoth c true).boundary c a').settle := by simp only [State.takeBoundary, hl']
  have hdue := (s.boundaryDue_iff c).mpr ⟨a, n, hl, hp, hb, hn⟩
  refine ⟨_, b, exec_downlinkBoundary_due hdue, ?_, hF.trans hcopyF, hR.trans hcopyR, fun l => ?_⟩
  · rw [htaken]
    exact hlife
  · have hl := hreports l
    rw [State.reports_applyBoth, State.settings_applyBoth, hcopy] at hl
    rw [htaken]
    cases l
    · exact hl
    · exact hl

end Sys2Proof.Machine
end

section
/-! SUPPORT. The Codec Engine Pool as its rules count it: the Job Queue in the order of its keys, the jobs of a channel and a
kind, and the arbiter, which leaves no engine FREE beside a queued job. -/

namespace Sys2Proof.Machine

/-! ### The order of the Job Queue (R126) -/

/-- The key of a job as one number: start deadline, channel number, DECODE before ENCODE. -/
def Job.key (j : Job) : Nat :=
  256 * j.deadline + 2 * j.channel.val + if j.kind = .encode then 1 else 0

/-- A job precedes another where its key is the smaller. -/
theorem Job.precedes_eq_key (a b : Job) : a.precedes b = decide (a.key < b.key) := by
  have ha := a.channel.isLt
  have hb := b.channel.isLt
  rw [Bool.eq_iff_iff]
  simp only [Job.precedes, Bool.or_eq_true, Bool.and_eq_true, decide_eq_true_eq, Fin.lt_def, Fin.ext_iff]
  simp only [Job.key]
  cases a.kind <;> cases b.kind <;> simp only [reduceCtorEq, and_true, and_false, or_false, if_true, if_false] <;> omega

theorem State.jobsOrdered_iff (s : State) : s.jobsOrdered ↔ s.jobs.Pairwise fun a b => a.key ≤ b.key := by
  simp only [State.jobsOrdered, Job.precedes_eq_key, decide_eq_false_iff_not, Nat.not_lt]

/-- A job placed in an ordered queue leaves it ordered. -/
theorem pairwise_insertJob (j : Job) {l : List Job} (h : l.Pairwise fun a b => a.key ≤ b.key) :
    (insertJob j l).Pairwise fun a b => a.key ≤ b.key := by
  obtain ⟨ahead, behind, rfl, hafter, hahead, hhead⟩ := joins_insertJob j l
  simp only [Job.precedes_eq_key, decide_eq_false_iff_not, decide_eq_true_eq, Nat.not_lt] at hahead hhead
  obtain ⟨hpa, hpb, hcross⟩ := List.pairwise_append.mp h
  have hbehind : ∀ k ∈ behind, j.key ≤ k.key := by
    cases behind with
    | nil => simp
    | cons first rest =>
      have hfirst := hhead first rfl
      intro k hk
      rcases List.mem_cons.mp hk with rfl | hk
      · exact hfirst.le
      · exact hfirst.le.trans ((List.pairwise_cons.mp hpb).1 k hk)
  rw [hafter]
  refine List.pairwise_append.mpr ⟨hpa, List.pairwise_cons.mpr ⟨hbehind, hpb⟩, fun a ha b hb => ?_⟩
  rcases List.mem_cons.mp hb with rfl | hb
  · exact hahead a ha
  · exact hcross a ha b hb

/-- A job placed in a queue is the only one added. -/
theorem insertJob_perm (j : Job) (l : List Job) : (insertJob j l).Perm (j :: l) := by
  obtain ⟨ahead, behind, rfl, hafter, -, -⟩ := joins_insertJob j l
  rw [hafter]
  exact List.perm_middle

/-! ### The jobs of a channel and a kind (R125) -/

/-- Whether an engine runs a job of a channel and kind. -/
def Engine.runs (e : Engine) (c : Chan) (k : JobKind) : Bool := e.job?.any (·.isOf c k)

/-- How many jobs of a channel and kind are in the pool, queued or running. -/
def State.jobCount (s : State) (c : Chan) (k : JobKind) : Nat :=
  s.jobs.countP (·.isOf c k) + s.engines.toList.countP (·.runs c k)

theorem State.oneJobEach_iff (s : State) : s.oneJobEach ↔ ∀ c k, s.jobCount c k ≤ 1 := Iff.rfl

theorem State.inPool_eq_false_iff (s : State) (c : Chan) (k : JobKind) :
    s.inPool c k = false ↔ s.jobCount c k = 0 := by
  simp only [State.inPool, State.queued, State.running, State.jobCount, Bool.or_eq_false_iff, List.any_eq_false,
    Nat.add_eq_zero_iff, List.countP_eq_zero]
  rfl

theorem Job.isOf_self (j : Job) : j.isOf j.channel j.kind = true := by simp [Job.isOf]

theorem State.jobCount_insertJob (s : State) (j : Job) (c : Chan) (k : JobKind) :
    ({ s with jobs := insertJob j s.jobs } : State).jobCount c k = s.jobCount c k + (j.isOf c k).toNat := by
  simp only [State.jobCount, (insertJob_perm j s.jobs).countP_eq, List.countP_cons]
  cases j.isOf c k <;> simp; omega

/-- An engine given another state counts for its old one no more. -/
theorem countP_runs_set (engines : Vector Engine 4) (e : Fin 4) (g : Engine) (c : Chan) (k : JobKind) :
    (engines.set e.val g).toList.countP (·.runs c k) + (engines[e.val].runs c k).toNat
      = engines.toList.countP (·.runs c k) + (g.runs c k).toNat := by
  have hlt : e.val < engines.toList.length := by simp
  have hle : (engines[e.val].runs c k).toNat ≤ engines.toList.countP (·.runs c k) := by
    cases hr : engines[e.val].runs c k with
    | false => exact Nat.zero_le _
    | true => exact List.countP_pos_iff.mpr ⟨_, by simp, hr⟩
  rw [Vector.toList_set, List.countP_set hlt]
  simp only [Vector.getElem_toList]
  revert hle
  cases engines[e.val].runs c k <;> cases g.runs c k <;> simp only [Bool.toNat_true, Bool.toNat_false, if_true,
    Bool.false_eq_true, if_false] <;> omega

/-- A withdrawal raises no count. -/
theorem State.jobCount_unqueue_le (s : State) (d c : Chan) (q k : JobKind) :
    (s.unqueue d q).jobCount c k ≤ s.jobCount c k :=
  Nat.add_le_add_right ((List.filter_sublist).countP_le) _

/-- The only job of a channel and kind withdrawn from the queue leaves the pool without one. -/
theorem State.inPool_unqueue {s : State} {c : Chan} {k : JobKind} (h : s.oneJobEach) (hq : s.queued c k = true) :
    (s.unqueue c k).inPool c k = false := by
  have hone := s.oneJobEach_iff.mp h c k
  have hpos : 0 < s.jobs.countP (·.isOf c k) := List.countP_pos_iff.mpr (by simpa [State.queued] using hq)
  have hnone : (s.unqueue c k).jobs.countP (·.isOf c k) = 0 := by simp [State.unqueue]
  rw [State.inPool_eq_false_iff]
  simp only [State.jobCount] at hone ⊢
  have hrun : s.engines.toList.countP (·.runs c k) = 0 := by omega
  rw [hnone, Nat.zero_add]
  exact hrun

/-- A late job is a queued one. -/
theorem State.queued_of_lateJob {s : State} {c : Chan} {k : JobKind} (hl : s.lateJob c k = true) : s.queued c k = true := by
  obtain ⟨j, hj, hlate⟩ := List.any_eq_true.mp hl
  exact List.any_eq_true.mpr ⟨j, hj, (Bool.and_eq_true_iff.mp hlate).1⟩

/-- Marking the running job of a channel and kind leaves it of that channel and kind. -/
theorem Engine.runs_mark (e : Engine) (p : Job → Bool) (c : Chan) (k : JobKind) :
    (e.mapJob fun j => if p j then { j with discard := true } else j).runs c k = e.runs c k := by
  have hmark : ∀ j : Job, (if p j then { j with discard := true } else j).isOf c k = j.isOf c k := fun j => by
    split <;> rfl
  cases e with
  | busy j _ | draining j _ => exact hmark j
  | free | out => rfl

theorem State.jobCount_abandonJob_le (s : State) (d c : Chan) (q k : JobKind) :
    (s.abandonJob d q).jobCount c k ≤ s.jobCount c k := by
  have hmarked : (s.abandonJob d q).jobCount c k = (s.unqueue d q).jobCount c k := by
    simp only [State.jobCount, State.abandonJob, Vector.toList_map, List.countP_map]
    congr 2
    funext e
    exact Engine.runs_mark e _ c k
  exact hmarked ▸ s.jobCount_unqueue_le d c q k

/-- A completed job is counted no more; every other count stays. -/
theorem State.jobCount_afterJob {s : State} {e : Fin 4} {j : Job} (hj : (s.engines[e.val]).job? = some j) (c : Chan)
    (k : JobKind) :
    ({ s with engines := s.engines.set e.val (s.engines[e.val]).afterJob } : State).jobCount c k + (j.isOf c k).toNat
      = s.jobCount c k := by
  have hset := countP_runs_set s.engines e (s.engines[e.val]).afterJob c k
  have hafter : (s.engines[e.val]).afterJob.runs c k = false := by cases s.engines[e.val] <;> rfl
  have hruns : (s.engines[e.val]).runs c k = j.isOf c k := by simp only [Engine.runs, hj, Option.any_some]
  rw [hafter, hruns] at hset
  simp only [State.jobCount]
  rw [Bool.toNat_false] at hset
  omega

/-! ### The arbiter (R128) -/

/-- All that a start of the head job can be: nothing, with no engine FREE or no job queued, or the head job on a FREE
engine. -/
theorem State.startHead_cases (s : State) :
    (s.arbiterOk ∧ s.startHead = s)
      ∨ ∃ j rest, ∃ e : Fin 4, ∃ ends, s.jobs = j :: rest ∧ s.engines[e.val] = .free
        ∧ s.startHead = { s with jobs := rest, engines := s.engines.set e.val (.busy j ends) } := by
  cases hj : s.jobs with
  | nil => exact .inl ⟨.inl hj, State.startHead_of_nil hj⟩
  | cons j rest =>
    by_cases hf : ∀ e : Fin 4, s.engines[e.val] ≠ .free
    · exact .inl ⟨.inr hf, State.startHead_of_full hf⟩
    · obtain ⟨e, he, hlowest⟩ := State.exists_lowest_free (by simpa using hf)
      refine .inr ⟨j, rest, e, s.clock + Speech.jobClocks j.mode, rfl, he, ?_⟩
      rw [State.startHead, hj, State.freeEngine_eq_some he hlowest]

/-- A start moves a job from the queue to an engine. -/
@[simp] theorem State.jobCount_startHead (s : State) (c : Chan) (k : JobKind) :
    s.startHead.jobCount c k = s.jobCount c k := by
  rcases s.startHead_cases with ⟨-, hs⟩ | ⟨j, rest, e, ends, hj, he, hs⟩
  · rw [hs]
  · have hset := countP_runs_set s.engines e (.busy j ends) c k
    have hfree : (s.engines[e.val]).runs c k = false := by rw [he]; rfl
    have hbusy : (Engine.busy j ends).runs c k = j.isOf c k := rfl
    rw [hfree, hbusy] at hset
    rw [hs]
    simp only [State.jobCount, hj, List.countP_cons]
    cases h : j.isOf c k <;> simp [h] at hset ⊢ <;> omega

@[simp] theorem State.jobCount_arbitrate (s : State) (c : Chan) (k : JobKind) :
    s.arbitrate.jobCount c k = s.jobCount c k := by
  simp [State.arbitrate]

/-- How many engines are FREE. -/
def State.freeCount (s : State) : Nat := s.engines.toList.countP (· = .free)

/-- Each start takes one FREE engine, until none is FREE or no job is queued. -/
theorem State.arbiterOk_startHeads (n : Nat) {s : State} (h : s.freeCount ≤ n) : (State.startHead^[n] s).arbiterOk := by
  induction n generalizing s with
  | zero =>
    refine .inr fun e he => ?_
    have hnone := List.countP_eq_zero.mp (Nat.le_zero.mp h) s.engines[e.val] (by simp)
    exact hnone (by simpa using he)
  | succ n ih =>
    rw [Function.iterate_succ_apply]
    rcases s.startHead_cases with ⟨hok, hs⟩ | ⟨j, rest, e, ends, -, he, hs⟩
    · rw [hs, Function.iterate_fixed hs]
      exact hok
    · have hlt : e.val < s.engines.toList.length := by simp
      have hcount : s.startHead.freeCount = s.freeCount - 1 := by
        simp [hs, State.freeCount, Vector.toList_set, List.countP_set hlt, he]
      exact ih (by omega)

/-- The arbiter leaves no engine FREE beside a queued job: four engines can be FREE, and it starts four jobs. -/
theorem State.arbiterOk_arbitrate (s : State) : s.arbitrate.arbiterOk :=
  State.arbiterOk_startHeads 4 (List.countP_le_length.trans (by simp))

/-- Where no engine is FREE beside a queued job the arbiter does nothing. -/
theorem State.arbitrate_of_arbiterOk {s : State} (h : s.arbiterOk) : s.arbitrate = s :=
  h.elim State.arbitrate_of_nil State.arbitrate_of_full

theorem State.jobsOrdered_startHead {s : State} (h : s.jobsOrdered) : s.startHead.jobsOrdered := by
  rcases s.startHead_cases with ⟨-, hs⟩ | ⟨j, rest, e, ends, hj, -, hs⟩
  · rwa [hs]
  · rw [State.jobsOrdered, hj] at h
    rw [hs]
    exact (List.pairwise_cons.mp h).2

theorem State.jobsOrdered_arbitrate {s : State} (h : s.jobsOrdered) : s.arbitrate.jobsOrdered :=
  State.jobsOrdered_startHead (State.jobsOrdered_startHead (State.jobsOrdered_startHead (State.jobsOrdered_startHead h)))

end Sys2Proof.Machine
end

section
/-! SUPPORT. What this family of relations sees of the part, the pool and the transmit path; and the operations of the
streams, which keep both queues served and ordered. -/

namespace Sys2Proof.Machine

/-! ### The relations -/

/-- All that the relations see of the part: the Codec Engine Pool and the transmit path. -/
def State.traffic (s : State) : (Vector Engine 4 × List Job) × (List Record × Option (Record × Nat)) := (s.pool, s.link)

/-- The invariant of this family. Within a completion an engine may have been left FREE beside a queued job, until the
arbiter acts: `freed` says whether that is so (R128, R129). -/
structure State.servedOk (s : State) (freed : Prop) : Prop where
  arbiter  : freed ∨ s.arbiterOk
  ordered  : s.jobsOrdered
  single   : s.oneJobEach
  transmit : s.transmitOk

theorem State.servedOk_iff (s : State) :
    s.servedOk False ↔ s.arbiterOk ∧ s.jobsOrdered ∧ s.oneJobEach ∧ s.transmitOk :=
  ⟨fun ⟨ha, ho, hs, ht⟩ => ⟨ha.resolve_left id, ho, hs, ht⟩, fun ⟨ha, ho, hs, ht⟩ => ⟨.inr ha, ho, hs, ht⟩⟩

theorem State.transmitOk.of_link {s t : State} (h : s.transmitOk) (hl : t.link = s.link) : t.transmitOk := by
  obtain ⟨htransmit, hsending⟩ := Prod.mk.inj hl
  simpa only [State.transmitOk, htransmit, hsending] using h

/-- An idle transmitter takes the head of the Transmit Queue, so that none waits before it (R78). -/
theorem State.transmitOk_startTransmit {s : State} (h : s.transmit.length ≤ 32) : s.startTransmit.transmitOk := by
  unfold State.startTransmit
  split
  · next r rest _ hq =>
    rw [hq] at h
    exact ⟨(Nat.le_succ _).trans h, nofun⟩
  · next hwaits =>
    refine ⟨h, fun hs => ?_⟩
    cases hq : s.transmit with
    | nil => rfl
    | cons r rest => exact (hwaits r rest hs hq).elim

/-- A record is sent at once, appended below 32, or dropped (R76, R77). -/
theorem State.transmitOk_offerRecord {s : State} (h : s.transmitOk) (r : Record) : (s.offerRecord r).transmitOk := by
  obtain ⟨hsent, happended, hdropped⟩ := s.recordOffered_offerRecord r
  by_cases hfull : 32 ≤ s.transmit.length
  · exact h.of_link (hdropped hfull)
  · by_cases hidle : s.sending = none
    · obtain ⟨hempty, hsending⟩ := hsent (h.2 hidle) hidle
      exact ⟨by simp [hempty], by simp [hsending]⟩
    · obtain ⟨hqueue, hsending⟩ := happended hidle (by omega)
      exact ⟨by rw [hqueue, List.length_append, List.length_singleton]; omega, fun hn => absurd (hsending ▸ hn) hidle⟩

section Operations

variable {s : State} {freed : Prop} (h : s.servedOk freed)
include h

/-- An operation that leaves the pool, and of the transmit path what it must be. -/
theorem State.servedOk.of_pool {t : State} (hp : t.pool = s.pool) (ht : t.transmitOk) : t.servedOk freed := by
  obtain ⟨hengines, hjobs⟩ := Prod.mk.inj hp
  refine ⟨?_, ?_, ?_, ht⟩
  · simpa only [State.arbiterOk, hengines, hjobs] using h.arbiter
  · simpa only [State.jobsOrdered, hjobs] using h.ordered
  · simpa only [State.oneJobEach, hengines, hjobs] using h.single

theorem State.servedOk.of_traffic {t : State} (ht : t.traffic = s.traffic) : t.servedOk freed := by
  obtain ⟨hp, hl⟩ := Prod.mk.inj ht
  exact h.of_pool hp (h.transmit.of_link hl)

theorem State.servedOk.settle : s.settle.servedOk freed := h.of_traffic rfl

theorem State.servedOk.mapActive (c : Chan) (f : Active → Active) : (s.mapActive c f).servedOk freed :=
  h.of_traffic (by simp [State.traffic])

theorem State.servedOk.setWindow (c : Chan) (w : WindowState) : (s.setWindow c w).servedOk freed :=
  h.mapActive c _

theorem State.servedOk.decodeMiss (c : Chan) : (s.decodeMiss c).servedOk freed :=
  h.of_traffic (by simp [State.traffic])

theorem State.servedOk.encodeMiss (c : Chan) : (s.encodeMiss c).servedOk freed :=
  h.of_traffic (by simp [State.traffic])

theorem State.servedOk.setHeld (c : Chan) (items : List Held) : (s.setHeld c items).servedOk freed :=
  h.mapActive c _

theorem State.servedOk.setUp (c : Chan) (up : UplinkFields) : (s.setUp c up).servedOk freed :=
  h.mapActive c _

theorem State.servedOk.count (c : Chan) (k : Counter) : (s.count c k).servedOk freed :=
  h.of_traffic (by simp [State.traffic])

theorem State.servedOk.offerRecord (r : Record) : (s.offerRecord r).servedOk freed :=
  h.of_pool (by simp) (State.transmitOk_offerRecord h.transmit r)

/-! ### The pool -/

/-- The arbiter serves the queue, whatever engine has been left FREE. -/
theorem State.servedOk.arbitrate {freed' : Prop} : s.arbitrate.servedOk freed' where
  arbiter := .inr s.arbiterOk_arbitrate
  ordered := State.jobsOrdered_arbitrate h.ordered
  single c k := (s.jobCount_arbitrate c k).trans_le (h.single c k)
  transmit := h.transmit.of_link (by simp)

theorem State.servedOk.unqueue (c : Chan) (k : JobKind) : (s.unqueue c k).servedOk freed where
  arbiter := h.arbiter.imp_right fun ha => ha.imp_left fun hj => by simp [State.unqueue, hj]
  ordered := List.Pairwise.filter _ h.ordered
  single d q := (s.jobCount_unqueue_le c d k q).trans (h.single d q)
  transmit := h.transmit.of_link (by simp)

/-- A job given up leaves the queue, or runs on marked: its engine stays as it is (R130, R132). -/
theorem State.servedOk.abandonJob (c : Chan) (k : JobKind) : (s.abandonJob c k).servedOk freed where
  arbiter := (h.unqueue c k).arbiter.imp_right fun ha => ha.imp_right fun hbusy e hfree => by
    refine hbusy e ?_
    simp only [State.abandonJob, Vector.getElem_map] at hfree
    revert hfree
    simp only [State.unqueue]
    cases s.engines[e.val] <;> simp [Engine.mapJob]
  ordered := (h.unqueue c k).ordered
  single d q := (s.jobCount_abandonJob_le c d k q).trans (h.single d q)
  transmit := h.transmit.of_link (by simp)

/-- A job joins the queue where the pool has none of its channel and kind; the arbiter has then to act. -/
theorem State.servedOk.joinQueue {j : Job} (hnew : s.inPool j.channel j.kind = false) :
    ({ s with jobs := insertJob j s.jobs } : State).servedOk True where
  arbiter := .inl trivial
  ordered := (State.jobsOrdered_iff _).mpr (pairwise_insertJob j ((State.jobsOrdered_iff s).mp h.ordered))
  single c k := by
    refine (s.jobCount_insertJob j c k).trans_le ?_
    by_cases hof : j.isOf c k = true
    · obtain ⟨rfl, rfl⟩ : j.channel = c ∧ j.kind = k := by simpa [Job.isOf] using hof
      rw [(s.inPool_eq_false_iff _ _).mp hnew, hof]
      exact le_rfl
    · rw [Bool.not_eq_true] at hof
      rw [hof]
      exact h.single c k
  transmit := h.transmit

/-- A job offered that is withdrawn in the offer is not in the pool afterwards (R131). -/
theorem State.servedOk.offerJob {j : Job} (hnew : s.inPool j.channel j.kind = false) :
    (s.offerJob j).1.servedOk freed
      ∧ ((s.offerJob j).2 = true → (s.offerJob j).1.inPool j.channel j.kind = false) := by
  have hjoined : ({ s with jobs := insertJob j s.jobs } : State).arbitrate.servedOk freed :=
    (h.joinQueue hnew).arbitrate
  unfold State.offerJob
  split
  · exact ⟨h, fun _ => hnew⟩
  · dsimp only
    split
    · next hdue =>
      have hqueued := (Bool.and_eq_true_iff.mp hdue).2
      exact ⟨hjoined.unqueue _ _, fun _ => State.inPool_unqueue hjoined.single hqueued⟩
    · exact ⟨hjoined, nofun⟩

theorem State.servedOk.offerEncode {c : Chan} (hnew : s.inPool c .encode = false) (e : EncodeWork) (deadline : Nat) :
    (s.offerEncode c e deadline).1.servedOk freed
      ∧ ((s.offerEncode c e deadline).2 = true → (s.offerEncode c e deadline).1.inPool c .encode = false) := by
  unfold State.offerEncode
  split
  · exact h.offerJob hnew
  · exact ⟨h, nofun⟩

/-! ### Held items (R117, R160) -/

/-- Items are released while the pool has no ENCODE of the channel: an offered job that stays ends the release. -/
theorem State.servedOk.releaseItems {c : Chan} (hnew : s.inPool c .encode = false) (items : List Held) :
    (State.releaseItems c items s).servedOk freed := by
  induction items generalizing s with
  | nil => exact h.setHeld c []
  | cons i rest ih =>
    cases i with
    | record r => exact ih (h.offerRecord r) ((State.inPool_of_pool (by simp) c .encode).trans hnew)
    | job e deadline =>
      obtain ⟨hoffered, hwithdrawn⟩ := h.offerEncode hnew e deadline
      rw [State.releaseItems]
      split
      · next t ht =>
        rw [ht] at hoffered hwithdrawn
        exact ih (hoffered.encodeMiss c) ((State.inPool_of_pool (by simp) c .encode).trans (hwithdrawn rfl))
      · next t ht =>
        rw [ht] at hoffered
        exact hoffered.setHeld c rest

theorem State.servedOk.releaseHeld {c : Chan} (hnew : s.inPool c .encode = false) : (s.releaseHeld c).servedOk freed :=
  h.releaseItems hnew _

theorem State.servedOk.handOn (c : Chan) (i : Held) : (s.handOn c i).servedOk freed := by
  unfold State.handOn
  split
  · exact h.setHeld c _
  · next hfree =>
    rw [Bool.or_eq_true, not_or, Bool.not_eq_true] at hfree
    exact h.releaseItems hfree.1 [i]

/-! ### The frame of a decode window -/

/-- A DECODE is offered only where the pool has none of its channel (R96). -/
theorem State.servedOk.offerDecode (c : Chan) (f : SpeechFrame) (deadline : Nat) :
    (s.offerDecode c f deadline).servedOk freed := by
  unfold State.offerDecode
  split
  · exact h.setWindow c _
  · next hfree =>
    have hnew : (s.setWindow c (.decoding f false)).inPool c .decode = false :=
      (State.inPool_of_pool (s.pool_setWindow c _) c .decode).trans (by simpa using hfree)
    have hoffered := ((h.setWindow c (.decoding f false)).offerJob
      (j := { channel := c, deadline, work := .decode f, discard := false }) hnew).1
    split
    · next t ht =>
      rw [ht] at hoffered
      exact hoffered.decodeMiss c
    · next t ht =>
      rw [ht] at hoffered
      exact hoffered

theorem State.servedOk.takeFrame (c : Chan) (f : Frame) (deadline : Nat) : (s.takeFrame c f deadline).servedOk freed := by
  cases f with
  | quiet n level => exact h.setWindow c _
  | speech f =>
    rw [State.takeFrame]
    split
    · split
      · exact h.setWindow c _
      · exact h.offerDecode c f deadline
    · exact h.offerDecode c f deadline

theorem State.servedOk.openWindow (c : Chan) (up : UplinkFields) (comfort : Bool) (expected : BitVec 8) :
    (s.openWindow c up comfort expected).servedOk freed := by
  unfold State.openWindow
  dsimp only
  split
  · exact (h.setUp c _).takeFrame c _ _
  · exact h.setUp c _

/-! ### Arrivals -/

theorem State.servedOk.classify (c : Chan) (a : Active) (f : Frame) : (s.classify c a f).servedOk freed := by
  have hc := s.classify_classified c a f
  generalize s.classify c a f = t at hc ⊢
  cases hc with
  | first _ count _ => exact (h.setUp c _).count c _
  | atWindow _ w _ =>
    unfold State.windowArrival
    split
    · exact (h.takeFrame c f _).count c _
    all_goals exact h.count c _
  | counted k => exact h.count c k
  | ahead r => exact h.of_traffic (by simp [State.traffic])
  | resync =>
    have habandoned := h.abandonJob c .decode
    exact habandoned.of_traffic (by simp [State.traffic, State.pool_resync])

theorem State.servedOk.arrival (octets : List Octet) : (s.arrival octets).servedOk freed := by
  unfold State.arrival
  dsimp only
  split
  · exact h.of_traffic rfl
  · split
    · split
      · exact (h.classify _ _ _).settle
      · exact h.count _ _
    · exact h.of_traffic rfl

/-! ### Playout instants -/

theorem State.servedOk.concealed (c : Chan) (a : Active) (lossRun : Nat) : (s.concealed c a lossRun).servedOk freed :=
  h.of_traffic (by simp [State.traffic])

theorem State.servedOk.playBlock (a : Active) (b : Block) : (s.playBlock a b).servedOk freed :=
  h.of_traffic (by simp [State.traffic])

theorem State.servedOk.advanceSequence (b : Chan) : (s.advanceSequence b).servedOk freed :=
  h.mapActive b _

theorem State.servedOk.primingInstant (c : Chan) (a : Active) (reference : Option (BitVec 8)) (count : Nat) :
    (s.primingInstant c a reference count).servedOk freed := by
  unfold State.primingInstant
  dsimp only
  split
  · split
    · exact h.openWindow c _ _ _
    · exact h.setUp c _
  · exact h.setUp c _

theorem State.servedOk.runningInstant (c : Chan) (a : Active) (comfort : Bool) (expected : BitVec 8) (w : Window) :
    (s.runningInstant c a comfort expected w).servedOk freed := by
  unfold State.runningInstant
  split
  · exact h
  · refine State.servedOk.openWindow ?_ c _ _ _
    split
    · exact (h.playBlock a _).concealed c a _
    · exact h.playBlock a _

theorem State.servedOk.plainInstant (c : Chan) (a : Active) : (s.plainInstant c a).servedOk freed := by
  unfold State.plainInstant
  split
  · exact (h.playBlock a _).primingInstant c a _ _
  · exact h.runningInstant c a _ _ _

theorem State.servedOk.sendToward (b : Chan) (target : Active) (sent : Sent) :
    (s.sendToward b target sent).servedOk freed := by
  cases sent with
  | nothing => exact h
  | record r => exact h.handOn b _
  | translation samples => exact h.handOn b _
  | missed => exact h.encodeMiss b

theorem State.servedOk.splicedInstant (c : Chan) (a : Active) (b : Chan) (target : Active) :
    (s.splicedInstant c a b target).servedOk freed := by
  unfold State.splicedInstant
  split
  · exact (h.advanceSequence b).primingInstant c a _ _
  · split
    · exact h
    · next sent _ _ _ =>
      have hsent := h.sendToward b target sent
      refine State.servedOk.openWindow (State.servedOk.advanceSequence ?_ b) c _ _ _
      split
      · exact hsent.concealed c a _
      · exact hsent

theorem State.servedOk.applyBoth (c : Chan) (atPoint : Bool) : (s.applyBoth c atPoint).servedOk freed :=
  h.of_traffic (by simp [State.traffic])

theorem State.servedOk.takeInstant (c : Chan) : (s.takeInstant c).servedOk freed := by
  unfold State.takeInstant
  split
  · split
    · exact (h.plainInstant c _).settle
    · next b _ =>
      dsimp only
      split
      · exact ((h.applyBoth b true).splicedInstant c _ b _).settle
      · exact (h.applyBoth b true).settle
  · exact h

/-! ### Boundaries -/

theorem State.servedOk.reportActivity (c : Chan) (a : Active) : (s.reportActivity c a).servedOk freed :=
  h.of_traffic (by simp [State.traffic])

theorem State.servedOk.boundary (c : Chan) (a : Active) : (s.boundary c a).servedOk freed := by
  have hafter : (s.setLife c (.active (afterBoundary s.time a))).servedOk freed :=
    h.of_traffic (by simp [State.traffic])
  unfold State.boundary
  dsimp only
  refine State.servedOk.reportActivity ?_ c _
  split
  · exact hafter.handOn c _
  · exact hafter

theorem State.servedOk.takeBoundary (c : Chan) : (s.takeBoundary c).servedOk freed := by
  unfold State.takeBoundary
  dsimp only
  split
  · exact ((h.applyBoth c true).boundary c _).settle
  · exact (h.applyBoth c true).settle

/-! ### Start deadlines -/

theorem State.servedOk.closeWindow (c : Chan) (w : Window) : (s.closeWindow c w).servedOk freed := by
  unfold State.closeWindow
  split
  · exact h.setWindow c _
  · split
    · exact h.decodeMiss c
    · split
      · exact (h.unqueue c .decode).decodeMiss c
      · exact h
  all_goals exact h

/-- What waited for a withdrawn ENCODE is released, since it was the channel's only one in the pool (R117, R131). -/
theorem State.servedOk.encodeDeadline (c : Chan) : (s.encodeDeadline c).servedOk freed := by
  unfold State.encodeDeadline
  split
  · next hlate =>
    have hgone := State.inPool_unqueue h.single (State.queued_of_lateJob hlate)
    exact (((h.unqueue c .encode).encodeMiss c).releaseHeld
      ((State.inPool_of_pool (by simp) c .encode).trans hgone)).settle
  · split
    · have hdropped : ((s.dropLateHeld c).encodeMiss c).servedOk freed := (h.setHeld c _).encodeMiss c
      dsimp only
      refine State.servedOk.settle ?_
      split
      · exact hdropped
      · next hfree => exact hdropped.releaseHeld (by simpa using hfree)
    · exact h

theorem State.servedOk.decodeDeadline (c : Chan) : (s.decodeDeadline c).servedOk freed := by
  unfold State.decodeDeadline
  split
  · exact ((h.unqueue c .decode).decodeMiss c).settle
  · split
    · exact (h.decodeMiss c).settle
    · exact h

/-! ### Completions -/

/-- A completed job leaves its engine, which may then be FREE, and the pool without a job of its channel and kind. -/
theorem State.servedOk.leaveEngine {e : Fin 4} {j : Job} (hj : (s.engines[e.val]).job? = some j) :
    ({ s with engines := s.engines.set e.val (s.engines[e.val]).afterJob } : State).servedOk True
      ∧ ({ s with engines := s.engines.set e.val (s.engines[e.val]).afterJob } : State).inPool j.channel j.kind
        = false := by
  have hcount := State.jobCount_afterJob hj
  refine ⟨⟨.inl trivial, h.ordered, fun c k => ?_, h.transmit⟩, (State.inPool_eq_false_iff _ _ _).mpr ?_⟩
  · exact (Nat.le_add_right _ _).trans ((hcount c k).trans_le (h.single c k))
  · have hone := (hcount j.channel j.kind).trans_le (h.single _ _)
    rw [j.isOf_self, Bool.toNat_true] at hone
    omega

theorem State.servedOk.deliver (j : Job) : (s.deliver j).servedOk freed := by
  unfold State.deliver
  split
  · exact h
  · split
    · exact (h.offerRecord _).mapActive _ _
    · exact h.of_traffic (by simp [State.traffic])

theorem State.servedOk.afterCompletion {j : Job} (hgone : s.inPool j.channel j.kind = false) :
    (s.afterCompletion j).servedOk freed := by
  unfold State.afterCompletion
  split
  · next hk => exact h.releaseHeld (hk ▸ hgone)
  · unfold State.offerHeldDecode
    split
    · split
      · exact h.offerDecode _ _ _
      · exact h
    · exact h

/-- The arbiter ends a completion, so that no engine is left FREE beside a queued job (R129). -/
theorem State.servedOk.complete {e : Fin 4} {j : Job} (hj : (s.engines[e.val]).job? = some j) :
    (s.complete e j).servedOk freed := by
  obtain ⟨hleft, hgone⟩ := h.leaveEngine hj
  unfold State.complete
  dsimp only
  exact ((hleft.deliver j).afterCompletion ((State.inPool_of_pool (by simp) _ _).trans hgone)).arbitrate.settle

end Operations

end Sys2Proof.Machine
end

section
/-! SUPPORT. Splices ended, halves released, the orders and the commands keep both queues served and ordered. -/

namespace Sys2Proof.Machine

/-! ### Orders that leave the pool and the transmit path -/

theorem traffic_bindEffect (c : Chan) (x : Slot) (p : Fin 8) (tag : BitVec 14) (s : State) :
    (bindEffect c x p tag s).state.traffic = s.traffic := by
  unfold bindEffect
  dsimp only
  split
  · rfl
  · rfl
  · split
    · rfl
    · split
      · rfl
      · simp [State.traffic, State.done, State.bindFree]
  · split
    · rfl
    · split
      · rfl
      · split
        · rfl
        · simp [State.traffic, State.done, State.bindHalfR]

theorem traffic_attachEffect (c : Chan) (modeSet : BitVec 3) (requested : BitVec 2) (tag : BitVec 14) (s : State) :
    (attachEffect c modeSet requested tag s).state.traffic = s.traffic := by
  unfold attachEffect
  dsimp only
  split
  · rfl
  · rfl
  · rfl
  · split
    · rfl
    · simp [State.traffic, State.attachFree]
  · split
    · rfl
    · split
      · rfl
      · simp [State.traffic, State.attachHalfF]

theorem traffic_checkEffect (c : Chan) (s : State) : (checkEffect c s).state.traffic = s.traffic := by
  unfold checkEffect
  split
  · split
    · rfl
    · split
      · rfl
      · simp [State.traffic, State.done, State.startCheck]
  · rfl

theorem traffic_spliceEffect (a b : Chan) (s : State) : (spliceEffect a b s).state.traffic = s.traffic := by
  unfold spliceEffect
  split
  · split
    · rfl
    · simp [State.traffic, State.done, State.joinSplice]
  · rfl

theorem traffic_stageEffect (l : Line) (c : Chan) (i : Item) (v : BitVec 16) (s : State) :
    (stageEffect l c i v s).state.traffic = s.traffic := by
  unfold stageEffect
  dsimp only
  split
  · rfl
  · split
    · rfl
    · split
      · rfl
      · split
        · rfl
        · split
          · rfl
          · split
            · rfl
            · simp [State.traffic, State.stageInto]

theorem traffic_commitEffect (l : Line) (s : State) : (commitEffect l s).state.traffic = s.traffic := by
  have hreserved : ∀ row c, (s.reserveFor row c).pool = s.pool ∧ (s.reserveFor row c).link = s.link := fun row c => by
    unfold State.reserveFor
    split <;> simp
  unfold commitEffect
  dsimp only
  split
  · rfl
  · split
    · rfl
    · split
      · rfl
      · split
        · simp [State.traffic, hreserved]
        · simp [State.traffic, State.done, hreserved]

theorem traffic_cancelEffect (l : Line) (s : State) : (cancelEffect l s).state.traffic = s.traffic := by
  unfold cancelEffect
  split
  · rfl
  · simp [State.traffic, State.done]

theorem traffic_readChannelEffect (l : Line) (c : Chan) (aspect : Fin 16) (s : State) :
    (readChannelEffect l c aspect s).state.traffic = s.traffic := by
  unfold readChannelEffect
  dsimp only
  split
  · simp [State.traffic, State.reportRead]
  · split
    · rfl
    · split <;> rfl

theorem traffic_clearEventsEffect (l : Line) (c : Chan) (kinds : BitVec 9) (s : State) :
    (clearEventsEffect l c kinds s).state.traffic = s.traffic := by
  simp [State.traffic, clearEventsEffect]

theorem traffic_clearLineEventsEffect (l : Line) (kinds : BitVec 5) (s : State) :
    (clearLineEventsEffect l kinds s).state.traffic = s.traffic := by
  simp [State.traffic, clearLineEventsEffect]

theorem traffic_selectItemEffect (l : Line) (sp : Space) (index : Fin 128) (s : State) :
    (selectItemEffect l sp index s).state.traffic = s.traffic := by
  unfold selectItemEffect
  split
  · rfl
  · simp [State.traffic]

theorem State.traffic_stored (s : State) (l : Line) (clamped : Bool) (v : Nat) :
    (s.stored l clamped v).state.traffic = s.traffic := by
  simp [State.traffic, State.stored]

theorem traffic_writeItemEffect (l : Line) (v : BitVec 16) (s : State) :
    (writeItemEffect l v s).state.traffic = s.traffic := by
  have hsettings : ∀ f, (s.setSettings l f).traffic = s.traffic := fun f => by simp [State.traffic, State.setSettings]
  unfold writeItemEffect State.writeAt
  split
  · rfl
  · split
    · exact State.traffic_stored _ l _ _
    · unfold State.writePattern
      dsimp only
      split
      · rfl
      · split
        · exact State.traffic_stored _ l _ _
        · exact State.traffic_stored _ l _ _
    · unfold State.writeSetting
      split
      · exact (State.traffic_stored _ l _ _).trans (by simp [State.traffic, State.setSettings])
      · split
        · exact (State.traffic_stored _ l _ _).trans (hsettings _)
        · rfl
      · exact (State.traffic_stored _ l _ _).trans (hsettings _)
      · exact (State.traffic_stored _ l _ _).trans (hsettings _)
    · rfl

theorem traffic_restartEffect (l : Line) (s : State) : (restartEffect l s).state.traffic = s.traffic := by
  unfold restartEffect
  dsimp only
  split
  · rfl
  · split
    · rfl
    · simp [State.traffic]

section Operations

variable {s : State} {freed : Prop} (h : s.servedOk freed)
include h

/-! ### The end of a splice, and halves released -/

theorem State.servedOk.sever (c : Chan) : (s.sever c).servedOk freed := h.of_traffic (by simp [State.traffic])

theorem State.servedOk.resume (c : Chan) : (s.resume c).servedOk freed := h.of_traffic (by simp [State.traffic])

theorem State.servedOk.redirect (c : Chan) : (s.redirect c).servedOk freed := by
  unfold State.redirect
  split
  · exact h.offerDecode c _ _
  · exact h

theorem State.servedOk.endSplice (a b : Chan) : (s.endSplice a b).servedOk freed := by
  have hresumed := (((h.sever a).sever b).resume a).resume b
  unfold State.endSplice
  dsimp only
  split
  · exact (hresumed.redirect a).redirect b
  · exact (hresumed.redirect b).redirect a

theorem State.servedOk.stopStreams (c : Chan) (a : Active) : (s.stopStreams c a).servedOk freed := by
  have habandoned := (h.abandonJob c .decode).abandonJob c .encode
  unfold State.stopStreams
  dsimp only
  split
  · exact habandoned
  · next b _ => exact (((habandoned.sever c).sever b).resume b).redirect b

/-- A half released withdraws and marks jobs and ends a splice; the half, the row and the timeslot are no traffic. -/
theorem State.servedOk.releaseHalf (l : Line) (c : Chan) : (s.releaseHalf l c).servedOk freed := by
  unfold State.releaseHalf
  split
  · exact h.of_traffic (by simp [State.traffic])
  · exact h.of_traffic (by simp [State.traffic])
  · next a _ => exact (h.stopStreams c a).of_traffic (by simp [State.traffic])
  · next a _ => exact (h.stopStreams c a).of_traffic (by simp [State.traffic])
  · exact h

/-- A fold of updates each of which keeps both queues. -/
theorem State.servedOk.foldl {β : Type} {f : State → β → State} (hf : ∀ s b, s.servedOk freed → (f s b).servedOk freed)
    (l : List β) : (l.foldl f s).servedOk freed := by
  induction l generalizing s with
  | nil => exact h
  | cons b l ih => exact ih (hf s b h)

/-! ### Timers -/

theorem State.servedOk.halfWaitExpiry (c : Chan) : (s.halfWaitExpiry c).servedOk freed := by
  unfold State.halfWaitExpiry
  split
  · next l _ => exact (h.releaseHalf l c).of_traffic (by simp [State.traffic])
  · exact h

theorem State.servedOk.watchdogRelease (l : Line) : (s.watchdogRelease l).servedOk freed := by
  have hsevered : s.severAll.servedOk freed := h.of_traffic (by simp [State.traffic])
  have hreleased := hsevered.foldl (f := fun t c => t.releaseHalf l c) (fun _ c ht => ht.releaseHalf l c)
    (List.finRange 128)
  exact hreleased.of_traffic (by simp [State.traffic, State.watchdogRelease])

theorem State.servedOk.watchdogExpiry (l : Line) : (s.watchdogExpiry l).servedOk freed := by
  have hsilent : ((s.mapLine l fun u => { u with silent := true, expiry := none }).recordLine (otherLine l)
      .partnerSilent).servedOk freed := h.of_traffic (by simp [State.traffic])
  unfold State.watchdogExpiry
  dsimp only
  refine State.servedOk.settle ?_
  split
  · exact hsilent.watchdogRelease l
  · exact hsilent

/-! ### Taking an order -/

theorem State.servedOk.carryOut (o : Order) (owned : Bool) {body : State → Effect}
    (hbody : (body s).state.servedOk freed) : (carryOut o owned body s).state.servedOk freed := by
  unfold Machine.carryOut
  split
  · exact h
  · split
    · exact h
    · exact hbody

/-- An order keeps both queues where its verb does, whoever it is for. -/
theorem State.servedOk.takeOrder (o : Order) (owned broadcast : Bool) (ch : State → BitVec 7) {body : State → Effect}
    (hbody : ∀ {t : State}, t.servedOk freed → (body t).state.servedOk freed) :
    (takeOrder o owned broadcast ch body s).servedOk freed := by
  have htouch : (s.touch o.line).servedOk freed := h.of_traffic (by simp [State.traffic])
  have hcarried := htouch.carryOut o owned (hbody htouch)
  unfold Machine.takeOrder
  split
  · exact h
  · split
    · dsimp only
      split
      · exact hcarried.of_traffic (by simp [State.traffic])
      · exact htouch.of_traffic (by simp [State.traffic])
    · split
      · exact hcarried.of_traffic (by simp [State.traffic])
      · exact h.of_traffic (by simp [State.traffic])

/-- An order whose verb leaves the pool and the transmit path. -/
theorem State.servedOk.takeQuietOrder (o : Order) (owned broadcast : Bool) (ch : State → BitVec 7)
    {body : State → Effect} (hbody : ∀ t, (body t).state.traffic = t.traffic) :
    (Machine.takeOrder o owned broadcast ch body s).servedOk freed :=
  h.takeOrder o owned broadcast ch fun ht => ht.of_traffic (hbody _)

/-! ### The orders on channels and engines -/

theorem State.servedOk.releaseEffect (l : Line) (c : Chan) : (releaseEffect l c s).state.servedOk freed := by
  unfold Machine.releaseEffect
  split
  · exact (h.releaseHalf l c).settle
  · exact h

theorem State.servedOk.handoverEffect (c : Chan) : (handoverEffect c s).state.servedOk freed := by
  unfold Machine.handoverEffect
  split
  · exact (h.abandonJob c .decode).setUp c _
  · exact h

theorem State.servedOk.unspliceEffect (c : Chan) : (unspliceEffect c s).state.servedOk freed := by
  unfold Machine.unspliceEffect
  split
  · exact (h.endSplice c _).settle
  · exact h

/-- An engine given another state that runs the same job. -/
theorem State.servedOk.setEngine {freed' : Prop} {e : Fin 4} {g : Engine} (hjob : g.job? = (s.engines[e.val]).job?)
    (harbiter : freed' ∨ ({ s with engines := s.engines.set e.val g } : State).arbiterOk) :
    ({ s with engines := s.engines.set e.val g } : State).servedOk freed' where
  arbiter := harbiter
  ordered := h.ordered
  single c k := by
    have hset := countP_runs_set s.engines e g c k
    have hruns : g.runs c k = (s.engines[e.val]).runs c k := by rw [Engine.runs, hjob, Engine.runs]
    rw [hruns, Nat.add_right_cancel_iff] at hset
    exact (congrArg (s.jobs.countP (·.isOf c k) + ·) hset).trans_le (h.single c k)
  transmit := h.transmit

/-- An engine ordered OUT runs its job on and is not FREE (R134). -/
theorem State.servedOk.engineOutEffect (e : Fin 4) : (engineOutEffect e s).state.servedOk freed := by
  have hjob : (s.engines[e.val]).serviceOut.job? = (s.engines[e.val]).job? := by cases s.engines[e.val] <;> rfl
  have hbusy : (s.engines[e.val]).serviceOut ≠ .free := by cases s.engines[e.val] <;> nofun
  exact h.setEngine hjob (h.arbiter.imp_right fun ha => ha.imp_right fun hb => set_not_free hbusy fun d _ => hb d)

/-- An engine ordered IN may be FREE beside a queued job, until the arbiter acts in the order itself (R135). -/
theorem State.servedOk.engineInEffect (e : Fin 4) : (engineInEffect e s).state.servedOk freed := by
  have hjob : (s.engines[e.val]).serviceIn.job? = (s.engines[e.val]).job? := by cases s.engines[e.val] <;> rfl
  exact (h.setEngine (freed' := True) hjob (.inl trivial)).arbitrate

/-! ### Events that are due or not -/

/-- An event that is not due leaves the state as it is (log 3). -/
theorem State.servedOk.ifDue {t : State} (ht : t.servedOk freed) (p : Prop) [Decidable p] :
    (if p then t else s).servedOk freed := by
  split
  · exact ht
  · exact h

theorem State.servedOk.mapLine (l : Line) (f : LineUnit → LineUnit) : (s.mapLine l f).servedOk freed :=
  h.of_traffic (by simp [State.traffic])

theorem State.servedOk.spoil (l : Line) : (s.spoil l).servedOk freed := h.ifDue (h.mapLine l _) _

theorem State.servedOk.noReply (l : Line) : (s.noReply l).servedOk freed := h.ifDue (h.mapLine l _) _

/-- The record being sent ends, and the transmitter takes the next one at once (R78). -/
theorem State.servedOk.nextRecord (now : Nat) :
    ({ s with clock := now, sending := none } : State).startTransmit.servedOk freed :=
  h.of_pool (State.pool_startTransmit _) (State.transmitOk_startTransmit h.transmit.1)

end Operations

/-- The part as it is after power-on and after a restart: no job, no record (R11, R79, R136). -/
theorem State.servedOk_of_reset {s : State} (hs : s.traffic = State.reset.traffic) : s.servedOk False := by
  obtain ⟨htransmit, harbiter, hordered, -, -, -, -, -, -, -, -, -, -, hsingle⟩ := resetMeetsEveryRelation
  exact State.servedOk.of_traffic ⟨.inr harbiter, hordered, hsingle, htransmit⟩ hs

/-- A command leaves a next state, with both queues served and ordered where they were so. -/
theorem State.servedOk.exec {s : State} (h : s.servedOk False) (i : Instr) :
    ∃ t, exec i s = .next t ∧ t.servedOk False := by
  cases i with
  | powerOn => exact ⟨_, rfl, State.servedOk_of_reset rfl⟩
  | resetLow => exact ⟨_, rfl, State.servedOk_of_reset rfl⟩
  | resetRise =>
    refine ⟨_, rfl, h.ifDue ?_ _⟩
    exact State.servedOk_of_reset rfl
  | ready strapF strapR =>
    refine ⟨_, rfl, h.ifDue ?_ _⟩
    exact h.of_traffic rfl
  | frameSync incoming =>
    refine ⟨_, rfl, ?_⟩
    split
    · exact h.of_traffic rfl
    · refine h.ifDue ?_ _
      exact h.of_traffic rfl
    · refine h.ifDue ?_ _
      exact h.of_traffic rfl
  | continuityTimeout c =>
    refine ⟨_, rfl, ?_⟩
    split
    · refine h.ifDue ?_ _
      exact h.of_traffic (by simp [State.traffic])
    · exact h
  | downlinkBoundary c => exact ⟨_, rfl, h.ifDue (h.takeBoundary c) _⟩
  | playoutInstant c => exact ⟨_, rfl, h.ifDue (h.takeInstant c) _⟩
  | windowStartDeadline c =>
    refine ⟨_, rfl, ?_⟩
    split
    · exact h.ifDue (h.closeWindow c _).settle _
    · exact h
  | jobStartDeadline c kind =>
    refine ⟨_, rfl, ?_⟩
    cases kind with
    | encode => exact h.encodeDeadline c
    | decode => exact h.decodeDeadline c
  | jobCompletion e =>
    refine ⟨_, rfl, ?_⟩
    split
    · next j ends hj _ =>
      have hclock : ({ s with clock := max s.clock ends } : State).servedOk False := h.of_traffic rfl
      exact h.ifDue (hclock.complete hj) _
    · exact h
  | recordArrival octets =>
    have hbegun : ({ s with begun := s.begun - 1 } : State).servedOk False := h.of_traffic rfl
    exact ⟨_, rfl, h.ifDue (hbegun.arrival octets) _⟩
  | recordTransmitted =>
    refine ⟨_, rfl, ?_⟩
    split
    · exact h.ifDue (h.nextRecord _) _
    · exact h
  | halfWaitExpiry c => exact ⟨_, rfl, h.ifDue (h.halfWaitExpiry c) _⟩
  | watchdogExpiry l => exact ⟨_, rfl, h.ifDue (h.watchdogExpiry l) _⟩
  | restartLapse l => exact ⟨_, rfl, h.ifDue (h.of_traffic (by simp [State.traffic])) _⟩
  | earlySelectRise l => exact ⟨_, rfl, (h.spoil l).noReply l⟩
  | orderCrcMismatch l => exact ⟨_, rfl, (h.spoil l).noReply l⟩
  | extraClock l => exact ⟨_, rfl, h.spoil l⟩
  | nop o => exact ⟨_, rfl, h.takeQuietOrder o _ _ _ fun _ => rfl⟩
  | bind o x p tag => exact ⟨_, rfl, h.takeQuietOrder o _ _ _ (traffic_bindEffect _ x p tag)⟩
  | attach o modeSet requested tag =>
    exact ⟨_, rfl, h.takeQuietOrder o _ _ _ (traffic_attachEffect _ modeSet requested tag)⟩
  | release o => exact ⟨_, rfl, h.takeOrder o _ _ _ fun ht => ht.releaseEffect _ _⟩
  | handover o => exact ⟨_, rfl, h.takeOrder o _ _ _ fun ht => ht.handoverEffect _⟩
  | check o => exact ⟨_, rfl, h.takeQuietOrder o _ _ _ (traffic_checkEffect _)⟩
  | splice o partner => exact ⟨_, rfl, h.takeQuietOrder o _ _ _ (traffic_spliceEffect _ partner)⟩
  | unsplice o => exact ⟨_, rfl, h.takeOrder o _ _ _ fun ht => ht.unspliceEffect _⟩
  | stage o item v => exact ⟨_, rfl, h.takeQuietOrder o _ _ _ (traffic_stageEffect _ _ item v)⟩
  | commit o => exact ⟨_, rfl, h.takeQuietOrder o _ _ _ (traffic_commitEffect _)⟩
  | cancel o => exact ⟨_, rfl, h.takeQuietOrder o _ _ _ (traffic_cancelEffect _)⟩
  | readChannel o aspect => exact ⟨_, rfl, h.takeQuietOrder o _ _ _ (traffic_readChannelEffect _ _ aspect)⟩
  | nextEvent o => exact ⟨_, rfl, h.takeQuietOrder o _ _ _ fun _ => rfl⟩
  | clearEvents o kinds => exact ⟨_, rfl, h.takeQuietOrder o _ _ _ (traffic_clearEventsEffect _ _ kinds)⟩
  | clearLineEvents o kinds => exact ⟨_, rfl, h.takeQuietOrder o _ _ _ (traffic_clearLineEventsEffect _ kinds)⟩
  | selectItem o sp index => exact ⟨_, rfl, h.takeQuietOrder o _ _ _ (traffic_selectItemEffect _ sp index)⟩
  | readItem o => exact ⟨_, rfl, h.takeQuietOrder o _ _ _ fun _ => by simp [State.traffic, readItemEffect]⟩
  | writeItem o v => exact ⟨_, rfl, h.takeQuietOrder o _ _ _ (traffic_writeItemEffect _ v)⟩
  | engineServiceOut o e => exact ⟨_, rfl, h.takeOrder o _ _ _ fun ht => ht.engineOutEffect e⟩
  | engineServiceIn o e => exact ⟨_, rfl, h.takeOrder o _ _ _ fun ht => ht.engineInEffect e⟩
  | restart o => exact ⟨_, rfl, h.takeQuietOrder o _ _ _ (traffic_restartEffect _)⟩
  | restartExecution =>
    refine ⟨_, rfl, ?_⟩
    split
    · exact State.servedOk_of_reset rfl
    · exact h
  | recordStart =>
    refine ⟨_, rfl, h.ifDue ?_ _⟩
    exact h.of_traffic rfl
  | unknownVerb o code => exact ⟨_, rfl, h.takeQuietOrder o _ _ _ fun _ => rfl⟩

/-- A step is a command on the state with the rest of the queue, or one core clock (log 1). -/
theorem State.servedOk.step {s : State} (h : s.servedOk False) : ∃ t, step s = .next t ∧ t.servedOk False := by
  unfold Machine.step State.front
  cases s.pending with
  | nil =>
    refine ⟨_, rfl, h.ifDue ?_ _⟩
    exact h.of_traffic rfl
  | cons i rest => exact State.servedOk.exec (s := { s with pending := rest }) (h.of_traffic rfl) i

/-- Settles O54: a job joins the pool only where its source finds none of its channel and kind there, in the order of its
key, and the arbiter acts wherever a job joins the queue or an engine becomes FREE; a record waits only behind one being
sent. -/
theorem stepKeepsTheQueuesServed : Obligations.StepKeepsTheQueuesServed := by
  intro s t harbiter hordered hsingle htransmit hstep
  obtain ⟨u, hu, hok⟩ := State.servedOk.step (s.servedOk_iff.mpr ⟨harbiter, hordered, hsingle, htransmit⟩)
  rw [hstep] at hu
  cases hu
  exact t.servedOk_iff.mp hok

end Sys2Proof.Machine
end

section
/-! SUPPORT. ENGINE_SERVICE: an engine taken out of service, and back in with the arbiter acting in the order itself. -/

namespace Sys2Proof.Machine

section Orders

variable {s : State} {o : Order} (e : Fin 4)

/-! ### The two orders as their effects on the touched state -/

theorem exec_engineServiceOut (h : s.addressed o) (hF : o.line = .F) :
    exec (.engineServiceOut o e) s
      = .next ((engineOutEffect e (s.touch o.line)).state.formReply o.line .done o.echoed
        (engineOutEffect e (s.touch o.line)).data) :=
  State.exec_of_effect (broadcast := false) (body := engineOutEffect e) h
    (by simp [exec, execEngineServiceOut, Order.onF, hF]) rfl

theorem exec_engineServiceIn (h : s.addressed o) (hF : o.line = .F) :
    exec (.engineServiceIn o e) s
      = .next ((engineInEffect e (s.touch o.line)).state.formReply o.line .done o.echoed
        (engineInEffect e (s.touch o.line)).data) :=
  State.exec_of_effect (broadcast := false) (body := engineInEffect e) h
    (by simp [exec, execEngineServiceIn, Order.onF, hF]) rfl

/-- An order whose verb changes the pool alone. -/
theorem State.orderFrame_of_pool {t : State} (hd : t.device = s.device) (hc : ∀ d, t.chan d = s.chan d)
    (hx : ∀ x, t.slot x = s.slot x) (hl : ∀ k, t.line k = (s.touch o.line).line k) (r : Result) (ch : BitVec 7)
    (data : BitVec 24) : s.orderFrame (t.formReply o.line r ch data) o [] [] := by
  refine State.orderFrameTo_formReply ⟨hd, fun d _ => hc d, fun x _ => hx x, ?_, ?_⟩ r ch data
  · rw [hl]
    exact s.sameButTaking_touch o.line
  · rw [hl, State.line_touch_other]
    rfl

/-! ### OUT (R134) -/

/-- The engine's own state follows the order, and its data is the code of the state then; the queue is not touched. -/
theorem engineOutEffect_spec (l : Line) :
    (engineOutEffect e (s.touch l)).state.pool = (s.engines.set e.val (s.engines[e.val]).serviceOut, s.jobs)
      ∧ (engineOutEffect e (s.touch l)).data = BitVec.ofNat 24 (s.engines[e.val]).serviceOut.code := by
  simp [engineOutEffect, State.engineAnswer, State.pool]

theorem engineOutEffect_frame (r : Result) (ch : BitVec 7) (data : BitVec 24) :
    s.orderFrame ((engineOutEffect e (s.touch o.line)).state.formReply o.line r ch data) o [] [] :=
  State.orderFrame_of_pool (t := (engineOutEffect e (s.touch o.line)).state) (State.device_touch s o.line)
    (State.chan_touch s o.line) (State.slot_touch s o.line) (fun k => by cases k <;> rfl) r ch data

/-! ### IN (R135) -/

theorem engineInEffect_device (s : State) : (engineInEffect e s).state.device = s.device := State.device_arbitrate _

theorem engineInEffect_frame (r : Result) (ch : BitVec 7) (data : BitVec 24) :
    s.orderFrame ((engineInEffect e (s.touch o.line)).state.formReply o.line r ch data) o [] [] := by
  refine State.orderFrame_of_pool ?_ ?_ ?_ ?_ r ch data
  · exact (engineInEffect_device e _).trans (State.device_touch s o.line)
  · exact fun d => (State.chan_arbitrate _ d).trans (State.chan_touch s o.line d)
  · exact fun x => (State.slot_arbitrate _ x).trans (State.slot_touch s o.line x)
  · exact fun k => (State.line_arbitrate _ k).trans (by cases k <;> rfl)

variable {e}

/-- The data is the code of the engine's state after the order. -/
theorem engineInEffect_data {engines : Vector Engine 4} {g : Engine}
    (hg : (engineInEffect e s).state.engines = engines.set e.val g) :
    (engineInEffect e s).data = BitVec.ofNat 24 g.code := by
  show BitVec.ofNat 24 ((engineInEffect e s).state.engines[e.val]).code = _
  simp [hg]

/-- Of an engine in service the order leaves the arbiter nothing to do: DRAINING becomes BUSY, FREE and BUSY stay. -/
theorem engineInEffect_pool_inService (l : Line) (ha : s.arbiterOk) (hin : s.engines[e.val] ≠ .out) {g : Engine}
    (hg : (s.engines[e.val]).serviceIn = g) :
    (engineInEffect e (s.touch l)).state.pool = (s.engines.set e.val g, s.jobs) := by
  subst hg
  have hok : ({ s.touch l with
      engines := (s.touch l).engines.set e.val ((s.touch l).engines[e.val]).serviceIn } : State).arbiterOk := by
    simp only [State.arbiterOk, State.touch_engines, State.touch_jobs]
    refine ha.imp_right fun hbusy => set_not_free ?_ fun d _ => hbusy d
    have hfree := hbusy e
    revert hfree hin
    cases s.engines[e.val] <;> simp [Engine.serviceIn]
  refine (congrArg State.pool (State.arbitrate_of_arbiterOk hok)).trans ?_
  simp [State.pool]

/-- An engine that was OUT is left FREE for the arbiter, which acts at once. -/
theorem engineInEffect_out (hout : s.engines[e.val] = .out) :
    s.engineLeft (engineInEffect e s).state e .free s.jobs := by
  have hfree : (s.engines[e.val]).serviceIn = .free := by rw [hout]; rfl
  show s.engineLeft
    ({ s with engines := s.engines.set e.val (s.engines[e.val]).serviceIn } : State).arbitrate e .free s.jobs
  rw [hfree]
  exact s.engineLeft_arbitrate e .free

theorem engineInEffect_pool_empty (l : Line) (hout : s.engines[e.val] = .out) (hj : s.jobs = []) :
    (engineInEffect e (s.touch l)).state.pool = (s.engines.set e.val .free, []) := by
  obtain ⟨hjobs, hengines⟩ := (engineInEffect_out (s := s.touch l) (e := e) (by simpa using hout)).1 (by simpa using hj)
  rw [State.touch_engines] at hengines
  exact Prod.ext hengines hjobs

/-- Beside a queued job the engine that was OUT is the only FREE one, and takes the head of the queue. -/
theorem engineInEffect_pool_head (l : Line) (ha : s.arbiterOk) (hout : s.engines[e.val] = .out) {head : Job}
    {rest : List Job} (hj : s.jobs = head :: rest) :
    (engineInEffect e (s.touch l)).state.pool
      = (s.engines.set e.val (.busy head (s.clock + (320 + 1280 * (head.mode.bits + 2)))), rest) := by
  have hbusy := ha.resolve_left (by rw [hj]; nofun)
  obtain ⟨-, hfull⟩ := engineInEffect_out (s := s.touch l) (e := e) (by simpa using hout)
  obtain ⟨hjobs, hengines⟩ := (hfull (by simpa using fun d _ => hbusy d)).2 head rest rfl (by simpa using hj)
  rw [State.touch_engines, State.clock_of_device (engineInEffect_device e _), State.touch_clock] at hengines
  exact Prod.ext hengines hjobs

/-- The pool and the answer after an order that leaves the engine in state `g`. -/
theorem engineInEffect_answered {queue : List Job} {g : Engine}
    (hp : (engineInEffect e (s.touch o.line)).state.pool = (s.engines.set e.val g, queue)) :
    let t := (engineInEffect e (s.touch o.line)).state.formReply o.line .done o.echoed
      (engineInEffect e (s.touch o.line)).data
    t.jobs = queue ∧ t.engines = s.engines.set e.val g ∧ t.answered o .done o.echoed (BitVec.ofNat 24 g.code) := by
  intro t
  have ht : t.pool = (s.engines.set e.val g, queue) := (State.pool_formReply _ _ _ _ _).trans hp
  obtain ⟨hengines, hjobs⟩ := Prod.mk.inj ht
  refine ⟨hjobs, hengines, ?_⟩
  rw [← engineInEffect_data (Prod.mk.inj hp).1]
  exact State.answered_formReply _ _ _ _ _

end Orders

/-- Settles O48: the engine's state follows the order; only an engine back from OUT gives the arbiter something to do, and
beside a queued job it is then the only FREE one. -/
theorem engineServiceTakesEnginesOutAndIn : Obligations.EngineServiceTakesEnginesOutAndIn := by
  refine ⟨fun o e s h hF => ?_, fun o e s ha h hF => ?_⟩
  · obtain ⟨hpool, hdata⟩ := engineOutEffect_spec (s := s) e o.line
    obtain ⟨hengines, hjobs⟩ := Prod.mk.inj ((State.pool_formReply _ o.line .done o.echoed
      (engineOutEffect e (s.touch o.line)).data).trans hpool)
    have hanswered := State.answered_formReply (engineOutEffect e (s.touch o.line)).state o .done o.echoed
      (engineOutEffect e (s.touch o.line)).data
    refine ⟨_, _, exec_engineServiceOut e h hF, engineOutEffect_frame e .done o.echoed _,
      (State.link_formReply _ _ _ _ _).trans (State.link_touch s o.line), hjobs, hengines, fun hstate => ?_,
      fun j ends hstate => ?_⟩
    · have hout : (s.engines[e.val]).serviceOut = .out := by
        rcases hstate with hs | hs <;> rw [hs] <;> rfl
      rw [hout] at hdata
      exact ⟨hout, hdata ▸ hanswered⟩
    · have hdraining : (s.engines[e.val]).serviceOut = .draining j ends := by
        rcases hstate with hs | hs <;> rw [hs] <;> rfl
      rw [hdraining] at hdata
      exact ⟨hdraining, hdata ▸ hanswered⟩
  · refine ⟨_, exec_engineServiceIn e h hF, engineInEffect_frame e .done o.echoed _,
      (State.link_formReply _ _ _ _ _).trans ((State.link_arbitrate _).trans (State.link_touch s o.line)),
      fun hs => ?_, fun j ends hs => ?_, fun hs hj => ?_, fun head rest hs hj => ?_⟩
    · obtain ⟨hjobs, hengines, hanswered⟩ := engineInEffect_answered
        (engineInEffect_pool_inService o.line ha (g := .free) (by rw [hs]; nofun) (by rw [hs]; rfl))
      have hsame : s.engines.set e.val .free = s.engines := by rw [← hs, Vector.set_getElem_self]
      exact ⟨Prod.ext (hengines.trans hsame) hjobs, hanswered⟩
    · refine engineInEffect_answered (engineInEffect_pool_inService o.line ha (g := .busy j ends) ?_ ?_)
      · rcases hs with hs | hs <;> rw [hs] <;> nofun
      · rcases hs with hs | hs <;> rw [hs] <;> rfl
    · exact engineInEffect_answered (engineInEffect_pool_empty o.line hs hj)
    · exact engineInEffect_answered (engineInEffect_pool_head o.line ha hs hj)

end Sys2Proof.Machine
end

section
/-! SUPPORT. The orders on a staging row that leave the contexts alone: CANCEL, which empties it, and STAGE, which holds an
item in it; and what every order on a row builds on, its answer and the frame of its Line Unit. -/

namespace Sys2Proof.Machine

/-! ### Answers with a channel field of their own, and the row that an order leaves -/

/-- An order addressed to the part and carried out, its channel field read from the touched state (R181, R182). -/
theorem State.exec_of_effect_field {s e : State} {o : Order} {i : Instr} {broadcast : Bool} {ch : State → BitVec 7}
    {body : State → Effect} {r : Result} {data : BitVec 24} (h : s.addressed o)
    (hi : exec i s = .next (takeOrder o true broadcast ch body s))
    (hb : body (s.touch o.line) = { state := e, result := r, data }) :
    exec i s = .next (e.formReply o.line r (ch (s.touch o.line)) data) := by
  rw [hi, takeOrder_addressed h, hb]

/-- An order whose verb refuses it on the touched state, its channel field read there (R181, R182). -/
theorem State.refuses_of_effect_field {s : State} {o : Order} {i : Instr} {broadcast : Bool} {ch : State → BitVec 7}
    {body : State → Effect} {r : Result} (h : s.addressed o)
    (hi : exec i s = .next (takeOrder o true broadcast ch body s))
    (hb : body (s.touch o.line) = (s.touch o.line).refuse r) : s.refuses i o r (ch (s.touch o.line)) :=
  ⟨_, State.exec_of_effect_field h hi hb, State.answered_formReply _ _ _ _ _,
    State.orderFrameTo_formReply (s.orderFrame_touch o) _ _ _, by simp, by simp⟩

/-- The frame of an order that touches its Line Unit and changes the row there. -/
theorem State.orderFrameTo_mapRow {s e : State} {o : Order} {chans : List Chan} {slots : List Slot}
    (hd : e.device = s.device) (hc : s.sameChannels e chans) (hs : s.sameSlots e slots)
    (hl : ∀ k, e.line k = (s.touch o.line).line k) (f : Row → Row) :
    s.orderFrameTo (e.mapLine o.line fun u => { u with row := f u.row }) o chans slots
      { s.line o.line with row := f (s.line o.line).row } := by
  refine ⟨by simpa using hd, fun d hd => by simpa using hc d hd, fun x hx => by simpa using hs x hx, ?_, ?_⟩
  · rw [State.line_mapLine_self, hl, State.line_touch_self]
    rfl
  · rw [State.line_mapLine, if_neg (ne_otherLine _), hl, State.line_touch_other]
    rfl

/-- The same frame, of the touched state alone. -/
theorem State.orderFrameTo_touch_mapRow (s : State) (o : Order) (f : Row → Row) :
    s.orderFrameTo ((s.touch o.line).mapLine o.line fun u => { u with row := f u.row }) o [] []
      { s.line o.line with row := f (s.line o.line).row } :=
  State.orderFrameTo_mapRow (by simp) (fun _ _ => by simp) (fun _ _ => by simp) (fun _ => rfl) f

/-! ### CANCEL (R142) -/

/-- CANCEL of a row that is not PENDING: the row is EMPTY. -/
theorem cancel_open {o : Order} {s : State} (ha : s.addressed o) (hp : (s.line o.line).row.pending = false) :
    exec (.cancel o) s
      = .next (((s.touch o.line).mapLine o.line fun u => { u with row := .empty }).formReply o.line .done o.echoed 0) :=
  State.exec_of_effect ha rfl (by simp [cancelEffect, hp, State.done])

/-- CANCEL of a PENDING row: refused, the row waits on. -/
theorem cancel_pending {o : Order} {s : State} (ha : s.addressed o) (hp : (s.line o.line).row.pending = true) :
    exec (.cancel o) s = .next ((s.touch o.line).formReply o.line .busy o.echoed 0) :=
  State.exec_of_effect ha rfl (by simp [cancelEffect, hp, State.refuse])

/-- Forming a reply keeps every event list. -/
theorem State.events_formReply (s : State) (l k : Line) (r : Result) (ch : BitVec 7) (d : BitVec 24) :
    ((s.formReply l r ch d).line k).events = (s.line k).events := by
  by_cases h : l = k
  · subst h
    rw [State.line_formReply_self]
  · rw [State.line_formReply_ne _ h]

/-- Settles O41: the row PENDING, and the row OPEN or EMPTY. -/
theorem cancelEmptiesTheRow : Obligations.CancelEmptiesTheRow := by
  intro o s ha
  cases hp : (s.line o.line).row.pending with
  | true =>
    exact ⟨_, cancel_pending ha hp, by simp, by simp, fun k => by simp [State.events_formReply], nofun,
      fun _ => ⟨State.answered_formReply _ _ _ _ _, State.orderFrameTo_formReply (s.orderFrame_touch o) _ _ _⟩⟩
  | false =>
    refine ⟨_, cancel_open ha hp, by simp, by simp, fun k => ?_,
      fun _ => ⟨State.answered_formReply _ _ _ _ _,
        State.orderFrameTo_formReply (s.orderFrameTo_touch_mapRow o fun _ => .empty) _ _ _⟩, nofun⟩
    rw [State.events_formReply, State.line_mapLine, ← s.events_touch o.line k]
    split <;> rfl

/-! ### What an item stages (R138) -/

theorem Mode.ofCode_isSome {n : Nat} : (Mode.ofCode n).isSome = true ↔ 1 ≤ n ∧ n ≤ 3 := by
  unfold Mode.ofCode
  split
  case h_4 hn1 hn2 hn3 =>
    refine ⟨nofun, fun ⟨hlow, hhigh⟩ => ?_⟩
    interval_cases n
    · exact absurd rfl hn1
    · exact absurd rfl hn2
    · exact absurd rfl hn3
  all_goals decide

/-- A value above the top of its range is staged as the top, and marked where that changes it. -/
theorem clampTo_eq {value v : BitVec 16} {top : Nat} (hv : v.toNat = min value.toNat top) :
    (if value.toNat ≤ top then (value, false) else (BitVec.ofNat 16 top, true)) = (v, decide (v ≠ value)) := by
  split
  · next hle =>
    have hsame : v = value := BitVec.eq_of_toNat_eq (by omega)
    simp [hsame]
  · next hgt =>
    have htop : v = BitVec.ofNat 16 top := BitVec.eq_of_toNat_eq (by rw [BitVec.toNat_ofNat]; omega)
    have hne : v ≠ value := fun h => by rw [h] at hv; omega
    simp only [decide_true, hne, ne_eq, not_false_eq_true, ← htop]

/-- An offset beyond -40..40 is staged as the nearest end, and marked where that changes it (R138). -/
theorem stagedValue_align {value v : BitVec 16} (hv : v.toInt = max (-40) (min 40 value.toInt)) :
    stagedValue .align value = some (v, decide (v ≠ value)) := by
  have hlow : (BitVec.ofInt 16 (-40)).toInt = -40 := by decide
  have hhigh : (BitVec.ofInt 16 40).toInt = 40 := by decide
  have hchanged : v.toInt ≠ value.toInt → decide (v ≠ value) = true := fun h =>
    decide_eq_true fun hvv => h (congrArg BitVec.toInt hvv)
  unfold stagedValue
  dsimp only
  split
  · rw [hchanged (by omega), BitVec.eq_of_toInt_eq (show v.toInt = (BitVec.ofInt 16 (-40)).toInt by omega)]
  · split
    · rw [hchanged (by omega), BitVec.eq_of_toInt_eq (show v.toInt = (BitVec.ofInt 16 40).toInt by omega)]
    · have hsame : v = value := BitVec.eq_of_toInt_eq (by omega)
      simp [hsame]

/-- The items of the slots after one is placed: the placed one, and the others as they were (R140). -/
theorem mem_placeItem {item : Item} {v : BitVec 16} {slots : List (Item × BitVec 16)} {p : Item × BitVec 16} :
    p ∈ placeItem item v slots ↔ p = (item, v) ∨ (p ∈ slots ∧ p.1 ≠ item) := by
  unfold placeItem
  split
  · next hin =>
    obtain ⟨q, hq, hqi⟩ := List.any_eq_true.mp hin
    rw [List.mem_map]
    constructor
    · rintro ⟨r, hr, rfl⟩
      split
      · exact .inl rfl
      · next hri => exact .inr ⟨hr, hri⟩
    · rintro (rfl | ⟨hp, hpi⟩)
      · exact ⟨q, hq, if_pos (of_decide_eq_true hqi)⟩
      · exact ⟨p, hp, if_neg hpi⟩
  · next hout =>
    have hne : ∀ q ∈ slots, q.1 ≠ item := fun q hq hqi => hout (List.any_eq_true.mpr ⟨q, hq, decide_eq_true hqi⟩)
    rw [List.mem_append, List.mem_singleton, or_comm]
    exact or_congr_right ⟨fun hp => ⟨hp, hne p hp⟩, And.left⟩

/-! ### The timeslot that an order names -/

/-- A timeslot is not taken from a channel: FREE, or the channel's own (R139, R141). -/
theorem Entry.takenFrom_eq_false {e : Entry} {c : Chan} :
    e.takenFrom c = false ↔ e = .free ∨ e = .bound c ∨ e = .reserved c := by
  cases e <;> simp [Entry.takenFrom]

theorem Entry.takenFrom_eq_true {e : Entry} {c : Chan} (hf : e ≠ .free) (hb : e ≠ .bound c) (hr : e ≠ .reserved c) :
    e.takenFrom c = true := by
  rw [← Bool.not_eq_false, Entry.takenFrom_eq_false]
  exact fun h => h.elim hf fun h => h.elim hb hr

@[simp] theorem State.slotTaken_touch (s : State) (l : Line) (x : Slot) (c : Chan) :
    (s.touch l).slotTaken x c = s.slotTaken x c := by
  simp [State.slotTaken]

/-- A value in range is the number of the timeslot that it names. -/
theorem Slot.ofNat_eq {n : Nat} {x : Slot} (h : n = x.val) : (Fin.ofNat 128 n : Slot) = x := by
  subst h
  exact Fin.ext (Nat.mod_eq_of_lt x.isLt)

/-! ### STAGE (R139, R140) -/

section Stage

variable {o : Order} {item : Item} {value v : BitVec 16} {s : State}

/-- STAGE on the touched state, where the checks of R139 before the value pass: the value is refused, or the timeslot, or
the item goes into the row. -/
theorem stageEffect_touch (hi : item.line = o.line) (hp : (s.line o.line).row.pending = false)
    (hh : (s.life o.channel).holds o.line = true)
    (hl : (s.line o.line).row.latched = none ∨ (s.line o.line).row.latched = some o.channel) :
    (stagedValue item value = none →
      stageEffect o.line o.channel item value (s.touch o.line) = (s.touch o.line).refuse .badArgument)
      ∧ ∀ v clamped, stagedValue item value = some (v, clamped) →
        stageEffect o.line o.channel item value (s.touch o.line)
          = if item = .timeslot ∧ s.slotTaken (Fin.ofNat 128 v.toNat) o.channel = true then
              (s.touch o.line).refuse .taken
            else
              { state := (s.touch o.line).stageInto o.line o.channel item v
                result := if clamped = true then .clamped else .done, data := v.setWidth 24 } := by
  have hopen : ((s.line o.line).row.latched.any fun d => decide (d ≠ o.channel)) = false := by
    rcases hl with h | h <;> simp [h]
  constructor
  · intro hv
    simp only [stageEffect, State.row_touch, State.life_touch, hi, hp, hh, hopen, hv, ne_eq, not_true_eq_false,
      Bool.not_true, Bool.false_eq_true, if_false]
  · intro v clamped hv
    simp only [stageEffect, State.row_touch, State.life_touch, State.slotTaken_touch, hi, hp, hh, hopen, hv, ne_eq,
      not_true_eq_false, Bool.not_true, Bool.false_eq_true, if_false]

/-- A STAGE that one of its checks refuses. -/
theorem stage_refused {r : Result} (ha : s.addressed o)
    (hb : stageEffect o.line o.channel item value (s.touch o.line) = (s.touch o.line).refuse r) :
    s.refuses (.stage o item value) o r o.echoed :=
  State.refuses_of_effect ha rfl hb

/-- The value staged where the item accepts one, as R138 gives it item by item. -/
theorem stagedValue_of_range
    (h : (item = .timeslot ∧ v = value ∧ ∃ x : Slot, value = BitVec.ofNat 16 x.val)
      ∨ ((item = .gainToFixed ∨ item = .gainToRadio) ∧ v.toNat = min value.toNat 1023)
      ∨ (item = .quietThreshold ∧ v.toNat = min value.toNat 2047)
      ∨ (item = .mode ∧ 1 ≤ value.toNat ∧ value.toNat ≤ 3 ∧ v = value)
      ∨ (item = .modeSet ∧ value.toNat ≤ 7 ∧ value.getLsbD 0 = true ∧ v = value)
      ∨ (item = .align ∧ v.toInt = max (-40) (min 40 value.toInt))
      ∨ (item = .dtx ∧ value.toNat ≤ 1 ∧ v = value)) :
    stagedValue item value = some (v, decide (v ≠ value)) := by
  rcases h with ⟨rfl, rfl, x, rfl⟩ | ⟨rfl | rfl, hv⟩ | ⟨rfl, hv⟩ | ⟨rfl, hlow, hhigh, rfl⟩ | ⟨rfl, hset, h16, rfl⟩
    | ⟨rfl, hv⟩ | ⟨rfl, hbit, rfl⟩
  · have hx : (BitVec.ofNat 16 x.val).toNat ≤ 127 := by rw [BitVec.toNat_ofNat]; omega
    exact (if_pos hx).trans (by simp)
  · exact congrArg some (clampTo_eq hv)
  · exact congrArg some (clampTo_eq hv)
  · exact congrArg some (clampTo_eq hv)
  · simp [stagedValue, Mode.ofCode_isSome.mpr ⟨hlow, hhigh⟩]
  · simp [stagedValue, hset, h16]
  · exact stagedValue_align hv
  · simp [stagedValue, hbit]

/-- No value staged where the item refuses the order's value (R138). -/
theorem stagedValue_none
    (h : (item = .timeslot ∧ 127 < value.toNat) ∨ (item = .mode ∧ (value.toNat = 0 ∨ 3 < value.toNat))
      ∨ (item = .modeSet ∧ (7 < value.toNat ∨ value.getLsbD 0 = false)) ∨ (item = .dtx ∧ 1 < value.toNat)) :
    stagedValue item value = none := by
  rcases h with ⟨rfl, hv⟩ | ⟨rfl, hv⟩ | ⟨rfl, hv⟩ | ⟨rfl, hv⟩
  · exact if_neg (by omega)
  · exact if_neg fun hm => by have := Mode.ofCode_isSome.mp hm; omega
  · exact if_neg fun ⟨hset, h16⟩ => hv.elim (by omega) fun h => by rw [h16] at h; cases h
  · exact if_neg (by omega)

end Stage

/-- Settles O39: the item held, and the refusals in the order of R139. -/
theorem stageHoldsTheItem : Obligations.StageHoldsTheItem := by
  refine ⟨fun o item value v s ha hi hp hh hl hv => ?_, fun o item value s ha => ⟨fun hi => ?_, fun hi => ⟨fun hp => ?_,
    fun hp => ⟨fun hh => ?_, fun hh => ⟨fun c hc hne => ?_, fun hl => ⟨fun hv => ?_, fun x hit hx hf hb hr => ?_⟩⟩⟩⟩⟩⟩
  · have hstaged : stagedValue item value = some (v, decide (v ≠ value)) :=
      stagedValue_of_range (hv.imp_left fun ⟨hit, hvv, x, hx, _⟩ => ⟨hit, hvv, x, hx⟩)
    have htaken : item = .timeslot → s.slotTaken (Fin.ofNat 128 v.toNat) o.channel = false := fun hit => by
      subst hit
      obtain ⟨-, rfl, x, rfl, hx⟩ := hv.resolve_right (by simp)
      rw [State.slotTaken, Slot.ofNat_eq (x := x) (by rw [BitVec.toNat_ofNat]; omega), Entry.takenFrom_eq_false]
      exact hx
    have hb := (stageEffect_touch hi hp hh hl).2 _ _ hstaged
    rw [if_neg fun ⟨hit, hx⟩ => Bool.false_ne_true ((htaken hit).symm.trans hx)] at hb
    refine ⟨_, { (s.line o.line).row with
        latched := some o.channel, slots := placeItem item v (s.line o.line).row.slots },
      State.exec_of_effect ha rfl hb, ?_,
      State.orderFrameTo_formReply (s.orderFrameTo_touch_mapRow o fun r =>
        { r with latched := some o.channel, slots := placeItem item v r.slots }) _ _ _,
      by simp [State.stageInto], by simp [State.stageInto], rfl, hp, fun p => mem_placeItem⟩
    have hresult : (if decide (v ≠ value) = true then Result.clamped else .done)
        = if v = value then .done else .clamped := by
      by_cases hvv : v = value <;> simp [hvv]
    rw [← hresult]
    exact State.answered_formReply _ _ _ _ _
  · exact stage_refused ha (by simp [stageEffect, hi])
  · exact stage_refused ha (by simp [stageEffect, hi, hp])
  · exact stage_refused ha (by simp [stageEffect, hi, hp, hh])
  · exact stage_refused ha (by simp [stageEffect, hi, hp, hh, hc, hne])
  · exact stage_refused ha ((stageEffect_touch hi hp hh hl).1 (stagedValue_none hv))
  · subst hit
    have hstaged : stagedValue .timeslot value = some (value, false) := if_pos (by omega)
    have htaken : s.slotTaken (Fin.ofNat 128 value.toNat) o.channel = true := by
      rw [State.slotTaken, Slot.ofNat_eq hx]
      exact Entry.takenFrom_eq_true hf hb hr
    exact stage_refused ha (((stageEffect_touch hi hp hh hl).2 _ _ hstaged).trans (if_pos ⟨rfl, htaken⟩))

end Sys2Proof.Machine
end

section
/-! SUPPORT. COMMIT: a row that waits PENDING on an ACTIVE channel, a row written at once into a half state, and the
refusals. -/

namespace Sys2Proof.Machine

/-! ### The timeslot of a committed row (R53, R141) -/

@[simp] theorem State.device_reserveFor (s : State) (r : Row) (c : Chan) : (s.reserveFor r c).device = s.device := by
  unfold State.reserveFor; split <;> simp
@[simp] theorem State.pool_reserveFor (s : State) (r : Row) (c : Chan) : (s.reserveFor r c).pool = s.pool := by
  unfold State.reserveFor; split <;> simp
@[simp] theorem State.link_reserveFor (s : State) (r : Row) (c : Chan) : (s.reserveFor r c).link = s.link := by
  unfold State.reserveFor; split <;> simp
@[simp] theorem State.chan_reserveFor (s : State) (r : Row) (c d : Chan) : (s.reserveFor r c).chan d = s.chan d := by
  unfold State.reserveFor; split <;> simp
@[simp] theorem State.life_reserveFor (s : State) (r : Row) (c d : Chan) : (s.reserveFor r c).life d = s.life d := by
  simp [State.life_def]

/-- The timeslot that a committed row names is reserved where it is FREE, and no other one changes (R53). -/
theorem State.slot_reserveFor (s : State) (r : Row) (c : Chan) (x : Slot) :
    (s.reserveFor r c).slot x
      = if r.timeslot? = some x ∧ (s.slot x).entry = .free then { s.slot x with entry := .reserved c } else s.slot x := by
  unfold State.reserveFor
  cases r.timeslot? with
  | none => simp
  | some y =>
    simp only [State.reserve, State.slot_mapSlot, Option.some.injEq]
    by_cases hy : y = x <;> simp [hy]

/-! ### The row applied in the order (R144) -/

/-- The apply of a row: its items written into the channel it is latched to, COMMIT_APPLIED recorded, the row EMPTY. -/
theorem State.applyRow_of_latched {s : State} {l : Line} {c : Chan} (hc : (s.line l).row.latched = some c) (pt : Bool) :
    s.applyRow l pt
      = ((s.written (s.line l).row c pt).record c l .commitApplied).mapLine l fun u => { u with row := .empty } := by
  simp only [State.applyRow, hc, State.written]

/-- The part once COMMIT has applied a row to a half state: the order taken, the timeslot reserved, the row applied. -/
def State.committed (s : State) (l : Line) (c : Chan) : State :=
  ((s.touch l).reserveFor (s.line l).row c).applyRow l false

/-- The same with the row's items written alone. -/
def State.committedWritten (s : State) (l : Line) (c : Chan) : State :=
  ((s.touch l).reserveFor (s.line l).row c).written (s.line l).row c false

section Committed

variable {s : State} {l : Line} {c : Chan} (hc : (s.line l).row.latched = some c)
include hc

theorem State.committed_eq :
    s.committed l c
      = ((s.committedWritten l c).record c l .commitApplied).mapLine l fun u => { u with row := .empty } := by
  have hrow : (((s.touch l).reserveFor (s.line l).row c).line l).row = (s.line l).row := by simp
  rw [State.committed, State.applyRow_of_latched (c := c) (by rw [hrow, hc]), hrow]
  rfl

theorem State.line_committed (k : Line) :
    (s.committed l c).line k = if l = k then { (s.touch l).line k with row := .empty } else (s.touch l).line k := by
  rw [State.committed_eq hc, State.line_mapLine]
  simp [State.committedWritten]

theorem State.slot_committed (x : Slot) : (s.committed l c).slot x = (s.committedWritten l c).slot x := by
  rw [State.committed_eq hc, State.slot_mapLine, State.slot_record]

theorem State.chan_committed_ne {d : Chan} (h : c ≠ d) : (s.committed l c).chan d = s.chan d := by
  rw [State.committed_eq hc, State.chan_mapLine, State.chan_record_ne _ h, State.committedWritten,
    State.chan_written_ne _ _ h, State.chan_reserveFor, State.chan_touch]

/-- The channel's context: its life as the row's items leave it, and COMMIT_APPLIED for the line. -/
theorem State.chan_committed :
    (s.committed l c).chan c
      = ({ s.chan c with life := (s.committedWritten l c).life c } : Channel).setEvents l
        (s.recordedFor l .commitApplied ((s.chan c).events l)) := by
  have hw : (s.committedWritten l c).chan c = { s.chan c with life := (s.committedWritten l c).life c } := by
    rw [State.committedWritten, State.chan_written_self, State.chan_reserveFor, State.chan_touch]
  rw [State.committed_eq hc, State.chan_mapLine, State.chan_record, if_pos rfl, hw,
    State.recordedFor_of_settings (s := s) (by simp [State.committedWritten])]
  cases l <;> rfl

end Committed

/-! ### COMMIT (R141) -/

/-- A timeslot that is not taken: the check of R141 on the row passes. -/
theorem State.not_slotTaken_named {s : State} {r : Row} {c : Chan}
    (ht : ∀ x, r.timeslot? = some x → (s.slot x).entry.takenFrom c = false) :
    (r.timeslot?.any fun x => s.slotTaken x c) = false := by
  cases hx : r.timeslot? with
  | none => rfl
  | some x => exact ht x hx

section Commit

variable {s : State} {o : Order} {c : Chan} (hc : (s.line o.line).row.latched = some c)
include hc

/-- The reply's channel field of COMMIT: the channel that the row is latched to (R141, R182). -/
theorem latchedField_touch : latchedField o.line (s.touch o.line) = BitVec.ofNat 7 c.val := by
  simp [latchedField, hc]

variable (ha : s.addressed o)
include ha

/-- A COMMIT that one of its checks refuses, answered with the latched channel. -/
theorem commit_refused {r : Result} (hb : commitEffect o.line (s.touch o.line) = (s.touch o.line).refuse r) :
    s.refuses (.commit o) o r (BitVec.ofNat 7 c.val) := by
  rw [← latchedField_touch hc]
  exact State.refuses_of_effect_field ha rfl hb

variable (hp : (s.line o.line).row.pending = false)
  (ht : ∀ x, (s.line o.line).row.timeslot? = some x → (s.slot x).entry.takenFrom c = false)
include hp ht

/-- COMMIT with every check passed on an ACTIVE channel: the timeslot reserved, the row PENDING. -/
theorem exec_commit_active (hl : (s.life c).lifecycle = .active) :
    exec (.commit o) s
      = .next ((((s.touch o.line).reserveFor (s.line o.line).row c).mapLine o.line fun u =>
        { u with row := { u.row with pending := true } }).formReply o.line .pending (BitVec.ofNat 7 c.val) 0) := by
  have hfree := State.not_slotTaken_named ht
  rw [← latchedField_touch hc]
  exact State.exec_of_effect_field ha rfl (by simp [commitEffect, hc, hp, hfree, hl])

/-- COMMIT with every check passed on a channel in a half state: the row applied in the order. -/
theorem exec_commit_half (hl : (s.life c).lifecycle ≠ .active) :
    exec (.commit o) s
      = .next ((s.committed o.line c).settle.formReply o.line .done (BitVec.ofNat 7 c.val) 0) := by
  have hfree := State.not_slotTaken_named ht
  rw [← latchedField_touch hc]
  exact State.exec_of_effect_field ha rfl (by simp [commitEffect, hc, hp, hfree, hl, State.committed, State.done])

/-- What COMMIT leaves on an ACTIVE channel, whatever the row names. -/
theorem commit_active (hl : (s.life c).lifecycle = .active) (slots : List Slot)
    (hs : ∀ x, (s.line o.line).row.timeslot? = some x → (s.slot x).entry = .free → x ∈ slots) :
    ∃ t, exec (.commit o) s = .next t ∧ t.answered o .pending (BitVec.ofNat 7 c.val) 0
      ∧ s.orderFrameTo t o [] slots { s.line o.line with row := { (s.line o.line).row with pending := true } }
      ∧ t.pool = s.pool ∧ t.link = s.link
      ∧ ∀ x, (s.line o.line).row.timeslot? = some x →
        t.slot x = if (s.slot x).entry = .free then { s.slot x with entry := .reserved c } else s.slot x := by
  refine ⟨_, exec_commit_active hc ha hp ht hl, State.answered_formReply _ _ _ _ _,
    State.orderFrameTo_formReply (State.orderFrameTo_mapRow (by simp) (fun _ _ => by simp) (fun x hx => ?_)
      (fun k => by simp) fun r => { r with pending := true }) _ _ _, by simp, by simp, fun x hx => ?_⟩
  · rw [State.slot_reserveFor, State.slot_touch, if_neg fun ⟨hn, hf⟩ => hx (hs x hn hf)]
  · rw [State.slot_formReply, State.slot_mapLine, State.slot_reserveFor, State.slot_touch]
    simp only [hx, true_and]

/-- What COMMIT leaves of everything but its channel and the timeslots, on a channel in a half state. -/
theorem commit_half (hl : (s.life c).lifecycle ≠ .active) (slots : List Slot)
    (hs : s.sameSlots (s.committedWritten o.line c) slots) :
    ∃ t, exec (.commit o) s = .next t ∧ t.answered o .done (BitVec.ofNat 7 c.val) 0
      ∧ s.orderFrameTo t o [c] slots
        { s.line o.line with row := { latched := none, slots := [], pending := false } }
      ∧ t.pool = s.pool ∧ t.link = s.link
      ∧ t.chan c = ({ s.chan c with life := (s.committedWritten o.line c).life c } : Channel).setEvents o.line
        (s.recordedFor o.line .commitApplied ((s.chan c).events o.line))
      ∧ ∀ x, t.slot x = (s.committedWritten o.line c).slot x := by
  refine ⟨_, exec_commit_half hc ha hp ht hl, State.answered_formReply _ _ _ _ _,
    State.orderFrameTo_formReply (State.orderFrameTo_settle (by simp [State.committed]) (fun d hd => ?_)
      (fun x hx => ?_) ?_ ?_) _ _ _, by simp [State.committed], by simp [State.committed], ?_, fun x => ?_⟩
  · exact State.chan_committed_ne hc fun hcd => hd (hcd ▸ List.mem_cons_self)
  · rw [State.slot_committed hc, hs x hx]
  · rw [State.line_committed hc, if_pos rfl]
    rfl
  · rw [State.line_committed hc, if_neg (ne_otherLine _), State.line_touch_other]
  · rw [State.chan_formReply, State.chan_settle, State.chan_committed hc]
  · rw [State.slot_formReply, State.slot_settle, State.slot_committed hc]

end Commit

/-! ### The row written into a half state -/

/-- A timeslot that COMMIT may move a HALF_F channel to from its own one: BOUND for the channel, or another one that is FREE
or RESERVED for it (R141, R145). -/
def State.openTo (s : State) (c : Chan) (own x : Slot) : Prop :=
  (s.slot x).entry = .bound c ∨ (x ≠ own ∧ ((s.slot x).entry = .free ∨ (s.slot x).entry = .reserved c))

theorem State.openTo.not_taken {s : State} {c : Chan} {own x : Slot} (h : s.openTo c own x) :
    (s.slot x).entry.takenFrom c = false := by
  rw [Entry.takenFrom_eq_false]
  rcases h with h | ⟨-, h | h⟩
  · exact .inr (.inl h)
  · exact .inl h
  · exact .inr (.inr h)

/-- COMMIT reserves no timeslot that is the channel's own. -/
theorem State.openTo.own_not_free {s : State} {c : Chan} {own : Slot} (h : s.openTo c own own) :
    (s.slot own).entry ≠ .free := by
  rcases h with h | ⟨hne, -⟩
  · rw [h]
    nofun
  · exact absurd rfl hne

section Written

variable {s : State} {c : Chan}

/-- An F row written into a HALF_F channel: the half set, its octets where they were (R54, R146). -/
theorem State.life_committedWritten_halfF {h : HalfF} (hl : s.life c = .halfF h) (hr : s.lineF.row.ok .F)
    (hc : s.lineF.row.latched = some c) :
    (s.committedWritten .F c).life c
      = .halfF { h with fixed := s.lineF.row.slots.foldl FixedHalf.itemBetween h.fixed } :=
  State.life_written_halfF (by simpa using hl) (hr.items hc).2

/-- The timeslots that an F row leaves, written into a HALF_F channel: all as they were but for the move to a named
timeslot other than the channel's own (R54, R145). -/
theorem State.slot_committedWritten_halfF {h : HalfF} (hl : s.life c = .halfF h) (hr : s.lineF.row.ok .F)
    (hc : s.lineF.row.latched = some c)
    (hx : ∀ x, s.lineF.row.timeslot? = some x → s.openTo c h.fixed.timeslot x) (y : Slot) :
    (s.committedWritten .F c).slot y
      = if s.lineF.row.timeslot?.getD h.fixed.timeslot = h.fixed.timeslot then s.slot y
        else if s.lineF.row.timeslot? = some y then
          { s.slot y with entry := .bound c, source := (s.slot h.fixed.timeslot).source }
        else if y = h.fixed.timeslot then { s.slot y with entry := .free, source := .idle }
        else s.slot y := by
  obtain ⟨e, he⟩ : ∃ e, e = (s.touch .F).reserveFor s.lineF.row c := ⟨_, rfl⟩
  have hel : e.life c = .halfF h := by simpa [he] using hl
  have hef : (e.life c).fixed? = some h.fixed := by rw [hel]; rfl
  have heslot : ∀ y, e.slot y = if s.lineF.row.timeslot? = some y ∧ (s.slot y).entry = .free then
      { s.slot y with entry := .reserved c } else s.slot y := fun y => by
    rw [he, State.slot_reserveFor, State.slot_touch]
  have hown : e.slot h.fixed.timeslot = s.slot h.fixed.timeslot := by
    rw [heslot, if_neg fun ⟨hn, hf⟩ => (hx _ hn).own_not_free hf]
  have hw : (s.committedWritten .F c).slot y
      = (e.moveTimeslot c false (s.lineF.row.timeslot?.getD h.fixed.timeslot)).slot y := by
    rw [he] at hel ⊢
    exact State.slot_written_halfF hel (hr.items hc).2 (hr.items hc).1 y
  rw [hw]
  cases hn : s.lineF.row.timeslot? with
  | none =>
    rw [Option.getD_none, if_pos rfl, State.moveTimeslot_own e c false h.fixed hef, heslot, hn]
    exact if_neg fun hy => nomatch hy.1
  | some x =>
    rw [Option.getD_some]
    by_cases hxo : x = h.fixed.timeslot
    · rw [if_pos hxo, hxo, State.moveTimeslot_own e c false h.fixed hef]
      by_cases hy : y = h.fixed.timeslot
      · rw [hy, hown]
      · rw [heslot, hn, if_neg fun hxy => hy ((Option.some.inj hxy.1).symm.trans hxo)]
    · rw [if_neg hxo, State.slot_moveTimeslot e c false h.fixed x y hef (Ne.symm hxo), hown]
      simp only [Bool.false_eq_true, if_false, Option.some.injEq, eq_comm (a := x)]
      by_cases hyx : y = x
      · rw [if_pos hyx, if_pos hyx, heslot, ← hyx]
        split <;> rfl
      · rw [if_neg hyx, if_neg hyx]
        by_cases hyo : y = h.fixed.timeslot
        · rw [if_pos hyo, if_pos hyo, hyo]
        · rw [if_neg hyo, if_neg hyo, heslot, hn, if_neg fun hxy => hyx (Option.some.inj hxy.1).symm]

/-- An R row written into a HALF_R channel, the active mode derived afresh where the row asks for it (R5, R144). -/
theorem State.life_committedWritten_halfR {h : HalfR} (hl : s.life c = .halfR h) (hr : s.lineR.row.ok .R)
    (hc : s.lineR.row.latched = some c) :
    (s.committedWritten .R c).life c = .halfR { h with radio :=
      (if s.lineR.row.changesMode = true then (s.lineR.row.slots.foldl RadioHalf.item h.radio).derived .m32
      else s.lineR.row.slots.foldl RadioHalf.item h.radio) } :=
  State.life_written_halfR (by simpa using hl) (hr.items hc).2 false

/-- An R row written into a HALF_R channel names no timeslot, and reserves none. -/
theorem State.slot_committedWritten_R (hr : s.lineR.row.ok .R) (y : Slot) :
    (s.committedWritten .R c).slot y = s.slot y := by
  have hn : (s.line .R).row.timeslot? = none := hr.timeslot?_R
  rw [State.committedWritten, State.slot_written _ hn, State.slot_reserveFor, hn, State.slot_touch]
  exact if_neg fun hy => nomatch hy.1

end Written

/-! ### COMMIT on a half state -/

section Half

variable {s : State} {o : Order} {c : Chan} (ha : s.addressed o) (hc : (s.line o.line).row.latched = some c)
  (hp : (s.line o.line).row.pending = false) (hr : s.rowsOk)
include ha hc hp hr

/-- COMMIT of an F row on a HALF_F channel. -/
theorem commit_halfF {h : HalfF} (ho : o.line = .F) (hl : s.life c = .halfF h)
    (hx : ∀ x, s.lineF.row.timeslot? = some x → s.openTo c h.fixed.timeslot x) :
    ∃ t fixed, exec (.commit o) s = .next t ∧ t.answered o .done (BitVec.ofNat 7 c.val) 0
      ∧ s.orderFrameTo t o [c] (h.fixed.timeslot :: s.lineF.row.timeslot?.toList)
        { s.line o.line with row := { latched := none, slots := [], pending := false } }
      ∧ t.pool = s.pool ∧ t.link = s.link
      ∧ t.chan c = { s.chan c with
          life := .halfF { h with fixed }, eventsF := s.recordedFor .F .commitApplied (s.chan c).eventsF }
      ∧ s.lineF.row.setsFixed h.fixed fixed ∧ fixed.feed = h.fixed.feed
      ∧ (s.lineF.row.timeslot? = none ∨ s.lineF.row.timeslot? = some h.fixed.timeslot →
        fixed.timeslot = h.fixed.timeslot ∧ t.slot h.fixed.timeslot = s.slot h.fixed.timeslot)
      ∧ ∀ x, s.lineF.row.timeslot? = some x → x ≠ h.fixed.timeslot →
        fixed.timeslot = x
          ∧ t.slot x = { s.slot x with entry := .bound c, source := (s.slot h.fixed.timeslot).source }
          ∧ t.slot h.fixed.timeslot = { s.slot h.fixed.timeslot with entry := .free, source := .idle } := by
  have hok : s.lineF.row.ok .F := (hr .F).1
  rw [ho] at hc hp
  have hslot := State.slot_committedWritten_halfF hl hok hc hx
  have hsame : s.sameSlots (s.committedWritten o.line c) (h.fixed.timeslot :: s.lineF.row.timeslot?.toList) := by
    intro y hy
    rw [List.mem_cons, Option.mem_toList, not_or] at hy
    rw [ho, hslot, if_neg hy.2, if_neg hy.1, ite_self]
  have hfixed := FixedHalf.foldl_itemBetween s.lineF.row.slots h.fixed
  have htimeslot : (s.lineF.row.slots.foldl FixedHalf.itemBetween h.fixed).timeslot
      = s.lineF.row.timeslot?.getD h.fixed.timeslot := by
    rw [hfixed]
    exact FixedHalf.foldl_item_names _ (hok.items hc).1 _
  obtain ⟨t, hexec, hanswered, hframe, hpool, hlink, hchan, htslot⟩ :=
    commit_half (by rwa [ho]) ha (by rwa [ho])
      (fun x hn => (hx x (by rwa [ho] at hn)).not_taken) (by simp [hl, Life.lifecycle])
      _ hsame
  rw [ho, State.life_committedWritten_halfF hl hok hc] at hchan
  simp only [ho, hslot] at htslot
  refine ⟨t, s.lineF.row.slots.foldl FixedHalf.itemBetween h.fixed, hexec, hanswered, hframe, hpool, hlink, hchan,
    Row.setsFixed_foldl_itemBetween _ (hok.items hc).1 _, by rw [hfixed], fun hn => ?_, fun x hn hne => ?_⟩
  · have hgetD : s.lineF.row.timeslot?.getD h.fixed.timeslot = h.fixed.timeslot := by
      rcases hn with hn | hn <;> rw [hn] <;> rfl
    exact ⟨htimeslot.trans hgetD, (htslot _).trans (if_pos hgetD)⟩
  · simp only [hn, Option.getD_some, hne, if_false, Option.some.injEq] at htimeslot htslot
    refine ⟨htimeslot, (htslot x).trans (if_pos rfl), ?_⟩
    rw [htslot, if_neg hne, if_pos rfl]

/-- COMMIT of an R row on a HALF_R channel. -/
theorem commit_halfR {h : HalfR} (ho : o.line = .R) (hl : s.life c = .halfR h) :
    ∃ t radio, exec (.commit o) s = .next t ∧ t.answered o .done (BitVec.ofNat 7 c.val) 0
      ∧ s.orderFrameTo t o [c] []
        { s.line o.line with row := { latched := none, slots := [], pending := false } }
      ∧ t.pool = s.pool ∧ t.link = s.link
      ∧ t.chan c = { s.chan c with
          life := .halfR { h with radio }, eventsR := s.recordedFor .R .commitApplied (s.chan c).eventsR }
      ∧ s.lineR.row.setsRadio .m32 h.radio radio := by
  have hok : s.lineR.row.ok .R := (hr .R).1
  rw [ho] at hc hp
  have hn : (s.line .R).row.timeslot? = none := hok.timeslot?_R
  obtain ⟨t, hexec, hanswered, hframe, hpool, hlink, hchan, -⟩ :=
    commit_half (by rwa [ho]) ha (by rwa [ho])
      (fun x hx => by rw [ho, hn] at hx; cases hx) (by simp [hl, Life.lifecycle]) []
      (fun y _ => by rw [ho, State.slot_committedWritten_R hok])
  rw [ho, State.life_committedWritten_halfR hl hok hc] at hchan
  exact ⟨t, _, hexec, hanswered, hframe, hpool, hlink, hchan, Row.setsRadio_foldl _ (hok.items hc).1 .m32 h.radio⟩

end Half

/-- Settles O40: the row that waits, the row applied to each half state, and the refusals. -/
theorem commitWaitsOrApplies : Obligations.CommitWaitsOrApplies := by
  refine ⟨fun o s c ha hc hp hl => ⟨fun hn => ?_, fun x hn hx => ?_⟩,
    fun o s c ha hc hp => ⟨fun h ho hr hl hx => commit_halfF ha hc hp hr ho hl hx,
      fun h ho hr hl => commit_halfR ha hc hp hr ho hl⟩,
    fun o s ha => ⟨fun hc => ?_, fun c hc => ⟨fun hp => ?_, fun x hp hn hf hb hr => ?_⟩⟩⟩
  · obtain ⟨t, hexec, hanswered, hframe, hpool, hlink, -⟩ :=
      commit_active hc ha hp (fun x hx => by rw [hn] at hx; cases hx) hl [] fun x hx => by rw [hn] at hx; cases hx
    exact ⟨t, hexec, hanswered, hframe, hpool, hlink⟩
  · have hown : ∀ y, (s.line o.line).row.timeslot? = some y → y = x := fun y hy => Option.some.inj (hy.symm.trans hn)
    obtain ⟨t, hexec, hanswered, hframe, hpool, hlink, hslot⟩ :=
      commit_active hc ha hp (fun y hy => hown y hy ▸ Entry.takenFrom_eq_false.mpr (hx.imp_right .inl)) hl [x]
        fun y hy _ => List.mem_singleton.mpr (hown y hy)
    exact ⟨t, hexec, hanswered, hframe, hpool, hlink, hslot x hn⟩
  · have hfield : latchedField o.line (s.touch o.line) = 0 := by simp [latchedField, hc]
    rw [← hfield]
    exact State.refuses_of_effect_field ha rfl (by simp [commitEffect, hc])
  · exact commit_refused hc ha (by simp [commitEffect, hc, hp])
  · have htaken : s.slotTaken x c = true := Entry.takenFrom_eq_true hf hb hr
    exact commit_refused hc ha (by simp [commitEffect, hc, hp, hn, htaken])

end Sys2Proof.Machine
end

section
/-! SUPPORT. The splice partners of the channels: what the plain updates and the operations of the streams leave of them. -/

namespace Sys2Proof.Machine

/-! ### The partners -/

/-- The splice partner of every channel, where it has one (R151). -/
def State.partners (s : State) (c : Chan) : Option Chan := (s.life c).partner?

theorem State.partners_of_active {s : State} {c : Chan} {a : Active} (h : s.life c = .active a) :
    s.partners c = a.partner := by
  rw [State.partners, h]
  rfl

/-- A change of the partners of one channel that has them already changes nothing. -/
theorem State.update_partners {s : State} {c : Chan} {p : Option Chan} (h : s.partners c = p) :
    Function.update s.partners c p = s.partners := by
  rw [← h, Function.update_eq_self]

theorem State.partners_of_life {s t : State} (h : ∀ c, t.life c = s.life c) : t.partners = s.partners :=
  funext fun c => by rw [State.partners, h, State.partners]

/-! ### The plain updates -/

/-- A change of one context changes the partner of its channel alone. -/
theorem State.partners_mapChan (s : State) (c : Chan) (f : Channel → Channel) :
    (s.mapChan c f).partners = Function.update s.partners c (f (s.chan c)).life.partner? := by
  funext d
  by_cases hd : d = c
  · rw [hd, Function.update_self, State.partners, State.life_def, State.chan_mapChan_self]
  · rw [Function.update_of_ne hd, State.partners, State.life_def, State.chan_mapChan_ne _ (Ne.symm hd)]
    rfl

theorem State.partners_mapChan_keeps (s : State) (c : Chan) {f : Channel → Channel}
    (h : ∀ ch, (f ch).life.partner? = ch.life.partner?) : (s.mapChan c f).partners = s.partners := by
  rw [State.partners_mapChan, h]
  exact State.update_partners rfl

theorem State.partners_setLife (s : State) (c : Chan) (l : Life) :
    (s.setLife c l).partners = Function.update s.partners c l.partner? :=
  s.partners_mapChan c _

theorem State.partners_mapActive (s : State) (c : Chan) {f : Active → Active} (h : ∀ a, (f a).partner = a.partner) :
    (s.mapActive c f).partners = s.partners := by
  unfold State.mapActive
  split
  · next a ha =>
    rw [State.partners_setLife]
    exact State.update_partners ((State.partners_of_active ha).trans (h a).symm)
  · rfl

@[simp] theorem State.partners_mapSlot (s : State) (x : Slot) (f : Timeslot → Timeslot) :
    (s.mapSlot x f).partners = s.partners := State.partners_of_life (by simp)

@[simp] theorem State.partners_mapLine (s : State) (l : Line) (f : LineUnit → LineUnit) :
    (s.mapLine l f).partners = s.partners := State.partners_of_life (by simp)

/-! ### Events, counters and records -/

@[simp] theorem State.partners_record (s : State) (c : Chan) (l : Line) (k : Kind) :
    (s.record c l k).partners = s.partners :=
  s.partners_mapChan_keeps c fun ch => by rw [Channel.life_record]

@[simp] theorem State.partners_warn (s : State) (c : Chan) (k : Cause) : (s.warn c k).partners = s.partners :=
  s.partners_mapChan_keeps c fun ch => by rw [Channel.life_record, Channel.life_record]

@[simp] theorem State.partners_count (s : State) (c : Chan) (k : Counter) : (s.count c k).partners = s.partners :=
  s.partners_mapChan_keeps c fun _ => rfl

@[simp] theorem State.partners_recordLine (s : State) (l : Line) (k : LineKind) :
    (s.recordLine l k).partners = s.partners := State.partners_of_life (by simp)

@[simp] theorem State.partners_settle (s : State) : s.settle.partners = s.partners := rfl

@[simp] theorem State.partners_startTransmit (s : State) : s.startTransmit.partners = s.partners :=
  State.partners_of_life (by simp)

@[simp] theorem State.partners_offerRecord (s : State) (r : Record) : (s.offerRecord r).partners = s.partners := by
  unfold State.offerRecord
  split
  · rw [State.partners_startTransmit, State.partners_count]
    rfl
  · simp

/-! ### The pool and what waits for it -/

@[simp] theorem State.partners_arbitrate (s : State) : s.arbitrate.partners = s.partners :=
  State.partners_of_life (by simp)

@[simp] theorem State.partners_unqueue (s : State) (c : Chan) (k : JobKind) : (s.unqueue c k).partners = s.partners := rfl

@[simp] theorem State.partners_abandonJob (s : State) (c : Chan) (k : JobKind) :
    (s.abandonJob c k).partners = s.partners := rfl

@[simp] theorem State.partners_setWindow (s : State) (c : Chan) (w : WindowState) :
    (s.setWindow c w).partners = s.partners :=
  s.partners_mapActive c fun a => by split <;> rfl

@[simp] theorem State.partners_decodeMiss (s : State) (c : Chan) : (s.decodeMiss c).partners = s.partners := by
  simp [State.decodeMiss]

@[simp] theorem State.partners_encodeMiss (s : State) (c : Chan) : (s.encodeMiss c).partners = s.partners := by
  simp [State.encodeMiss]

@[simp] theorem State.partners_setHeld (s : State) (c : Chan) (items : List Held) :
    (s.setHeld c items).partners = s.partners :=
  s.partners_mapActive c fun _ => rfl

@[simp] theorem State.partners_releaseItems (s : State) (c : Chan) (items : List Held) :
    (State.releaseItems c items s).partners = s.partners := by
  induction items generalizing s with
  | nil => simp [State.releaseItems]
  | cons i rest ih =>
    cases i with
    | record r => simp [State.releaseItems, ih]
    | job e n =>
      have hoffer : (s.offerEncode c e n).1.partners = s.partners := State.partners_of_life (by simp)
      rw [State.releaseItems]
      split <;> next t ht => rw [ht] at hoffer; simp [ih, hoffer]

@[simp] theorem State.partners_releaseHeld (s : State) (c : Chan) : (s.releaseHeld c).partners = s.partners := by
  simp [State.releaseHeld]

@[simp] theorem State.partners_handOn (s : State) (c : Chan) (i : Held) : (s.handOn c i).partners = s.partners := by
  unfold State.handOn
  split <;> simp

@[simp] theorem State.partners_offerDecode (s : State) (c : Chan) (f : SpeechFrame) (n : Nat) :
    (s.offerDecode c f n).partners = s.partners := by
  unfold State.offerDecode
  split
  · simp
  · have hoffer : ((s.setWindow c (.decoding f false)).offerJob
        { channel := c, deadline := n, work := .decode f, discard := false }).1.partners
          = (s.setWindow c (.decoding f false)).partners := State.partners_of_life (by simp)
    split <;> next t ht => rw [ht] at hoffer; simpa using hoffer

/-! ### Windows and arrivals -/

/-- A frame goes DIRECT or to the decoder by the partner, which stays (R154). -/
@[simp] theorem State.partners_takeFrame (s : State) (c : Chan) (f : Frame) (n : Nat) :
    (s.takeFrame c f n).partners = s.partners := by
  cases f with
  | quiet => simp [State.takeFrame]
  | speech f =>
    rw [State.takeFrame]
    split
    · split <;> simp
    · simp

@[simp] theorem State.partners_setUp (s : State) (c : Chan) (up : UplinkFields) : (s.setUp c up).partners = s.partners :=
  s.partners_mapActive c fun _ => rfl

@[simp] theorem State.partners_openWindow (s : State) (c : Chan) (up : UplinkFields) (comfort : Bool) (n : BitVec 8) :
    (s.openWindow c up comfort n).partners = s.partners := by
  unfold State.openWindow
  dsimp only
  split <;> simp

@[simp] theorem State.partners_insertArrival (s : State) (c : Chan) (up : UplinkFields) (n : BitVec 8) (f : Frame) :
    (s.insertArrival c up n f).partners = s.partners := by
  unfold State.insertArrival
  split
  · simp
  · split <;> simp

@[simp] theorem State.partners_resync (s : State) (c : Chan) (up : UplinkFields) (f : Frame) :
    (s.resync c up f).partners = s.partners := by
  simp [State.resync]

@[simp] theorem State.partners_windowArrival (s : State) (c : Chan) (w : Window) (f : Frame) :
    (s.windowArrival c w f).partners = s.partners := by
  unfold State.windowArrival
  split <;> simp

@[simp] theorem State.partners_classify (s : State) (c : Chan) (a : Active) (f : Frame) :
    (s.classify c a f).partners = s.partners := by
  have hqueued : ∀ (p : Prop) [Decidable p] r,
      (if p then s.count c .framesDuplicate else s.insertArrival c a.up r f).partners = s.partners := fun p _ r => by
    split <;> simp
  unfold State.classify
  dsimp only
  split
  · split
    · simp
    · simp
    · split
      · simp
      · split
        · exact hqueued _ _
        · simp
  · split
    · simp
    · split
      · simp
      · split
        · exact hqueued _ _
        · simp

@[simp] theorem State.partners_arrival (s : State) (octets : List Octet) : (s.arrival octets).partners = s.partners := by
  unfold State.arrival
  dsimp only
  split
  · rfl
  · split
    · split <;> simp
    · rfl

@[simp] theorem State.partners_closeWindow (s : State) (c : Chan) (w : Window) :
    (s.closeWindow c w).partners = s.partners := by
  unfold State.closeWindow
  split
  · simp
  · split
    · simp
    · split <;> simp
  all_goals rfl

/-! ### Playout instants -/

@[simp] theorem State.partners_primingInstant (s : State) (c : Chan) (a : Active) (r : Option (BitVec 8)) (n : Nat) :
    (s.primingInstant c a r n).partners = s.partners := by
  unfold State.primingInstant
  dsimp only
  split
  · split <;> simp
  · simp

@[simp] theorem State.partners_concealed (s : State) (c : Chan) (a : Active) (n : Nat) :
    (s.concealed c a n).partners = s.partners := by
  unfold State.concealed
  dsimp only
  split <;> simp

@[simp] theorem State.partners_playBlock (s : State) (a : Active) (b : Block) : (s.playBlock a b).partners = s.partners :=
  s.partners_mapSlot _ _

@[simp] theorem State.partners_plainInstant (s : State) (c : Chan) (a : Active) :
    (s.plainInstant c a).partners = s.partners := by
  unfold State.plainInstant
  split
  · simp
  · unfold State.runningInstant
    split
    · rfl
    · dsimp only
      split <;> simp

@[simp] theorem State.partners_sendToward (s : State) (b : Chan) (a : Active) (m : Sent) :
    (s.sendToward b a m).partners = s.partners := by
  cases m <;> simp [State.sendToward]

@[simp] theorem State.partners_advanceSequence (s : State) (b : Chan) : (s.advanceSequence b).partners = s.partners :=
  s.partners_mapActive b fun _ => rfl

@[simp] theorem State.partners_splicedInstant (s : State) (c : Chan) (a : Active) (b : Chan) (e : Active) :
    (s.splicedInstant c a b e).partners = s.partners := by
  unfold State.splicedInstant
  split
  · simp
  · split
    · rfl
    · dsimp only
      split <;> simp

/-! ### Boundaries -/

@[simp] theorem State.partners_reportActivity (s : State) (c : Chan) (a : Active) :
    (s.reportActivity c a).partners = s.partners :=
  State.partners_of_life fun d => s.life_reportActivity c d a

/-- A boundary moves its context on, with the partner that it has. -/
theorem State.partners_boundary {s : State} {c : Chan} {a : Active} (h : s.life c = .active a) :
    (s.boundary c a).partners = s.partners := by
  have hafter : (s.setLife c (.active (afterBoundary s.time a))).partners = s.partners :=
    (s.partners_setLife c _).trans (State.update_partners (p := a.partner) (State.partners_of_active h))
  unfold State.boundary
  dsimp only
  split <;> simp [hafter]

/-! ### Completions and start deadlines -/

@[simp] theorem State.partners_deliver (s : State) (j : Job) : (s.deliver j).partners = s.partners := by
  unfold State.deliver
  split
  · rfl
  · split
    · unfold State.encodeResult
      exact (State.partners_mapActive _ _ (by simp)).trans (s.partners_offerRecord _)
    · exact s.partners_mapActive _ fun a => by split <;> rfl

@[simp] theorem State.partners_afterCompletion (s : State) (j : Job) : (s.afterCompletion j).partners = s.partners := by
  unfold State.afterCompletion
  split
  · simp
  · unfold State.offerHeldDecode
    split
    · split <;> simp
    · rfl

@[simp] theorem State.partners_complete (s : State) (e : Fin 4) (j : Job) : (s.complete e j).partners = s.partners := by
  simp only [State.complete, State.partners_settle, State.partners_arbitrate, State.partners_afterCompletion,
    State.partners_deliver]
  rfl

@[simp] theorem State.partners_encodeDeadline (s : State) (c : Chan) : (s.encodeDeadline c).partners = s.partners := by
  unfold State.encodeDeadline
  split
  · simp
  · split
    · dsimp only
      split <;> simp [State.dropLateHeld]
    · rfl

@[simp] theorem State.partners_decodeDeadline (s : State) (c : Chan) : (s.decodeDeadline c).partners = s.partners := by
  unfold State.decodeDeadline
  split
  · simp
  · split <;> simp

/-! ### Rows -/

theorem Life.partner?_mapFixed (l : Life) (f : FixedHalf → FixedHalf) : (l.mapFixed f).partner? = l.partner? := by
  cases l <;> rfl

theorem Life.partner?_mapRadio (l : Life) (f : RadioHalf → RadioHalf) : (l.mapRadio f).partner? = l.partner? := by
  cases l <;> rfl

theorem Life.partner?_rederived (l : Life) : l.rederived.partner? = l.partner? := by cases l <;> rfl

theorem Life.partner?_applyItem (l : Life) (i : Item) (v : BitVec 16) : (l.applyItem i v).partner? = l.partner? := by
  cases i with
  | timeslot => rfl
  | gainToFixed | gainToRadio | quietThreshold => simp only [Life.applyItem, Life.partner?_mapFixed]
  | mode | modeSet | align | dtx => simp only [Life.applyItem, Life.partner?_mapRadio]

theorem State.partners_moveTimeslot (s : State) (c : Chan) (pt : Bool) (x : Slot) :
    (s.moveTimeslot c pt x).partners = s.partners := by
  unfold State.moveTimeslot
  split
  · rfl
  · dsimp only
    split
    · rfl
    · rw [State.partners_mapChan_keeps, State.partners_mapSlot, State.partners_mapSlot]
      exact fun ch => by simp only [Life.partner?_mapFixed]

theorem State.partners_applySlot (s : State) (c : Chan) (pt : Bool) (p : Item × BitVec 16) :
    (State.applySlot c pt s p).partners = s.partners := by
  unfold State.applySlot
  split
  · exact s.partners_moveTimeslot c pt _
  · exact s.partners_mapChan_keeps c fun ch => Life.partner?_applyItem _ _ _

@[simp] theorem State.partners_written (s : State) (r : Row) (c : Chan) (pt : Bool) :
    (s.written r c pt).partners = s.partners := by
  have hitems : (r.slots.foldl (State.applySlot c pt) s).partners = s.partners :=
    foldl_keeps State.partners _ (fun s p => s.partners_applySlot c pt p) _ s
  unfold State.written
  split
  · exact (State.partners_mapChan_keeps _ c fun ch => Life.partner?_rederived _).trans hitems
  · exact hitems

@[simp] theorem State.partners_applyRow (s : State) (l : Line) (pt : Bool) : (s.applyRow l pt).partners = s.partners := by
  cases hc : (s.line l).row.latched with
  | none => simp only [State.applyRow, hc]
  | some c =>
    rw [State.applyRow_of_latched hc, State.partners_mapLine, State.partners_record, State.partners_written]

@[simp] theorem State.partners_applyPending (s : State) (l : Line) (c : Chan) (pt : Bool) :
    (s.applyPending l c pt).partners = s.partners := by
  unfold State.applyPending
  split <;> simp

@[simp] theorem State.partners_applyBoth (s : State) (c : Chan) (pt : Bool) :
    (s.applyBoth c pt).partners = s.partners := by
  simp [State.applyBoth]

@[simp] theorem State.partners_loseRow (s : State) (l : Line) (c : Chan) : (s.loseRow l c).partners = s.partners :=
  State.partners_of_life fun d => by
    rw [State.life_def, State.chan_loseRow]
    split
    · cases l <;> rfl
    · rfl

/-! ### Frame syncs -/

/-- At a frame sync a context keeps its partner: only checks, timers and rings move (R49, R55, R170). -/
theorem Channel.partner?_onSync (s : State) (incoming : Vector Octet 128) (ch : Channel) :
    (ch.onSync s incoming).life.partner? = ch.life.partner? := by
  unfold Channel.onSync
  split
  · next h hl =>
    rw [hl]
    dsimp only
    split
    · unfold Channel.checkOctet
      split
      · rfl
      · dsimp only
        split
        · rw [Channel.life_record]
          rfl
        · rfl
    · rfl
  · next h hl => rw [hl]; rfl
  · next a hl => rw [hl]; rfl
  · rfl

@[simp] theorem State.partners_frameSync (s : State) (incoming : Vector Octet 128) :
    (s.frameSync incoming).partners = s.partners := by
  funext c
  rw [State.frameSync, State.partners_settle]
  simp only [State.partners, State.life, State.chan, Vector.getElem_map]
  exact Channel.partner?_onSync s incoming _

end Sys2Proof.Machine
end

section
/-! SUPPORT. What ends and what joins a splice: every command but SPLICE leaves the partner relation as it is or ends splices
in both directions, and SPLICE joins two channels in both directions; the statement about every step. -/

namespace Sys2Proof.Machine

/-! ### Splices that only end -/

/-- From `s` to `t` no channel gains a partner, and the partner relation stays symmetric and irreflexive (R151). -/
structure State.splicesEnd (s t : State) : Prop where
  partner  : ∀ a b, t.partners a = some b → s.partners a = some b
  spliceOk : s.spliceOk → t.spliceOk

/-- A channel without its partner, and the partner without it. -/
def State.partedFrom (s : State) (c b : Chan) : Chan → Option Chan :=
  Function.update (Function.update s.partners c none) b none

theorem State.partedFrom_eq_some {s : State} {c b x y : Chan} :
    s.partedFrom c b x = some y ↔ x ≠ c ∧ x ≠ b ∧ s.partners x = some y := by
  simp only [State.partedFrom, Function.update_apply]
  by_cases hb : x = b
  · simp [hb]
  · by_cases hc : x = c <;> simp [hb, hc]

theorem State.spliceOk_of_partners {s t : State} (h : t.partners = s.partners) (hs : s.spliceOk) : t.spliceOk := by
  intro a b (hab : t.partners a = some b)
  rw [h] at hab
  obtain ⟨hne, hba⟩ := hs a b hab
  exact ⟨hne, (congrFun h b).trans hba⟩

theorem State.splicesEnd.of_eq {s t : State} (h : t.partners = s.partners) : s.splicesEnd t :=
  ⟨fun _ _ hab => h ▸ hab, State.spliceOk_of_partners h⟩

theorem State.splicesEnd.refl (s : State) : s.splicesEnd s := .of_eq rfl

theorem State.splicesEnd.trans {s t u : State} (h : s.splicesEnd t) (h' : t.splicesEnd u) : s.splicesEnd u :=
  ⟨fun a b hab => h.partner a b (h'.partner a b hab), fun hs => h'.spliceOk (h.spliceOk hs)⟩

/-- Every splice ended. -/
theorem State.splicesEnd.of_none {s t : State} (h : ∀ c, t.partners c = none) : s.splicesEnd t :=
  have hno : ∀ a b, t.partners a ≠ some b := fun a b hab => by rw [h] at hab; cases hab
  ⟨fun a b hab => absurd hab (hno a b), fun _ a b hab => absurd hab (hno a b)⟩

/-- One splice ended: in a symmetric relation no third channel has one of the two as its partner. -/
theorem State.splicesEnd.of_parted {s t : State} {c b : Chan} (h : t.partners = s.partedFrom c b)
    (hb : s.partners c = some b) : s.splicesEnd t := by
  refine ⟨fun x y hxy => ?_, fun hs x y (hxy : t.partners x = some y) => ?_⟩
  · rw [h] at hxy
    exact (State.partedFrom_eq_some.mp hxy).2.2
  · rw [h] at hxy
    obtain ⟨hxc, hxb, hx⟩ := State.partedFrom_eq_some.mp hxy
    obtain ⟨hne, (hy : s.partners y = some x)⟩ := hs x y hx
    have hbc : s.partners b = some c := (hs c b hb).2
    refine ⟨hne, (congrFun h y).trans (State.partedFrom_eq_some.mpr ⟨?_, ?_, hy⟩)⟩
    · rintro rfl
      exact hxb (Option.some.inj (hy.symm.trans hb))
    · rintro rfl
      exact hxc (Option.some.inj (hy.symm.trans hbc))

/-- A fold of updates in which splices only end. -/
theorem State.splicesEnd.foldl {β : Type} {f : State → β → State} (hf : ∀ (s : State) b, s.splicesEnd (f s b)) (l : List β)
    (s : State) : s.splicesEnd (l.foldl f s) := by
  induction l generalizing s with
  | nil => exact .refl s
  | cons b l ih => exact (hf s b).trans (ih _)

/-- An event that is not due leaves the state as it is (log 3). -/
theorem State.splicesEnd.ifDue {s t : State} (h : s.splicesEnd t) (p : Prop) [Decidable p] :
    s.splicesEnd (if p then t else s) := by
  split
  · exact h
  · exact .refl s

/-! ### The end of a splice (R164) -/

theorem State.partners_sever (s : State) (c : Chan) : (s.sever c).partners = Function.update s.partners c none := by
  rw [State.sever, State.partners_record]
  unfold State.mapActive
  split
  · exact s.partners_setLife c _
  · next hc =>
    refine (State.update_partners ?_).symm
    unfold State.partners
    cases hl : s.life c with
    | active a => exact absurd hl (hc a)
    | free | halfF | halfR => rfl

@[simp] theorem State.partners_resume (s : State) (c : Chan) : (s.resume c).partners = s.partners :=
  s.partners_mapActive c fun _ => rfl

@[simp] theorem State.partners_redirect (s : State) (c : Chan) : (s.redirect c).partners = s.partners := by
  unfold State.redirect
  split <;> simp

theorem State.partners_endSplice (s : State) (c b : Chan) : (s.endSplice c b).partners = s.partedFrom c b := by
  have hsevered : ((s.sever c).sever b).partners = s.partedFrom c b := by
    rw [State.partners_sever, State.partners_sever, State.partedFrom]
  unfold State.endSplice
  dsimp only
  split <;> simpa using hsevered

/-- The streams of a channel stop: its splice ends for both channels, and it has no partner (R23). -/
theorem State.splicesEnd_stopStreams {s : State} {c : Chan} {a : Active} (hl : s.life c = .active a) :
    s.splicesEnd (s.stopStreams c a) ∧ (s.stopStreams c a).partners c = none := by
  have hc := State.partners_of_active hl
  cases hp : a.partner with
  | none =>
    have hstopped : (s.stopStreams c a).partners = s.partners := by
      rw [State.stopStreams_unspliced s c hp]
      rfl
    exact ⟨.of_eq hstopped, by rw [hstopped, hc, hp]⟩
  | some b =>
    have hstopped : (s.stopStreams c a).partners = s.partedFrom c b := by
      rw [State.stopStreams_spliced s c hp, State.partners_redirect, State.partnerResumed, State.partners_resume,
        State.partners_sever, State.partners_sever]
      rfl
    refine ⟨.of_parted hstopped (hc.trans hp), ?_⟩
    rw [hstopped, Option.eq_none_iff_forall_ne_some]
    exact fun y hy => (State.partedFrom_eq_some.mp hy).1 rfl

/-! ### Halves made and released -/

theorem State.partners_setLife_keeps {s : State} {c : Chan} {l : Life} (h : s.partners c = l.partner?) :
    (s.setLife c l).partners = s.partners :=
  (s.partners_setLife c l).trans (State.update_partners h)

theorem State.partners_abortCheck {s : State} {c : Chan} {h : HalfF} (hl : s.life c = .halfF h) :
    (s.abortCheck c h).partners = s.partners := by
  funext d
  rw [State.partners, State.life_def, State.chan_abortCheck hl]
  split
  · next hd => rw [State.partners, ← hd, hl]; rfl
  · rfl

/-- A half released: from ACTIVE the channel's splice ends, from a half state there is none (R20 to R24, R151). -/
theorem State.splicesEnd_releaseHalf (s : State) (l : Line) (c : Chan) : s.splicesEnd (s.releaseHalf l c) := by
  unfold State.releaseHalf
  split
  · next h hl =>
    have hc : s.partners c = none := by rw [State.partners, hl]; rfl
    refine .of_eq ?_
    rw [State.partners_loseRow, State.partners_setLife_keeps, State.freeSlot, State.partners_mapSlot,
      State.partners_abortCheck hl]
    rw [State.freeSlot, State.partners_mapSlot, State.partners_abortCheck hl, hc]
    rfl
  · next h hl =>
    have hc : s.partners c = none := by rw [State.partners, hl]; rfl
    refine .of_eq ?_
    rw [State.partners_loseRow, State.partners_setLife_keeps (hc.trans rfl)]
  · next a hl =>
    obtain ⟨hends, hc⟩ := State.splicesEnd_stopStreams hl
    refine hends.trans (.of_eq ?_)
    have hleft := State.partners_setLife_keeps (s := (s.stopStreams c a).freeSlot a.fixed.timeslot) (c := c)
      (l := .halfR { tag := a.tag, radio := a.radio.derived .m32, timer := s.halfWaitTimer .R })
      (by rw [State.freeSlot, State.partners_mapSlot, hc]; rfl)
    rw [State.partners_applyPending, State.partners_loseRow, State.partners_record, hleft, State.freeSlot,
      State.partners_mapSlot]
  · next a hl =>
    obtain ⟨hends, hc⟩ := State.splicesEnd_stopStreams hl
    refine hends.trans (.of_eq ?_)
    have hleft := State.partners_setLife_keeps (s := (s.stopStreams c a).idleSlot a.fixed.timeslot) (c := c)
      (l := .halfF { tag := a.tag, fixed := a.fixed, timer := s.halfWaitTimer .F, check := none })
      (by rw [State.idleSlot, State.partners_mapSlot, hc]; rfl)
    rw [State.partners_applyPending, State.partners_loseRow, State.partners_record, hleft, State.idleSlot,
      State.partners_mapSlot]
  · exact .refl s

/-! ### Taking an order -/

/-- An order leaves the partners as they are, or as its verb leaves them on the touched state. -/
theorem State.partners_takeOrder (s : State) (o : Order) (owned broadcast : Bool) (ch : State → BitVec 7)
    (body : State → Effect) :
    (takeOrder o owned broadcast ch body s).partners = s.partners
      ∨ (takeOrder o owned broadcast ch body s).partners = (body (s.touch o.line)).state.partners := by
  have htouch : (s.touch o.line).partners = s.partners := State.partners_of_life (by simp)
  have hcarried : (carryOut o owned body (s.touch o.line)).state.partners = s.partners
      ∨ (carryOut o owned body (s.touch o.line)).state.partners = (body (s.touch o.line)).state.partners := by
    unfold carryOut
    split
    · exact .inl htouch
    · split
      · exact .inl htouch
      · exact .inr rfl
  have hreply : ∀ (t : State) r n d, (t.formReply o.line r n d).partners = t.partners := fun t _ _ _ =>
    State.partners_of_life (by simp)
  unfold takeOrder
  split
  · exact .inl rfl
  · split
    · rw [State.partners_mapLine]
      split
      · exact hcarried
      · exact .inl htouch
    · split
      · simpa only [hreply] using hcarried
      · exact .inl (State.partners_mapLine _ _ _)

/-- In an order splices only end where they do in its verb. -/
theorem State.splicesEnd_takeOrder (s : State) (o : Order) (owned broadcast : Bool) (ch : State → BitVec 7)
    {body : State → Effect} (hbody : ∀ t : State, t.splicesEnd (body t).state) :
    s.splicesEnd (takeOrder o owned broadcast ch body s) := by
  have htouch : s.splicesEnd (s.touch o.line) := .of_eq (State.partners_of_life (by simp))
  rcases s.partners_takeOrder o owned broadcast ch body with h | h
  · exact .of_eq h
  · exact (htouch.trans (hbody _)).trans (.of_eq h)

/-! ### The orders on channels -/

/-- A context that enters ACTIVE has no partner (R12), and neither has a half. -/
theorem State.partners_bindEffect (c : Chan) (x : Slot) (p : Fin 8) (tag : BitVec 14) (s : State) :
    (bindEffect c x p tag s).state.partners = s.partners := by
  have hbound : (s.bindSlot x c).partners = s.partners := s.partners_mapSlot _ _
  unfold bindEffect
  dsimp only
  split
  · rfl
  · rfl
  · next hl =>
    split
    · rfl
    · split
      · rfl
      · rw [State.done, State.bindFree, State.partners_mapChan, hbound]
        exact State.update_partners (by rw [State.partners, hl]; rfl)
  · next h hl =>
    split
    · rfl
    · split
      · rfl
      · split
        · rfl
        · rw [State.done, State.bindHalfR, State.partners_settle, State.partners_record, State.partners_setLife, hbound]
          exact State.update_partners (by rw [State.partners, hl]; rfl)

theorem State.partners_attachEffect (c : Chan) (modeSet : BitVec 3) (requested : BitVec 2) (tag : BitVec 14) (s : State) :
    (attachEffect c modeSet requested tag s).state.partners = s.partners := by
  unfold attachEffect
  dsimp only
  split
  · rfl
  · rfl
  · rfl
  · next hl _ =>
    split
    · rfl
    · rw [State.attachFree, State.partners_mapChan]
      exact State.update_partners (by rw [State.partners, hl]; rfl)
  · next h _ hl _ =>
    split
    · rfl
    · split
      · rfl
      · rw [State.attachHalfF, State.partners_settle, State.partners_record, State.partners_setLife,
          State.partners_abortCheck hl]
        exact State.update_partners (by rw [State.partners, hl]; rfl)

theorem State.splicesEnd_releaseEffect (l : Line) (c : Chan) (s : State) :
    s.splicesEnd (releaseEffect l c s).state := by
  unfold releaseEffect
  split
  · exact (s.splicesEnd_releaseHalf l c).trans (.of_eq (State.partners_settle _))
  · exact .refl s

theorem State.partners_handoverEffect (c : Chan) (s : State) : (handoverEffect c s).state.partners = s.partners := by
  unfold handoverEffect
  split
  · simp [State.done, State.primeAnew]
  · rfl

theorem State.partners_checkEffect (c : Chan) (s : State) : (checkEffect c s).state.partners = s.partners := by
  unfold checkEffect
  split
  · next h hl =>
    split
    · rfl
    · split
      · rfl
      · rw [State.done, State.startCheck, State.partners_mapSlot, State.partners_mapChan]
        exact State.update_partners (by rw [State.partners, hl]; rfl)
  · rfl

theorem State.partners_joinSplice (s : State) (c : Chan) (a : Active) (partner : Chan) :
    (s.joinSplice c a partner).partners = Function.update s.partners c (some partner) := by
  rw [State.joinSplice, State.idleSlot, State.partners_mapSlot, State.partners_setLife]
  rfl

/-- SPLICE joins two different channels neither of which has a partner, or changes no partner (R152). -/
theorem State.partners_spliceEffect (a b : Chan) (s : State) :
    (spliceEffect a b s).state.partners = s.partners
      ∨ (a ≠ b ∧ s.partners a = none ∧ s.partners b = none
        ∧ (spliceEffect a b s).state.partners
          = Function.update (Function.update s.partners a (some b)) b (some a)) := by
  unfold spliceEffect
  split
  · next x y hx hy =>
    split
    · exact .inl rfl
    · next hok =>
      obtain ⟨hab, hxp, hyp⟩ : a ≠ b ∧ x.partner = none ∧ y.partner = none := by simpa using hok
      refine .inr ⟨hab, by rw [State.partners_of_active hx, hxp], by rw [State.partners_of_active hy, hyp], ?_⟩
      rw [State.done, State.partners_joinSplice, State.partners_joinSplice]
  · exact .inl rfl

theorem State.splicesEnd_unspliceEffect (c : Chan) (s : State) : s.splicesEnd (unspliceEffect c s).state := by
  unfold unspliceEffect
  split
  · next b hb =>
    have hends : s.splicesEnd (s.endSplice c b) := .of_parted (s.partners_endSplice c b) hb
    exact hends.trans (.of_eq (State.partners_settle _))
  · exact .refl s

/-! ### Orders that stage, read, clear and write -/

theorem State.partners_stageEffect (l : Line) (c : Chan) (i : Item) (v : BitVec 16) (s : State) :
    (stageEffect l c i v s).state.partners = s.partners := by
  unfold stageEffect
  dsimp only
  split
  · rfl
  · split
    · rfl
    · split
      · rfl
      · split
        · rfl
        · split
          · rfl
          · split
            · rfl
            · exact s.partners_mapLine l _

theorem State.partners_commitEffect (l : Line) (s : State) : (commitEffect l s).state.partners = s.partners := by
  have hreserve : ∀ row c, (s.reserveFor row c).partners = s.partners := fun row c =>
    State.partners_of_life (by simp)
  unfold commitEffect
  dsimp only
  split
  · rfl
  · split
    · rfl
    · split
      · rfl
      · split
        · exact (State.partners_mapLine _ l _).trans (hreserve _ _)
        · exact (State.partners_applyRow _ l false).trans (hreserve _ _)

theorem State.partners_cancelEffect (l : Line) (s : State) : (cancelEffect l s).state.partners = s.partners := by
  unfold cancelEffect
  split
  · rfl
  · exact s.partners_mapLine l _

theorem State.partners_readChannelEffect (l : Line) (c : Chan) (aspect : Fin 16) (s : State) :
    (readChannelEffect l c aspect s).state.partners = s.partners := by
  unfold readChannelEffect
  dsimp only
  split
  · exact s.partners_mapActive c fun a => by cases l <;> rfl
  · split
    · rfl
    · split <;> rfl

theorem State.partners_clearEventsEffect (l : Line) (c : Chan) (kinds : BitVec 9) (s : State) :
    (clearEventsEffect l c kinds s).state.partners = s.partners :=
  s.partners_mapChan_keeps c (f := fun ch => ch.setEvents l ((ch.events l).clear kinds)) fun ch => by cases l <;> rfl

theorem State.partners_selectItemEffect (l : Line) (sp : Space) (index : Fin 128) (s : State) :
    (selectItemEffect l sp index s).state.partners = s.partners := by
  unfold selectItemEffect
  split
  · rfl
  · exact s.partners_mapLine l _

theorem State.partners_writeItemEffect (l : Line) (v : BitVec 16) (s : State) :
    (writeItemEffect l v s).state.partners = s.partners := by
  have hstored : ∀ (t : State) clamped value, (t.stored l clamped value).state.partners = t.partners := fun t _ _ =>
    t.partners_mapLine l _
  have hsettings : ∀ f, (s.setSettings l f).partners = s.partners := fun f => s.partners_mapLine l _
  unfold writeItemEffect State.writeAt
  split
  · rfl
  · split
    · exact hstored _ _ _
    · unfold State.writePattern
      dsimp only
      split
      · rfl
      · split <;> exact hstored _ _ _
    · unfold State.writeSetting
      split
      · exact (hstored _ _ _).trans ((State.partners_mapLine _ l _).trans (hsettings _))
      · split
        · exact (hstored _ _ _).trans (hsettings _)
        · rfl
      · exact (hstored _ _ _).trans (hsettings _)
      · exact (hstored _ _ _).trans (hsettings _)
    · rfl

theorem State.partners_restartEffect (l : Line) (s : State) : (restartEffect l s).state.partners = s.partners := by
  unfold restartEffect
  dsimp only
  split
  · rfl
  · split
    · rfl
    · exact (State.partners_recordLine _ _ _).trans (s.partners_mapLine l _)

/-! ### Timers and events that are due -/

theorem State.splicesEnd_halfWaitExpiry (s : State) (c : Chan) : s.splicesEnd (s.halfWaitExpiry c) := by
  unfold State.halfWaitExpiry
  split
  · next l _ => exact (s.splicesEnd_releaseHalf l c).trans (.of_eq (by simp))
  · exact .refl s

/-- The channels of a list severed where they are spliced: none of them has a partner afterwards, the others keep theirs. -/
theorem State.partners_severed (l : List Chan) (s : State) (c : Chan) :
    (l.foldl (fun s c => if (s.life c).partner?.isSome then s.sever c else s) s).partners c
      = if c ∈ l then none else s.partners c := by
  induction l generalizing s with
  | nil => rfl
  | cons d l ih =>
    have hone : (if (s.life d).partner?.isSome = true then s.sever d else s).partners
        = Function.update s.partners d none := by
      split
      · exact s.partners_sever d
      · next hd => exact (State.update_partners (Option.not_isSome_iff_eq_none.mp hd)).symm
    rw [List.foldl_cons, ih, hone]
    by_cases hc : c = d
    · simp [hc]
    · simp [hc]

/-- A watchdog release ends every splice first (R164, R194). -/
theorem State.splicesEnd_watchdogRelease (s : State) (l : Line) : s.splicesEnd (s.watchdogRelease l) := by
  have hall : s.splicesEnd s.severAll := .of_none fun c => by
    rw [State.severAll, State.partners_severed, if_pos (List.mem_finRange c)]
  exact (hall.trans (.foldl (fun s c => s.splicesEnd_releaseHalf l c) _ _)).trans
    (.of_eq (State.partners_mapLine _ l _))

theorem State.splicesEnd_watchdogExpiry (s : State) (l : Line) : s.splicesEnd (s.watchdogExpiry l) := by
  have hsilent : s.splicesEnd ((s.mapLine l fun u => { u with silent := true, expiry := none }).recordLine (otherLine l)
      .partnerSilent) := .of_eq (by simp)
  unfold State.watchdogExpiry
  dsimp only
  refine State.splicesEnd.trans ?_ (.of_eq (State.partners_settle _))
  split
  · exact hsilent.trans (State.splicesEnd_watchdogRelease _ l)
  · exact hsilent

theorem State.partners_takeBoundary (s : State) (c : Chan) : (s.takeBoundary c).partners = s.partners := by
  unfold State.takeBoundary
  dsimp only
  split
  · next a ha => rw [State.partners_settle, State.partners_boundary ha, State.partners_applyBoth]
  · simp

theorem State.partners_takeInstant (s : State) (c : Chan) : (s.takeInstant c).partners = s.partners := by
  unfold State.takeInstant
  split
  · split
    · simp
    · dsimp only
      split <;> simp
  · rfl

theorem State.splicesEnd_spoil (s : State) (l : Line) : s.splicesEnd (s.spoil l) :=
  .ifDue (.of_eq (s.partners_mapLine l _)) _

theorem State.splicesEnd_noReply (s : State) (l : Line) : s.splicesEnd (s.noReply l) :=
  .ifDue (.of_eq (s.partners_mapLine l _)) _

/-! ### Power-on, the RESET pin and a restart -/

theorem State.partners_of_reset {t : State} (h : ∀ c, t.chan c = Channel.reset) (c : Chan) : t.partners c = none := by
  rw [State.partners, State.life_def, h]
  rfl

/-! ### The commands -/

/-- In every command but SPLICE splices only end. -/
theorem State.splicesEnd_exec (s : State) (i : Instr) (hi : ∀ o d, i ≠ .splice o d) :
    ∃ t, exec i s = .next t ∧ s.splicesEnd t := by
  have horder : ∀ {o owned broadcast ch} {body : State → Effect}, (∀ t, (body t).state.partners = t.partners) →
      s.splicesEnd (takeOrder o owned broadcast ch body s) := fun hbody =>
    s.splicesEnd_takeOrder _ _ _ _ fun t => .of_eq (hbody t)
  have hreset : ∀ {t : State}, (∀ c, t.chan c = Channel.reset) → s.splicesEnd t := fun ht =>
    .of_none (State.partners_of_reset ht)
  cases i with
  | powerOn => exact ⟨_, rfl, hreset s.chan_powerOn⟩
  | resetLow => exact ⟨_, rfl, hreset s.chan_powerOn⟩
  | resetRise =>
    refine ⟨_, rfl, .ifDue ?_ _⟩
    exact hreset s.chan_powerOn
  | ready strapF strapR =>
    refine ⟨_, rfl, .ifDue ?_ _⟩
    exact .of_eq rfl
  | frameSync incoming =>
    refine ⟨_, rfl, ?_⟩
    split
    · exact .of_eq rfl
    · refine .ifDue ?_ _
      exact .of_eq rfl
    · exact .ifDue (.of_eq (s.partners_frameSync incoming)) _
  | continuityTimeout c =>
    refine ⟨_, rfl, ?_⟩
    split
    · next h hl =>
      refine .ifDue (.of_eq ?_) _
      rw [State.partners_settle, State.partners_record, State.partners_mapChan]
      exact State.update_partners (by rw [State.partners, hl]; rfl)
    · exact .refl s
  | downlinkBoundary c => exact ⟨_, rfl, .ifDue (.of_eq (s.partners_takeBoundary c)) _⟩
  | playoutInstant c => exact ⟨_, rfl, .ifDue (.of_eq (s.partners_takeInstant c)) _⟩
  | windowStartDeadline c =>
    refine ⟨_, rfl, ?_⟩
    split
    · refine .ifDue (.of_eq ?_) _
      rw [State.partners_settle, State.partners_closeWindow]
    · exact .refl s
  | jobStartDeadline c kind =>
    refine ⟨_, rfl, .of_eq ?_⟩
    cases kind with
    | encode => exact s.partners_encodeDeadline c
    | decode => exact s.partners_decodeDeadline c
  | jobCompletion e =>
    refine ⟨_, rfl, ?_⟩
    split
    · refine .ifDue (.of_eq ?_) _
      rw [State.partners_complete]
      rfl
    · exact .refl s
  | recordArrival octets =>
    refine ⟨_, rfl, .ifDue (.of_eq ?_) _⟩
    rw [State.partners_arrival]
    rfl
  | recordTransmitted =>
    refine ⟨_, rfl, ?_⟩
    split
    · refine .ifDue (.of_eq ?_) _
      rw [State.partners_startTransmit]
      rfl
    · exact .refl s
  | halfWaitExpiry c => exact ⟨_, rfl, .ifDue (s.splicesEnd_halfWaitExpiry c) _⟩
  | watchdogExpiry l => exact ⟨_, rfl, .ifDue (s.splicesEnd_watchdogExpiry l) _⟩
  | restartLapse l =>
    exact ⟨_, rfl, .ifDue (.of_eq ((State.partners_recordLine _ l _).trans (s.partners_mapLine l _))) _⟩
  | earlySelectRise l => exact ⟨_, rfl, (s.splicesEnd_spoil l).trans (State.splicesEnd_noReply _ l)⟩
  | orderCrcMismatch l => exact ⟨_, rfl, (s.splicesEnd_spoil l).trans (State.splicesEnd_noReply _ l)⟩
  | extraClock l => exact ⟨_, rfl, s.splicesEnd_spoil l⟩
  | nop o => exact ⟨_, rfl, horder fun _ => rfl⟩
  | bind o x p tag => exact ⟨_, rfl, horder (State.partners_bindEffect _ x p tag)⟩
  | attach o modeSet requested tag => exact ⟨_, rfl, horder (State.partners_attachEffect _ modeSet requested tag)⟩
  | release o => exact ⟨_, rfl, s.splicesEnd_takeOrder _ _ _ _ (State.splicesEnd_releaseEffect _ _)⟩
  | handover o => exact ⟨_, rfl, horder (State.partners_handoverEffect _)⟩
  | check o => exact ⟨_, rfl, horder (State.partners_checkEffect _)⟩
  | splice o partner => exact absurd rfl (hi o partner)
  | unsplice o => exact ⟨_, rfl, s.splicesEnd_takeOrder _ _ _ _ (State.splicesEnd_unspliceEffect _)⟩
  | stage o item v => exact ⟨_, rfl, horder (State.partners_stageEffect _ _ item v)⟩
  | commit o => exact ⟨_, rfl, horder (State.partners_commitEffect _)⟩
  | cancel o => exact ⟨_, rfl, horder (State.partners_cancelEffect _)⟩
  | readChannel o aspect => exact ⟨_, rfl, horder (State.partners_readChannelEffect _ _ aspect)⟩
  | nextEvent o => exact ⟨_, rfl, horder fun _ => rfl⟩
  | clearEvents o kinds => exact ⟨_, rfl, horder (State.partners_clearEventsEffect _ _ kinds)⟩
  | clearLineEvents o kinds => exact ⟨_, rfl, horder fun t => t.partners_mapLine _ _⟩
  | selectItem o sp index => exact ⟨_, rfl, horder (State.partners_selectItemEffect _ sp index)⟩
  | readItem o => exact ⟨_, rfl, horder fun t => t.partners_mapLine _ _⟩
  | writeItem o v => exact ⟨_, rfl, horder (State.partners_writeItemEffect _ v)⟩
  | engineServiceOut o e => exact ⟨_, rfl, horder fun _ => rfl⟩
  | engineServiceIn o e => exact ⟨_, rfl, horder fun _ => State.partners_arbitrate _⟩
  | restart o => exact ⟨_, rfl, horder (State.partners_restartEffect _)⟩
  | restartExecution =>
    refine ⟨_, rfl, ?_⟩
    split
    · exact hreset (s.chan_restarted _)
    · exact .refl s
  | recordStart =>
    refine ⟨_, rfl, .ifDue ?_ _⟩
    exact .of_eq rfl
  | unknownVerb o code => exact ⟨_, rfl, horder fun _ => rfl⟩

/-- The order SPLICE as it is carried out or not: two channels without a partner joined, or the partners as they were. -/
theorem State.partners_splice (s : State) (o : Order) (d : Chan) :
    ∃ t, exec (.splice o d) s = .next t
      ∧ (t.partners = s.partners
        ∨ (o.channel ≠ d ∧ s.partners o.channel = none ∧ s.partners d = none
          ∧ t.partners = Function.update (Function.update s.partners o.channel (some d)) d (some o.channel))) := by
  have htouch : (s.touch o.line).partners = s.partners := State.partners_of_life (by simp)
  refine ⟨_, rfl, ?_⟩
  rcases s.partners_takeOrder o o.onF false (echo o) (spliceEffect o.channel d) with h | h
  · exact .inl h
  · rw [h, ← htouch]
    exact (s.touch o.line).partners_spliceEffect o.channel d

/-- Two different channels without a partner joined keep the relation symmetric and irreflexive. -/
theorem State.spliceOk_of_joined {s t : State} {a b : Chan} (hab : a ≠ b) (ha : s.partners a = none)
    (hb : s.partners b = none) (h : t.partners = Function.update (Function.update s.partners a (some b)) b (some a))
    (hs : s.spliceOk) : t.spliceOk := by
  have hta : t.partners a = some b := by rw [h, Function.update_of_ne hab, Function.update_self]
  have htb : t.partners b = some a := by rw [h, Function.update_self]
  have hother : ∀ x, x ≠ a → x ≠ b → t.partners x = s.partners x := fun x hxa hxb => by
    rw [h, Function.update_of_ne hxb, Function.update_of_ne hxa]
  intro x y (hxy : t.partners x = some y)
  by_cases hxa : x = a
  · subst hxa
    cases hta.symm.trans hxy
    exact ⟨hab, htb⟩
  by_cases hxb : x = b
  · subst hxb
    cases htb.symm.trans hxy
    exact ⟨hab.symm, hta⟩
  rw [hother x hxa hxb] at hxy
  obtain ⟨hne, (hyx : s.partners y = some x)⟩ := hs x y hxy
  have hya : y ≠ a := fun hy => by rw [hy, ha] at hyx; cases hyx
  have hyb : y ≠ b := fun hy => by rw [hy, hb] at hyx; cases hyx
  exact ⟨hne, (hother y hya hyb).trans hyx⟩

theorem State.spliceOk_exec {s t : State} {i : Instr} (hs : s.spliceOk) (hexec : exec i s = .next t) : t.spliceOk := by
  by_cases hi : ∃ o d, i = .splice o d
  · obtain ⟨o, d, rfl⟩ := hi
    obtain ⟨u, hu, hp⟩ := s.partners_splice o d
    rw [hexec] at hu
    cases hu
    rcases hp with hp | ⟨hne, ha, hb, hp⟩
    · exact State.spliceOk_of_partners hp hs
    · exact State.spliceOk_of_joined hne ha hb hp hs
  · obtain ⟨u, hu, hends⟩ := s.splicesEnd_exec i fun o d h => hi ⟨o, d, h⟩
    rw [hexec] at hu
    cases hu
    exact hends.spliceOk hs

/-- A step is a command on the state with the rest of the queue, or one core clock (log 1). -/
theorem State.spliceOk_step {s t : State} (hs : s.spliceOk) (hstep : step s = .next t) : t.spliceOk := by
  unfold Machine.step State.front at hstep
  cases hq : s.pending with
  | nil =>
    simp only [hq] at hstep
    cases hstep
    refine (State.splicesEnd.ifDue ?_ _).spliceOk hs
    exact .of_eq rfl
  | cons i rest =>
    simp only [hq] at hstep
    exact State.spliceOk_exec (s := { s with pending := rest }) hs hstep

/-- A partner that a channel has after a command it had before, or SPLICE has named the two. -/
theorem partner_of_exec {i : Instr} {s t : State} {a b : Chan} (hexec : exec i s = .next t)
    (hab : t.partners a = some b) :
    s.partners a = some b ∨ ∃ o d, i = .splice o d ∧ ((a = o.channel ∧ b = d) ∨ (a = d ∧ b = o.channel)) := by
  by_cases hi : ∃ o d, i = .splice o d
  · obtain ⟨o, d, rfl⟩ := hi
    obtain ⟨u, hu, hp⟩ := s.partners_splice o d
    rw [hexec] at hu
    cases hu
    rcases hp with hp | ⟨-, -, -, hp⟩
    · exact .inl (hp ▸ hab)
    · rw [hp] at hab
      by_cases had : a = d
      · rw [had, Function.update_self] at hab
        exact .inr ⟨o, d, rfl, .inr ⟨had, (Option.some.inj hab).symm⟩⟩
      rw [Function.update_of_ne had] at hab
      by_cases hac : a = o.channel
      · rw [hac, Function.update_self] at hab
        exact .inr ⟨o, d, rfl, .inl ⟨hac, (Option.some.inj hab).symm⟩⟩
      · rw [Function.update_of_ne hac] at hab
        exact .inl hab
  · obtain ⟨u, hu, hends⟩ := s.splicesEnd_exec i fun o d h => hi ⟨o, d, h⟩
    rw [hexec] at hu
    cases hu
    exact .inl (hends.partner a b hab)

/-- Power-on, RESET and a restart leave every context at its reset values (R11, R198, R199). -/
theorem chan_of_reset {s t : State} (h : exec .powerOn s = .next t ∨ exec .resetLow s = .next t
    ∨ (s.run = .resetLow ∧ exec .resetRise s = .next t)
    ∨ (s.restartDue ≠ none ∧ exec .restartExecution s = .next t)) (c : Chan) : t.chan c = Channel.reset := by
  rcases h with h | h | ⟨hrun, h⟩ | ⟨hdue, h⟩
  · cases h
    exact s.chan_powerOn c
  · cases h
    exact s.chan_powerOn c
  · change execResetRise s = _ at h
    rw [execResetRise, if_pos hrun] at h
    cases h
    exact s.chan_powerOn c
  · obtain ⟨⟨l, cause⟩, hd⟩ := Option.ne_none_iff_exists'.mp hdue
    change execRestartExecution s = _ at h
    simp only [execRestartExecution, hd] at h
    cases h
    exact s.chan_restarted cause c

/-- Settles O55: in every command but SPLICE splices only end, in both directions; SPLICE joins two channels in both. -/
theorem stepKeepsSplicesSymmetric : Obligations.StepKeepsSplicesSymmetric := by
  refine ⟨fun s t => State.spliceOk_step, fun i s t a b => partner_of_exec, fun s a b hab => ?_, fun s t h c => ?_⟩
  · cases hl : s.life a with
    | active x => exact ⟨x, rfl⟩
    | free | halfF | halfR => rw [hl] at hab; cases hab
  · exact State.partners_of_reset (chan_of_reset h) c

end Sys2Proof.Machine
end

section
/-! SUPPORT. SPLICE: two ACTIVE channels without a partner joined, and the refusals of the order. -/

namespace Sys2Proof.Machine

/-! ### One channel of a new splice (R152) -/

theorem State.chan_joinSplice (s : State) (c d : Chan) (a : Active) (partner : Chan) :
    (s.joinSplice c a partner).chan d
      = if c = d then { s.chan d with life := .active { a with partner := some partner, down := a.down.spliced } }
        else s.chan d := by
  rw [State.joinSplice, State.idleSlot, State.chan_mapSlot, State.chan_setLife]

theorem State.slot_joinSplice (s : State) (c : Chan) (a : Active) (partner : Chan) (x : Slot) :
    (s.joinSplice c a partner).slot x
      = if a.fixed.timeslot = x then { s.slot x with source := .idle } else s.slot x := by
  rw [State.joinSplice, State.idleSlot, State.slot_mapSlot, State.slot_setLife]

@[simp] theorem State.device_joinSplice (s : State) (c : Chan) (a : Active) (partner : Chan) :
    (s.joinSplice c a partner).device = s.device := by
  simp [State.joinSplice]

@[simp] theorem State.pool_joinSplice (s : State) (c : Chan) (a : Active) (partner : Chan) :
    (s.joinSplice c a partner).pool = s.pool := by
  simp [State.joinSplice]

@[simp] theorem State.link_joinSplice (s : State) (c : Chan) (a : Active) (partner : Chan) :
    (s.joinSplice c a partner).link = s.link := by
  simp [State.joinSplice]

@[simp] theorem State.line_joinSplice (s : State) (c : Chan) (a : Active) (partner : Chan) (k : Line) :
    (s.joinSplice c a partner).line k = s.line k := by
  simp [State.joinSplice]

/-! ### Verbs of the F line (R181) -/

section VerbsOfF

variable {s : State} {o : Order} {i : Instr} {broadcast : Bool} {body : State → Effect}
  (hi : exec i s = .next (takeOrder o o.onF broadcast (echo o) body s))
include hi

/-- A verb of the F line issued on F passes the check of its line. -/
theorem exec_of_onF (ho : o.line = .F) : exec i s = .next (takeOrder o true broadcast (echo o) body s) := by
  rw [hi, Order.onF, ho]
  rfl

/-- A verb of the F line issued on R is refused. -/
theorem State.refuses_of_onR (ha : s.addressed o) (ho : o.line = .R) : s.refuses i o .notOwner o.echoed := by
  rw [Order.onF, ho] at hi
  exact State.refuses_of_not_owned ha hi

end VerbsOfF

/-! ### SPLICE (R152) -/

/-- SPLICE carried out only on two different ACTIVE channels without a partner. -/
theorem spliceEffect_refused {s : State} {a b : Chan}
    (h : a = b ∨ (s.life a).lifecycle ≠ .active ∨ (s.life b).lifecycle ≠ .active ∨ (s.life a).partner? ≠ none
      ∨ (s.life b).partner? ≠ none) : spliceEffect a b s = s.refuse .wrongState := by
  unfold spliceEffect
  split
  · next x y hx hy =>
    rw [if_pos]
    simpa [hx, hy, Life.lifecycle, Life.partner?] using h
  · rfl

theorem splice_joins {o : Order} {b : Chan} {s : State} {x y : Active} (ha : s.addressed o) (ho : o.line = .F)
    (hab : o.channel ≠ b) (hx : s.life o.channel = .active x) (hy : s.life b = .active y) (hxp : x.partner = none)
    (hyp : y.partner = none) :
    ∃ t, exec (.splice o b) s = .next t ∧ t.answered o .done o.echoed 0
      ∧ s.orderFrame t o [o.channel, b] [x.fixed.timeslot, y.fixed.timeslot] ∧ t.pool = s.pool ∧ t.link = s.link
      ∧ t.slot x.fixed.timeslot = { s.slot x.fixed.timeslot with source := .idle }
      ∧ t.slot y.fixed.timeslot = { s.slot y.fixed.timeslot with source := .idle }
      ∧ t.chan o.channel
        = { s.chan o.channel with life := .active { x with partner := some b, down := x.down.spliced } }
      ∧ t.chan b = { s.chan b with life := .active { y with partner := some o.channel, down := y.down.spliced } } := by
  obtain ⟨e, he⟩ : ∃ e, e = ((s.touch o.line).joinSplice o.channel x b).joinSplice b y o.channel := ⟨_, rfl⟩
  have heffect : spliceEffect o.channel b (s.touch o.line) = e.done := by
    simp [spliceEffect, hx, hy, hab, hxp, hyp, he]
  have hchan : ∀ d, e.chan d
      = if b = d then { s.chan d with life := .active { y with partner := some o.channel, down := y.down.spliced } }
        else if o.channel = d then
          { s.chan d with life := .active { x with partner := some b, down := x.down.spliced } }
        else s.chan d := fun d => by
    rw [he, State.chan_joinSplice, State.chan_joinSplice, State.chan_touch]
    by_cases hb : b = d
    · rw [if_pos hb, if_pos hb, if_neg fun hc => hab (hc.trans hb.symm)]
    · rw [if_neg hb, if_neg hb]
  have hslot : ∀ z, e.slot z
      = if x.fixed.timeslot = z ∨ y.fixed.timeslot = z then { s.slot z with source := .idle } else s.slot z := fun z => by
    rw [he, State.slot_joinSplice, State.slot_joinSplice, State.slot_touch]
    by_cases hxz : x.fixed.timeslot = z <;> by_cases hyz : y.fixed.timeslot = z <;> simp [hxz, hyz]
  refine ⟨_, State.exec_of_effect ha (exec_of_onF rfl ho) heffect, State.answered_formReply _ _ _ _ _,
    State.orderFrameTo_formReply (State.orderFrame_of_lines (by simp [he]) (fun d hd => ?_) (fun z hz => ?_)
      fun k => by simp [he]) _ _ _, by simp [he], by simp [he], ?_, ?_, ?_, ?_⟩
  · have hne : o.channel ≠ d ∧ b ≠ d := by simpa [eq_comm] using hd
    rw [hchan, if_neg hne.2, if_neg hne.1]
  · rw [hslot, if_neg (by simpa [eq_comm] using hz)]
  · rw [State.slot_formReply, hslot, if_pos (.inl rfl)]
  · rw [State.slot_formReply, hslot, if_pos (.inr rfl)]
  · rw [State.chan_formReply, hchan, if_neg (Ne.symm hab), if_pos rfl]
  · rw [State.chan_formReply, hchan, if_pos rfl]

/-- Settles O37: the two joins on the touched state, one after the other, and the refusals. -/
theorem spliceJoinsTwoChannels : Obligations.SpliceJoinsTwoChannels := by
  refine ⟨fun o b s x y ha ho hab hx hy hxp hyp => splice_joins ha ho hab hx hy hxp hyp,
    fun o b s ha => ⟨fun ho => ?_, fun ho h => ?_⟩⟩
  · exact State.refuses_of_onR (body := spliceEffect o.channel b) rfl ha ho
  · exact State.refuses_of_effect (body := spliceEffect o.channel b) ha (exec_of_onF rfl ho)
      (spliceEffect_refused (by simpa using h))

end Sys2Proof.Machine
end

section
/-! SUPPORT. UNSPLICE: a splice ended with both channels ACTIVE, their downlinks resumed and their DIRECT windows offered. -/

namespace Sys2Proof.Machine

/-! ### Both downlinks resumed (R164 steps 1 to 3) -/

theorem State.chan_resume_self {s : State} {c : Chan} {a : Active} (h : (s.chan c).life = .active a) :
    (s.resume c).chan c = { s.chan c with
      life := .active { a with down := { a.down with
        boundary := some (s.nextAt a.down.phase), ring := emptyRing, collecting := false } } } := by
  rw [State.resume, State.chan_mapActive_self, Channel.mapActive_of_active h]

/-- A splice of two channels ended, before their DIRECT windows are looked at. -/
def State.bothResumed (s : State) (a b : Chan) : State := (((s.sever a).sever b).resume a).resume b

@[simp] theorem State.device_bothResumed (s : State) (a b : Chan) : (s.bothResumed a b).device = s.device := by
  simp [State.bothResumed]

@[simp] theorem State.pool_bothResumed (s : State) (a b : Chan) : (s.bothResumed a b).pool = s.pool := by
  simp [State.bothResumed]

@[simp] theorem State.line_bothResumed (s : State) (a b : Chan) (k : Line) : (s.bothResumed a b).line k = s.line k := by
  simp [State.bothResumed]

theorem State.chan_bothResumed_ne (s : State) {a b d : Chan} (ha : a ≠ d) (hb : b ≠ d) :
    (s.bothResumed a b).chan d = s.chan d := by
  rw [State.bothResumed, State.chan_resume_ne _ hb, State.chan_resume_ne _ ha, State.chan_sever, if_neg hb,
    State.chan_sever, if_neg ha]

/-- The context of a channel whose splice has ended and whose downlink resumes (R164). -/
def State.resumedChan (s : State) (c : Chan) (a : Active) : Channel :=
  { s.chan c with
    life := .active (a.resumed (s.nextAt a.down.phase))
    eventsF := s.recordedFor .F .spliceEnded (s.chan c).eventsF }

section Spliced

variable {s : State} {a b : Chan} {x y : Active} (hab : a ≠ b) (hx : s.life a = .active x) (hy : s.life b = .active y)

include hab hx in
theorem State.chan_bothResumed_left : (s.bothResumed a b).chan a = s.resumedChan a x := by
  have hx' : (s.chan a).life = .active x := hx
  have hsevered : ((s.sever a).sever b).chan a
      = { s.chan a with
          life := .active { x with partner := none }
          eventsF := s.recordedFor .F .spliceEnded (s.chan a).eventsF } := by
    rw [State.chan_sever, if_neg hab.symm, State.chan_sever, if_pos rfl, Channel.mapActive_of_active hx']
  have hnext : ((s.sever a).sever b).nextAt x.down.phase = s.nextAt x.down.phase := State.nextAt_of_device (by simp) _
  rw [State.bothResumed, State.chan_resume_ne _ hab.symm,
    State.chan_resume_self (a := { x with partner := none }) (by rw [hsevered]), hsevered, hnext]
  rfl

include hab hy in
theorem State.chan_bothResumed_right : (s.bothResumed a b).chan b = s.resumedChan b y := by
  have hy' : (s.chan b).life = .active y := hy
  have hsevered : (((s.sever a).sever b).resume a).chan b
      = { s.chan b with
          life := .active { y with partner := none }
          eventsF := s.recordedFor .F .spliceEnded (s.chan b).eventsF } := by
    rw [State.chan_resume_ne _ hab, State.chan_sever, if_pos rfl, State.chan_sever, if_neg hab,
      Channel.mapActive_of_active hy', State.recordedFor_of_settings (s := s) (by simp)]
  have hnext : (((s.sever a).sever b).resume a).nextAt y.down.phase = s.nextAt y.down.phase :=
    State.nextAt_of_device (by simp) _
  rw [State.bothResumed, State.chan_resume_self (a := { y with partner := none }) (by rw [hsevered]), hsevered, hnext]
  rfl

/-! ### The DIRECT windows (R164 step 4) -/

/-- A channel that has resumed has the DIRECT window that it had. -/
theorem State.directFrame_of_resumed {t : State} (hx : s.life a = .active x) (ht : t.chan a = s.resumedChan a x) :
    t.directFrame a = s.directFrame a :=
  State.directFrame_of_up hx (y := x.resumed (s.nextAt x.down.phase)) (by rw [State.life_def, ht]; rfl) rfl

theorem State.directFrame_redirect_ne (s : State) {c d : Chan} (h : c ≠ d) :
    (s.redirect c).directFrame d = s.directFrame d := by
  unfold State.directFrame
  rw [State.life_def, State.chan_redirect_ne s h, State.life_def]

/-- A DIRECT window of a channel that has resumed in an event from `s` has its DECODE offered: what the channel is left as. -/
theorem State.unspliced_redirect {q : State}
    (hset : ∀ k, (q.line k).settings = (s.line k).settings) (hx : s.life a = .active x)
    (hq : q.chan a = s.resumedChan a x) {f : SpeechFrame} {deadline : Nat} (hf : s.directFrame a = some (f, deadline)) :
    ∃ w, q.decodeOffered (q.redirect a) a f deadline w
      ∧ s.unspliced (q.redirect a) a (x.resumed (s.nextAt x.down.phase)) w := by
  have hqf : q.directFrame a = some (f, deadline) := (State.directFrame_of_resumed hx hq).trans hf
  have hql : q.life a = .active (x.resumed (s.nextAt x.down.phase)) := by rw [State.life_def, hq]; rfl
  obtain ⟨z, comfort, expected, hz, hstream⟩ := State.directFrame_eq_some hqf
  cases hql.symm.trans hz
  obtain ⟨w, hoffer, hlife, hcont, hcount, hF, hR⟩ := State.offerDecode_spec hql hstream f deadline
  rw [State.redirect_of_some hqf]
  refine ⟨w, hoffer, hlife, ?_, fun k => ?_, ?_, ?_⟩
  · rw [hcont, hq]
    rfl
  · rw [hcount, hq]
    rfl
  · rw [hF, State.warnedFor_of_settings (hset .F), hq]
    rfl
  · rw [hR, State.warnedFor_of_settings (hset .R), hq]
    rfl

/-- Two DIRECT windows of channels that have resumed, offered one after the other: the first offer finds the pool of `s`, the
second the one that the first leaves. -/
theorem State.unspliced_redirect_both {q : State} (hp : q.pool = s.pool) (hd : q.device = s.device)
    (hset : ∀ k, (q.line k).settings = (s.line k).settings) (hab : a ≠ b) (hx : s.life a = .active x)
    (hy : s.life b = .active y) (hqa : q.chan a = s.resumedChan a x) (hqb : q.chan b = s.resumedChan b y)
    {f g : SpeechFrame} {m n : Nat} (hf : s.directFrame a = some (f, m)) (hg : s.directFrame b = some (g, n)) :
    ∃ w w', s.decodeOffered (q.redirect a) a f m w
      ∧ (q.redirect a).decodeOffered ((q.redirect a).redirect b) b g n w'
      ∧ s.unspliced ((q.redirect a).redirect b) a (x.resumed (s.nextAt x.down.phase)) w
      ∧ s.unspliced ((q.redirect a).redirect b) b (y.resumed (s.nextAt y.down.phase)) w' := by
  obtain ⟨w, hoffer, hleft⟩ := State.unspliced_redirect hset hx hqa hf
  obtain ⟨w', hoffer', hleft'⟩ := State.unspliced_redirect (q := q.redirect a) (fun k => by rw [State.line_redirect, hset])
    hy ((q.chan_redirect_ne hab).trans hqb) hg
  exact ⟨w, w', State.decodeOffered_of_eq hp hd hoffer, hoffer',
    State.unspliced_of_eq rfl (fun _ => rfl) (State.chan_redirect_ne _ hab.symm) hleft, hleft'⟩

/-! ### The end of a splice (R164) -/

/-- The DIRECT windows of both channels are offered in the order of the Job Queue (R126; notes/assumptions/9.md). -/
theorem State.endSplice_eq (s : State) (a b : Chan) :
    s.endSplice a b
      = if (decide ((s.bothResumed a b).directDeadline a < (s.bothResumed a b).directDeadline b)
            || (decide ((s.bothResumed a b).directDeadline a = (s.bothResumed a b).directDeadline b) && decide (a < b)))
          = true then ((s.bothResumed a b).redirect a).redirect b
        else ((s.bothResumed a b).redirect b).redirect a := rfl

theorem State.chan_endSplice_ne (s : State) {a b d : Chan} (ha : a ≠ d) (hb : b ≠ d) :
    (s.endSplice a b).chan d = s.chan d := by
  rw [State.endSplice_eq]
  split
  · rw [State.chan_redirect_ne _ hb, State.chan_redirect_ne _ ha, State.chan_bothResumed_ne s ha hb]
  · rw [State.chan_redirect_ne _ ha, State.chan_redirect_ne _ hb, State.chan_bothResumed_ne s ha hb]

include hab hx in
theorem State.directFrame_bothResumed_left : (s.bothResumed a b).directFrame a = s.directFrame a :=
  State.directFrame_of_resumed hx (State.chan_bothResumed_left hab hx)

include hab hy in
theorem State.directFrame_bothResumed_right : (s.bothResumed a b).directFrame b = s.directFrame b :=
  State.directFrame_of_resumed hy (State.chan_bothResumed_right hab hy)

include hab hx in
theorem State.endSplice_of_left_none (hf : s.directFrame a = none) :
    s.endSplice a b = (s.bothResumed a b).redirect b := by
  have hq := (State.directFrame_bothResumed_left hab hx).trans hf
  rw [State.endSplice_eq]
  split
  · rw [State.redirect_of_none hq]
  · exact State.redirect_of_none ((State.directFrame_redirect_ne _ hab.symm).trans hq)

include hab hy in
theorem State.endSplice_of_right_none (hg : s.directFrame b = none) :
    s.endSplice a b = (s.bothResumed a b).redirect a := by
  have hq := (State.directFrame_bothResumed_right hab hy).trans hg
  rw [State.endSplice_eq]
  split
  · exact State.redirect_of_none ((State.directFrame_redirect_ne _ hab).trans hq)
  · rw [State.redirect_of_none hq]

include hab hx hy

/-- Where neither window is DIRECT the pool stays. -/
theorem State.pool_endSplice (hf : s.directFrame a = none) (hg : s.directFrame b = none) :
    (s.endSplice a b).pool = s.pool := by
  rw [State.endSplice_of_left_none hab hx hf,
    State.redirect_of_none ((State.directFrame_bothResumed_right hab hy).trans hg), State.pool_bothResumed]

omit hy in
theorem State.chan_endSplice_left (hf : s.directFrame a = none) : (s.endSplice a b).chan a = s.resumedChan a x := by
  rw [State.endSplice_of_left_none hab hx hf, State.chan_redirect_ne _ hab.symm, State.chan_bothResumed_left hab hx]

omit hx in
theorem State.chan_endSplice_right (hg : s.directFrame b = none) : (s.endSplice a b).chan b = s.resumedChan b y := by
  rw [State.endSplice_of_right_none hab hy hg, State.chan_redirect_ne _ hab, State.chan_bothResumed_right hab hy]

/-- The window of the first channel DIRECT alone. -/
theorem State.unspliced_endSplice_left (hg : s.directFrame b = none) {f : SpeechFrame} {n : Nat}
    (hf : s.directFrame a = some (f, n)) :
    ∃ w, s.decodeOffered (s.endSplice a b) a f n w
      ∧ s.unspliced (s.endSplice a b) a (x.resumed (s.nextAt x.down.phase)) w := by
  rw [State.endSplice_of_right_none hab hy hg]
  obtain ⟨w, hoffer, hleft⟩ := State.unspliced_redirect (q := s.bothResumed a b) (fun k => by simp) hx
    (State.chan_bothResumed_left hab hx) hf
  exact ⟨w, State.decodeOffered_of_eq (by simp) (by simp) hoffer, hleft⟩

/-- The window of the second channel DIRECT alone. -/
theorem State.unspliced_endSplice_right (hf : s.directFrame a = none) {g : SpeechFrame} {n : Nat}
    (hg : s.directFrame b = some (g, n)) :
    ∃ w, s.decodeOffered (s.endSplice a b) b g n w
      ∧ s.unspliced (s.endSplice a b) b (y.resumed (s.nextAt y.down.phase)) w := by
  rw [State.endSplice_of_left_none hab hx hf]
  obtain ⟨w, hoffer, hleft⟩ := State.unspliced_redirect (q := s.bothResumed a b) (fun k => by simp) hy
    (State.chan_bothResumed_right hab hy) hg
  exact ⟨w, State.decodeOffered_of_eq (by simp) (by simp) hoffer, hleft⟩

/-- Both windows DIRECT: the two DECODEs are offered in the order of the Job Queue, the second to the pool that the first
leaves. -/
theorem State.unspliced_endSplice_both {f g : SpeechFrame} {m n : Nat} (hf : s.directFrame a = some (f, m))
    (hg : s.directFrame b = some (g, n)) :
    ∃ u w w', u.device = s.device
      ∧ s.unspliced (s.endSplice a b) a (x.resumed (s.nextAt x.down.phase)) w
      ∧ s.unspliced (s.endSplice a b) b (y.resumed (s.nextAt y.down.phase)) w'
      ∧ (m < n ∨ (m = n ∧ a < b) → s.decodeOffered u a f m w ∧ u.decodeOffered (s.endSplice a b) b g n w')
      ∧ (n < m ∨ (m = n ∧ b < a) → s.decodeOffered u b g n w' ∧ u.decodeOffered (s.endSplice a b) a f m w) := by
  have hqa := State.chan_bothResumed_left hab hx
  have hqb := State.chan_bothResumed_right hab hy
  have hm : (s.bothResumed a b).directDeadline a = m := by
    simp [State.directDeadline, State.directFrame_bothResumed_left hab hx, hf]
  have hn : (s.bothResumed a b).directDeadline b = n := by
    simp [State.directDeadline, State.directFrame_bothResumed_right hab hy, hg]
  have horder := State.endSplice_eq s a b
  simp only [hm, hn, Bool.or_eq_true, Bool.and_eq_true, decide_eq_true_eq] at horder
  have hone : m < n ∨ (m = n ∧ a < b) → ¬(n < m ∨ (m = n ∧ b < a)) := by
    simp only [Fin.lt_def]
    omega
  by_cases hfirst : m < n ∨ (m = n ∧ a < b)
  · rw [if_pos hfirst] at horder
    obtain ⟨w, w', hoffer, hoffer', hleft, hleft'⟩ := State.unspliced_redirect_both (s.pool_bothResumed a b)
      (s.device_bothResumed a b) (fun k => by simp) hab hx hy hqa hqb hf hg
    rw [horder]
    exact ⟨_, w, w', by simp, hleft, hleft', fun _ => ⟨hoffer, hoffer'⟩, fun h => absurd h (hone hfirst)⟩
  · rw [if_neg hfirst] at horder
    obtain ⟨w', w, hoffer', hoffer, hleft', hleft⟩ := State.unspliced_redirect_both (s.pool_bothResumed a b)
      (s.device_bothResumed a b) (fun k => by simp) hab.symm hy hx hqb hqa hg hf
    rw [horder]
    exact ⟨_, w, w', by simp, hleft, hleft', fun h => absurd h hfirst, fun _ => ⟨hoffer', hoffer⟩⟩

end Spliced

/-! ### UNSPLICE (R163) -/

/-- The part after an UNSPLICE carried out and answered: `b` is the partner of the channel. -/
def State.unsplicedBy (s : State) (o : Order) (b : Chan) : State :=
  ((s.touch o.line).endSplice o.channel b).settle.formReply o.line .done o.echoed 0

theorem exec_unsplice_spliced {s : State} {o : Order} {b : Chan} {x : Active} (ha : s.addressed o) (ho : o.line = .F)
    (hx : s.life o.channel = .active x) (hp : x.partner = some b) :
    exec (.unsplice o) s = .next (s.unsplicedBy o b) :=
  State.exec_of_effect (body := unspliceEffect o.channel) ha (exec_of_onF rfl ho)
    (by simp [unspliceEffect, hx, Life.partner?, hp, State.done])

@[simp] theorem State.chan_unsplicedBy (s : State) (o : Order) (b d : Chan) :
    (s.unsplicedBy o b).chan d = ((s.touch o.line).endSplice o.channel b).chan d := by
  simp [State.unsplicedBy]

@[simp] theorem State.pool_unsplicedBy (s : State) (o : Order) (b : Chan) :
    (s.unsplicedBy o b).pool = ((s.touch o.line).endSplice o.channel b).pool := by
  simp [State.unsplicedBy]

@[simp] theorem State.device_unsplicedBy (s : State) (o : Order) (b : Chan) : (s.unsplicedBy o b).device = s.device := by
  simp [State.unsplicedBy]

@[simp] theorem State.link_unsplicedBy (s : State) (o : Order) (b : Chan) : (s.unsplicedBy o b).link = s.link := by
  simp [State.unsplicedBy]

theorem State.orderFrame_unsplicedBy (s : State) (o : Order) (b : Chan) :
    s.orderFrame (s.unsplicedBy o b) o [o.channel, b] [] := by
  refine State.orderFrameTo_formReply (State.orderFrame_settle (by simp) (fun d hd => ?_) (fun x _ => by simp)
    fun k => by simp) _ _ _
  have hne : o.channel ≠ d ∧ b ≠ d := by simpa [eq_comm] using hd
  rw [State.chan_endSplice_ne _ hne.1 hne.2, State.chan_touch]

/-- What is said of the end of a splice on the touched state, said of the order. -/
theorem State.unspliced_unsplicedBy {s : State} {o : Order} {b c : Chan} {z : Active} {w : WindowState}
    (h : (s.touch o.line).unspliced ((s.touch o.line).endSplice o.channel b) c
      (z.resumed ((s.touch o.line).nextAt z.down.phase)) w) :
    s.unspliced (s.unsplicedBy o b) c (z.resumed (s.nextAt z.down.phase)) w := by
  rw [State.nextAt_of_device (s.device_touch o.line)] at h
  exact State.unspliced_of_eq (by simp) (fun l => by simp) (by simp) h

theorem State.decodeOffered_unsplicedBy {s u : State} {o : Order} {b c : Chan} {f : SpeechFrame} {n : Nat}
    {w : WindowState} (h : u.decodeOffered ((s.touch o.line).endSplice o.channel b) c f n w) :
    u.decodeOffered (s.unsplicedBy o b) c f n w :=
  State.decodeOffered_after (by simp) (State.clock_of_device (by simp)) h

theorem State.decodeOffered_touch {s t : State} {l : Line} {c : Chan} {f : SpeechFrame} {n : Nat} {w : WindowState}
    (h : (s.touch l).decodeOffered t c f n w) : s.decodeOffered t c f n w :=
  State.decodeOffered_of_eq (by simp) (by simp) h

theorem State.resumedChan_touch (s : State) (l : Line) (c : Chan) (a : Active) :
    (s.touch l).resumedChan c a = s.resumedChan c a := by
  rw [State.resumedChan, State.nextAt_of_device (s.device_touch l), State.recordedFor_touch, State.chan_touch]
  rfl

theorem unsplice_refused {o : Order} {s : State} (ha : s.addressed o) :
    (o.line = .R → s.refuses (.unsplice o) o .notOwner o.echoed)
      ∧ (o.line = .F → (s.life o.channel).partner? = none → s.refuses (.unsplice o) o .wrongState o.echoed) := by
  refine ⟨fun ho => ?_, fun ho hp => ?_⟩
  · exact State.refuses_of_onR (body := unspliceEffect o.channel) rfl ha ho
  · exact State.refuses_of_effect (body := unspliceEffect o.channel) ha (exec_of_onF rfl ho)
      (by simp [unspliceEffect, hp])

/-- Settles O38: the end of the splice on the touched state, by which of the two windows are DIRECT, and the refusals. -/
theorem unspliceResumesBothDownlinks : Obligations.UnspliceResumesBothDownlinks := by
  refine ⟨fun o b s x y hph ha ho hab hx hy hxp _ => ?_, fun o s ha => unsplice_refused ha⟩
  obtain ⟨hcycle, hphases⟩ := hph
  have hx1 : (s.touch o.line).life o.channel = .active x := by rwa [State.life_touch]
  have hy1 : (s.touch o.line).life b = .active y := by rwa [State.life_touch]
  refine ⟨s.unsplicedBy o b, s.nextAt x.down.phase, s.nextAt y.down.phase, x.resumed (s.nextAt x.down.phase),
    y.resumed (s.nextAt y.down.phase), exec_unsplice_spliced ha ho hx hxp, State.answered_formReply _ _ _ _ _,
    s.orderFrame_unsplicedBy o b, s.link_unsplicedBy o b, State.nextAt_spec hcycle (hphases _ _ hx).1,
    State.nextAt_spec hcycle (hphases _ _ hy).1, rfl, rfl, fun hf => ?_, fun hg => ?_, fun hf hg => ?_,
    fun k d z n f hk hd hf => ?_, fun f g m n hf hg => ?_⟩
  · rw [← State.directFrame_touch s o.line] at hf
    rw [State.chan_unsplicedBy, State.chan_endSplice_left hab hx1 hf, State.resumedChan_touch]
    rfl
  · rw [← State.directFrame_touch s o.line] at hg
    rw [State.chan_unsplicedBy, State.chan_endSplice_right hab hy1 hg, State.resumedChan_touch]
    rfl
  · rw [← State.directFrame_touch s o.line] at hf hg
    rw [State.pool_unsplicedBy, State.pool_endSplice hab hx1 hy1 hf hg, State.pool_touch]
  · rw [← State.directFrame_touch s o.line] at hf hd
    rcases hk with ⟨rfl, rfl, rfl⟩ | ⟨rfl, rfl, rfl⟩
    · obtain ⟨w, hoffer, hleft⟩ := State.unspliced_endSplice_left hab hx1 hy1 hd hf
      exact ⟨w, State.decodeOffered_touch (State.decodeOffered_unsplicedBy hoffer), State.unspliced_unsplicedBy hleft⟩
    · obtain ⟨w, hoffer, hleft⟩ := State.unspliced_endSplice_right hab hx1 hy1 hd hf
      exact ⟨w, State.decodeOffered_touch (State.decodeOffered_unsplicedBy hoffer), State.unspliced_unsplicedBy hleft⟩
  · rw [← State.directFrame_touch s o.line] at hf hg
    obtain ⟨u, w, w', hdevice, hleft, hleft', hfirst, hsecond⟩ := State.unspliced_endSplice_both hab hx1 hy1 hf hg
    exact ⟨u, w, w', hdevice.trans (s.device_touch _), State.unspliced_unsplicedBy hleft,
      State.unspliced_unsplicedBy hleft',
      fun h => (hfirst h).imp State.decodeOffered_touch State.decodeOffered_unsplicedBy,
      fun h => (hsecond h).imp State.decodeOffered_touch State.decodeOffered_unsplicedBy⟩

end Sys2Proof.Machine
end

section
/-! SUPPORT. The continuity check: CHECK, which starts it, the comparison of its window at each frame sync, and its timeout. -/

namespace Sys2Proof.Machine

/-! ### CHECK (R168) -/

theorem State.chan_startCheck (s : State) (c : Chan) (x : HalfF) (d : Chan) :
    (s.startCheck c x).chan d
      = if c = d then
          { s.chan d with
            life := .halfF { x with check := some { start := s.time + 1, window := [] } }
            continuity := { result := .running, delay := 0 } }
        else s.chan d := by
  rw [State.startCheck, State.chan_mapSlot, State.chan_mapChan]

theorem State.slot_startCheck (s : State) (c : Chan) (x : HalfF) (z : Slot) :
    (s.startCheck c x).slot z
      = if x.fixed.timeslot = z then { s.slot z with source := .pattern s.pattern.toList } else s.slot z := by
  rw [State.startCheck, State.slot_mapSlot, State.slot_mapChan]

@[simp] theorem State.line_startCheck (s : State) (c : Chan) (x : HalfF) (k : Line) :
    (s.startCheck c x).line k = s.line k := by
  simp [State.startCheck]

@[simp] theorem State.device_startCheck (s : State) (c : Chan) (x : HalfF) :
    (s.startCheck c x).device = s.device := by
  simp [State.startCheck]

@[simp] theorem State.pool_startCheck (s : State) (c : Chan) (x : HalfF) : (s.startCheck c x).pool = s.pool := by
  simp [State.startCheck]

@[simp] theorem State.link_startCheck (s : State) (c : Chan) (x : HalfF) : (s.startCheck c x).link = s.link := by
  simp [State.startCheck]

/-- The conditions of R168 in their order: the lifecycle and the record first, then the mask. -/
theorem checkEffect_refused {s : State} {c : Chan}
    (h : (s.life c).lifecycle ≠ .halfF ∨ (s.chan c).continuity.result = .running ∨ s.mask = 0) :
    checkEffect c s
      = s.refuse (if (s.life c).lifecycle ≠ .halfF ∨ (s.chan c).continuity.result = .running then .wrongState
        else .badArgument) := by
  unfold checkEffect
  cases hl : s.life c with
  | halfF x =>
    have hhalf : (Life.halfF x).lifecycle = .halfF := rfl
    by_cases hrun : (s.chan c).continuity.result = .running
    · simp [hrun]
    · have hmask : s.mask = 0 := by simpa [hl, hhalf, hrun] using h
      simp [hrun, hmask, hhalf]
  | free | halfR | active => simp [Life.lifecycle]

theorem checkEffect_starts {s : State} {c : Chan} {x : HalfF} (hl : s.life c = .halfF x)
    (hrun : (s.chan c).continuity.result ≠ .running) (hmask : s.mask ≠ 0) :
    checkEffect c s = (s.startCheck c x).done := by
  simp only [checkEffect, hl, if_neg hrun, if_neg hmask]

/-- CHECK refused on the touched state, for which the conditions read as before the order. -/
theorem check_refused {o : Order} {s : State} (ha : s.addressed o)
    (h : o.line = .R ∨ (s.life o.channel).lifecycle ≠ .halfF ∨ (s.chan o.channel).continuity.result = .running
      ∨ s.mask = 0) :
    s.refuses (.check o) o
      (if o.line = .R then .notOwner
        else if (s.life o.channel).lifecycle ≠ .halfF ∨ (s.chan o.channel).continuity.result = .running then .wrongState
        else .badArgument) o.echoed := by
  cases ho : o.line with
  | R => exact State.refuses_of_onR (body := checkEffect o.channel) rfl ha ho
  | F =>
    have hcond := h.resolve_left (by simp [ho])
    rw [if_neg nofun]
    refine State.refuses_of_effect (body := checkEffect o.channel) ha (exec_of_onF rfl ho) ?_
    simpa using checkEffect_refused (s := s.touch o.line) (c := o.channel) (by simpa using hcond)

theorem check_starts {o : Order} {s : State} {x : HalfF} (ha : s.addressed o) (ho : o.line = .F)
    (hl : s.life o.channel = .halfF x) (hrun : (s.chan o.channel).continuity.result ≠ .running) (hmask : s.mask ≠ 0) :
    exec (.check o) s
      = .next (((s.touch o.line).startCheck o.channel x).formReply o.line .done o.echoed 0) :=
  State.exec_of_effect (body := checkEffect o.channel) ha (exec_of_onF rfl ho)
    (checkEffect_starts (by rwa [State.life_touch]) (by rwa [State.chan_touch]) (by rwa [State.touch_mask]))

/-- Settles O36: the refusals in the order of R168, and the start of the check on the touched state. -/
theorem checkStartsWithTheNextSampleTime : Obligations.CheckStartsWithTheNextSampleTime := by
  refine ⟨fun o s ha => ⟨fun h => ?_, fun x ho hl hrun hmask => ?_⟩, fun s c k hk => ?_⟩
  · obtain ⟨t, hexec, hanswer, hframe, hpool, hlink⟩ := check_refused ha h
    exact ⟨t, hexec, hframe, hpool, hlink, hanswer⟩
  · have hframe : s.orderFrame ((s.touch o.line).startCheck o.channel x) o [o.channel] [x.fixed.timeslot] := by
      refine State.orderFrame_of_lines (by simp) (fun d hd => ?_) (fun z hz => ?_) fun k => by simp
      · rw [State.chan_startCheck, if_neg fun hc => hd (List.mem_singleton.mpr hc.symm), State.chan_touch]
      · rw [State.slot_startCheck, if_neg fun hx => hz (List.mem_singleton.mpr hx.symm), State.slot_touch]
    refine ⟨_, check_starts ha ho hl hrun hmask, State.answered_formReply _ _ _ _ _,
      State.orderFrameTo_formReply hframe _ _ _, by simp, by simp, fun k => ?_, ?_, ?_⟩
    · rw [State.events_formReply, State.line_startCheck, State.events_touch]
    · rw [State.slot_formReply, State.slot_startCheck, if_pos rfl, State.slot_touch, State.touch_pattern]
    · rw [State.chan_formReply, State.chan_startCheck, if_pos rfl, State.chan_touch, State.touch_time]
  · cases hl : s.life c with
    | halfF x => exact ⟨x, rfl⟩
    | free | halfR | active => rw [hl] at hk; cases hk

/-! ### The window compared (R170) -/

theorem windowMatches_iff {pattern : Vector Octet 16} {mask : BitVec 16} {w : List Octet} :
    windowMatches pattern mask w = true
      ↔ w.length = 16 ∧ ∀ j : Fin 16, mask.getLsbD j.val = true → w.getD j.val 0 = pattern[j.val] := by
  simp [windowMatches, Bool.or_eq_true, imp_iff_not_or]

/-- The octet of a sample time before s0 is discarded. -/
theorem Channel.checkOctet_early {s : State} {ch : Channel} {x : HalfF} {k : Check} {o : Octet} (h : s.time < k.start) :
    ch.checkOctet s x k o = { ch with life := .halfF { x with check := some k } } :=
  if_pos h

/-- A window that matches ends the check PASSED, recorded for the F line alone. -/
theorem Channel.checkOctet_matched {s : State} {ch : Channel} {x : HalfF} {k : Check} {o : Octet} (h : k.start ≤ s.time)
    (hm : windowMatches s.pattern s.mask (pushWindow k.window o) = true) :
    ch.checkOctet s x k o
      = { ch with
          life := .halfF { x with check := none }
          continuity := { result := .passed, delay := s.time - 15 - k.start }
          eventsF := s.recordedFor .F .continuityDone ch.eventsF } := by
  rw [Channel.checkOctet, if_neg (Nat.not_lt.mpr h)]
  simp only [hm, if_true]
  exact s.record_events .F .continuityDone _

/-- A window that differs is kept, and the check goes on. -/
theorem Channel.checkOctet_unmatched {s : State} {ch : Channel} {x : HalfF} {k : Check} {o : Octet}
    (h : k.start ≤ s.time) (hm : windowMatches s.pattern s.mask (pushWindow k.window o) ≠ true) :
    ch.checkOctet s x k o
      = { ch with life := .halfF { x with check := some { k with window := pushWindow k.window o } } } := by
  rw [Channel.checkOctet, if_neg (Nat.not_lt.mpr h)]
  exact if_neg hm

/-- A HALF_F context at a frame sync: its feed and its timer move on. -/
def HalfF.onSync (x : HalfF) (s : State) : HalfF :=
  { x with fixed := { x.fixed with feed := x.fixed.timeslot }, timer := s.timerAfterSync x.timer }

theorem Channel.onSync_of_check {s : State} {incoming : Vector Octet 128} {ch : Channel} {x : HalfF} {k : Check}
    (h : ch.life = .halfF x) (hk : x.check = some k) :
    ch.onSync s incoming = ch.checkOctet s (x.onSync s) k incoming[x.fixed.feed.val] := by
  simp only [Channel.onSync, h, hk]
  rfl

/-! ### The timeout (R171) -/

/-- The part once the check of a HALF_F channel has come to its timeout. -/
def State.checkTimeout (s : State) (c : Chan) (x : HalfF) : State :=
  (s.mapChan c fun ch =>
    { ch with
      life := .halfF { x with check := none }
      continuity := { result := .noReturn, delay := 0 } }).record c .F .continuityDone

theorem exec_continuityTimeout {s : State} {c : Chan} {x : HalfF} {k : Check} (hl : s.life c = .halfF x)
    (hk : x.check = some k) (ht : k.start + 4000 < s.time) :
    exec (.continuityTimeout c) s = .next (s.checkTimeout c x).settle := by
  have hdue : x.check.any s.checkTimedOut = true := by simpa [hk, State.checkTimedOut] using ht
  show execContinuityTimeout c s = _
  simp only [execContinuityTimeout, hl, if_pos hdue]
  rfl

theorem State.chan_checkTimeout (s : State) (c : Chan) (x : HalfF) (d : Chan) :
    (s.checkTimeout c x).chan d
      = if c = d then
          { s.chan d with
            life := .halfF { x with check := none }
            continuity := { result := .noReturn, delay := 0 }
            eventsF := s.recordedFor .F .continuityDone (s.chan d).eventsF }
        else s.chan d := by
  rw [State.checkTimeout, State.chan_record, State.chan_mapChan]
  split <;> rfl

/-- Settles O5: the three things that the octet of a sample time can do to a check, and the timeout. -/
theorem continuityWindowsAreCompared : Obligations.ContinuityWindowsAreCompared := by
  refine ⟨fun incoming s c x k w hrun hpoints hends hl hk _ hw => ?_, fun c s x k hl hk ht => ?_⟩
  · subst hw
    have hexec := exec_frameSync_ready (incoming := incoming) hrun hpoints hends
    have hchan : (s.frameSync incoming).chan c
        = (s.chan c).checkOctet s (x.onSync s) k incoming[x.fixed.feed.val] := by
      rw [State.chan_frameSync, Channel.onSync_of_check hl hk]
    by_cases hearly : s.time < k.start
    · rw [Channel.checkOctet_early hearly] at hchan
      have hnot : ¬k.start ≤ s.time := Nat.not_le.mpr hearly
      exact ⟨_, { x.onSync s with check := some k }, hexec, congrArg Channel.life hchan, rfl, rfl, rfl, by rw [hchan],
        by rw [hchan], fun _ => ⟨rfl, by rw [hchan], by rw [hchan]⟩, fun h => absurd h hnot, fun h => absurd h hnot⟩
    have hstarted : k.start ≤ s.time := Nat.not_lt.mp hearly
    by_cases hm : windowMatches s.pattern s.mask (pushWindow k.window incoming[x.fixed.feed.val]) = true
    · rw [Channel.checkOctet_matched hstarted hm] at hchan
      exact ⟨_, { x.onSync s with check := none }, hexec, congrArg Channel.life hchan, rfl, rfl, rfl, by rw [hchan],
        by rw [hchan], fun h => absurd h hearly, fun _ _ => ⟨rfl, by rw [hchan], by rw [hchan]⟩,
        fun _ hdiffers => absurd (windowMatches_iff.mp hm) hdiffers⟩
    · rw [Channel.checkOctet_unmatched hstarted hm] at hchan
      exact ⟨_, { x.onSync s with check := some { k with window := pushWindow k.window incoming[x.fixed.feed.val] } },
        hexec, congrArg Channel.life hchan, rfl, rfl, rfl, by rw [hchan], by rw [hchan], fun h => absurd h hearly,
        fun _ hequal => absurd (windowMatches_iff.mpr hequal) hm, fun _ _ => ⟨rfl, by rw [hchan], by rw [hchan]⟩⟩
  · refine ⟨_, exec_continuityTimeout hl hk ht, ⟨by simp [State.checkTimeout], fun d hd => ?_,
      fun z _ => by simp [State.checkTimeout]⟩, by simp [State.checkTimeout], by simp [State.checkTimeout],
      State.sameLines_settle fun l => by simp [State.checkTimeout], ?_⟩
    · rw [State.chan_settle, State.chan_checkTimeout, if_neg fun hc => hd (List.mem_singleton.mpr hc.symm)]
    · rw [State.chan_settle, State.chan_checkTimeout, if_pos rfl]

end Sys2Proof.Machine
end

section
/-! SUPPORT. What the relations of the continuity records and of the active modes see of the contexts, and the operations of
the streams, which leave all of it. -/

namespace Sys2Proof.Machine

/-! ### The standing of a context -/

/-- The active mode of a radio half beside the one that R5 derives for it: under the fixed half's cap in ACTIVE, under mode
32 in HALF_R. -/
def Life.modes : Life → Option (Mode × Mode)
  | .halfR h => some (h.radio.active, Mode.derive h.radio.modeSet h.radio.requested .m32)
  | .active a => some (a.radio.active, Mode.derive a.radio.modeSet a.radio.requested a.fixed.cap)
  | .free | .halfF _ => none

/-- What the two relations see of a context: whether its continuity record reads RUNNING, whether a check runs on it, and
its active mode beside the derived one (R5, R168, R174). -/
structure Standing where
  running  : Bool
  checking : Bool
  modes    : Option (Mode × Mode)

/-- The standing of one context. -/
def Channel.standing (ch : Channel) : Standing :=
  { running := decide (ch.continuity.result = .running), checking := ch.life.check?.isSome, modes := ch.life.modes }

/-- The record reads RUNNING exactly while a check runs, and the active mode is the derived one. -/
structure Standing.ok (x : Standing) : Prop where
  check : x.running = x.checking
  mode  : ∀ p ∈ x.modes, p.1 = p.2

/-- The standing of every context. -/
def State.standing (s : State) (c : Chan) : Standing := (s.chan c).standing

/-- The invariant of this family. -/
def State.standingOk (s : State) : Prop := ∀ c, (s.standing c).ok

theorem Life.modeOk_iff (l : Life) : l.modeOk ↔ ∀ p ∈ l.modes, p.1 = p.2 := by
  cases l <;> simp [Life.modeOk, Life.modes]

theorem Channel.standing_ok_iff (ch : Channel) :
    ch.standing.ok ↔ (ch.continuity.result = .running ↔ ch.life.check?.isSome) ∧ ch.life.modeOk := by
  have hcheck : ch.standing.running = ch.standing.checking
      ↔ (ch.continuity.result = .running ↔ ch.life.check?.isSome) := by
    rw [Bool.eq_iff_iff, Channel.standing, decide_eq_true_eq]
  exact ⟨fun h => ⟨hcheck.mp h.check, ch.life.modeOk_iff.mpr h.mode⟩,
    fun h => ⟨hcheck.mpr h.1, ch.life.modeOk_iff.mp h.2⟩⟩

theorem State.standingOk_iff (s : State) : s.standingOk ↔ s.checksOk ∧ s.modesOk :=
  (forall_congr' fun c => (s.chan c).standing_ok_iff).trans forall_and

theorem State.standing_of_chan {s t : State} (h : ∀ c, t.chan c = s.chan c) : t.standing = s.standing :=
  funext fun c => congrArg Channel.standing (h c)

/-! ### The plain updates -/

theorem State.standing_mapChan (s : State) (c : Chan) (f : Channel → Channel) :
    (s.mapChan c f).standing = Function.update s.standing c (f (s.chan c)).standing := by
  funext d
  by_cases hd : d = c
  · rw [hd, Function.update_self, State.standing, State.chan_mapChan_self]
  · rw [Function.update_of_ne hd, State.standing, State.chan_mapChan_ne _ (Ne.symm hd)]
    rfl

/-- A change of one context that leaves its standing. -/
theorem State.standing_mapChan_keeps {s : State} {c : Chan} {f : Channel → Channel}
    (h : (f (s.chan c)).standing = (s.chan c).standing) : (s.mapChan c f).standing = s.standing := by
  rw [State.standing_mapChan, h]
  exact Function.update_eq_self c s.standing

/-- A life whose check and modes are those of the life before. -/
theorem State.standing_setLife_keeps {s : State} {c : Chan} {l : Life} (hc : l.check? = (s.life c).check?)
    (hm : l.modes = (s.life c).modes) : (s.setLife c l).standing = s.standing :=
  State.standing_mapChan_keeps (by rw [Channel.standing, hc, hm]; rfl)

/-- An ACTIVE context changed beside its mode set, its requested and active modes and its cap. -/
theorem State.standing_mapActive (s : State) (c : Chan) {f : Active → Active}
    (h : ∀ a, (Life.active (f a)).modes = (Life.active a).modes) : (s.mapActive c f).standing = s.standing := by
  unfold State.mapActive
  split
  · next a ha => exact State.standing_setLife_keeps (by rw [ha]; rfl) (by rw [ha, h])
  · rfl

@[simp] theorem State.standing_mapSlot (s : State) (x : Slot) (f : Timeslot → Timeslot) :
    (s.mapSlot x f).standing = s.standing := State.standing_of_chan (by simp)

@[simp] theorem State.standing_mapLine (s : State) (l : Line) (f : LineUnit → LineUnit) :
    (s.mapLine l f).standing = s.standing := State.standing_of_chan (by simp)

@[simp] theorem State.standing_idleSlot (s : State) (x : Slot) : (s.idleSlot x).standing = s.standing :=
  s.standing_mapSlot x _

@[simp] theorem State.standing_freeSlot (s : State) (x : Slot) : (s.freeSlot x).standing = s.standing :=
  s.standing_mapSlot x _

/-! ### Events, counters and records -/

/-- An event is recorded beside the continuity record and the life (R10, R189). -/
@[simp] theorem Channel.standing_record (ch : Channel) (u : LineUnit) (l : Line) (k : Kind) (causes : BitVec 5) :
    (ch.record u l k causes).standing = ch.standing := by
  unfold Channel.record
  split
  · cases l <;> rfl
  · rfl

@[simp] theorem State.standing_record (s : State) (c : Chan) (l : Line) (k : Kind) :
    (s.record c l k).standing = s.standing :=
  State.standing_mapChan_keeps (Channel.standing_record _ _ _ _ _)

@[simp] theorem State.standing_warn (s : State) (c : Chan) (k : Cause) : (s.warn c k).standing = s.standing :=
  State.standing_mapChan_keeps (by rw [Channel.standing_record, Channel.standing_record])

@[simp] theorem State.standing_count (s : State) (c : Chan) (k : Counter) : (s.count c k).standing = s.standing :=
  State.standing_mapChan_keeps rfl

@[simp] theorem State.standing_recordLine (s : State) (l : Line) (k : LineKind) :
    (s.recordLine l k).standing = s.standing := State.standing_of_chan (by simp)

@[simp] theorem State.standing_settle (s : State) : s.settle.standing = s.standing := rfl

@[simp] theorem State.standing_offerRecord (s : State) (r : Record) : (s.offerRecord r).standing = s.standing := by
  funext d
  rw [State.standing, State.chan_offerRecord]
  split <;> rfl

/-! ### The pool and what waits for it -/

@[simp] theorem State.standing_arbitrate (s : State) : s.arbitrate.standing = s.standing :=
  State.standing_of_chan (by simp)

@[simp] theorem State.standing_unqueue (s : State) (c : Chan) (k : JobKind) : (s.unqueue c k).standing = s.standing := rfl

@[simp] theorem State.standing_abandonJob (s : State) (c : Chan) (k : JobKind) :
    (s.abandonJob c k).standing = s.standing := rfl

@[simp] theorem State.standing_setWindow (s : State) (c : Chan) (w : WindowState) :
    (s.setWindow c w).standing = s.standing :=
  s.standing_mapActive c fun a => by split <;> rfl

@[simp] theorem State.standing_setUp (s : State) (c : Chan) (up : UplinkFields) : (s.setUp c up).standing = s.standing :=
  s.standing_mapActive c fun _ => rfl

@[simp] theorem State.standing_setHeld (s : State) (c : Chan) (items : List Held) :
    (s.setHeld c items).standing = s.standing :=
  s.standing_mapActive c fun _ => rfl

@[simp] theorem State.standing_decodeMiss (s : State) (c : Chan) : (s.decodeMiss c).standing = s.standing := by
  simp [State.decodeMiss]

@[simp] theorem State.standing_encodeMiss (s : State) (c : Chan) : (s.encodeMiss c).standing = s.standing := by
  simp [State.encodeMiss]

@[simp] theorem State.standing_releaseItems (s : State) (c : Chan) (items : List Held) :
    (State.releaseItems c items s).standing = s.standing := by
  induction items generalizing s with
  | nil => simp [State.releaseItems]
  | cons i rest ih =>
    cases i with
    | record r => simp [State.releaseItems, ih]
    | job e n =>
      have hoffer : (s.offerEncode c e n).1.standing = s.standing := State.standing_of_chan (by simp)
      rw [State.releaseItems]
      split <;> next t ht => rw [ht] at hoffer; simp [ih, hoffer]

@[simp] theorem State.standing_releaseHeld (s : State) (c : Chan) : (s.releaseHeld c).standing = s.standing := by
  simp [State.releaseHeld]

@[simp] theorem State.standing_handOn (s : State) (c : Chan) (i : Held) : (s.handOn c i).standing = s.standing := by
  unfold State.handOn
  split <;> simp

@[simp] theorem State.standing_offerDecode (s : State) (c : Chan) (f : SpeechFrame) (n : Nat) :
    (s.offerDecode c f n).standing = s.standing := by
  unfold State.offerDecode
  split
  · simp
  · have hoffer : ((s.setWindow c (.decoding f false)).offerJob
        { channel := c, deadline := n, work := .decode f, discard := false }).1.standing
          = (s.setWindow c (.decoding f false)).standing := State.standing_of_chan (by simp)
    split <;> next t ht => rw [ht] at hoffer; simpa using hoffer

/-! ### Windows and arrivals -/

@[simp] theorem State.standing_takeFrame (s : State) (c : Chan) (f : Frame) (n : Nat) :
    (s.takeFrame c f n).standing = s.standing := by
  cases f with
  | quiet => simp [State.takeFrame]
  | speech f =>
    rw [State.takeFrame]
    split
    · split <;> simp
    · simp

@[simp] theorem State.standing_openWindow (s : State) (c : Chan) (up : UplinkFields) (comfort : Bool) (n : BitVec 8) :
    (s.openWindow c up comfort n).standing = s.standing := by
  unfold State.openWindow
  dsimp only
  split <;> simp

@[simp] theorem State.standing_windowArrival (s : State) (c : Chan) (w : Window) (f : Frame) :
    (s.windowArrival c w f).standing = s.standing := by
  unfold State.windowArrival
  split <;> simp

@[simp] theorem State.standing_insertArrival (s : State) (c : Chan) (up : UplinkFields) (n : BitVec 8) (f : Frame) :
    (s.insertArrival c up n f).standing = s.standing := by
  unfold State.insertArrival
  split
  · simp
  · split <;> simp

@[simp] theorem State.standing_classify (s : State) (c : Chan) (a : Active) (f : Frame) :
    (s.classify c a f).standing = s.standing := by
  have hc := s.classify_classified c a f
  generalize s.classify c a f = t at hc ⊢
  cases hc with
  | first | counted => simp
  | atWindow comfort w hs => exact s.standing_windowArrival c w f
  | ahead r => exact s.standing_insertArrival c a.up r f
  | resync => simp [State.resync]

@[simp] theorem State.standing_arrival (s : State) (octets : List Octet) : (s.arrival octets).standing = s.standing := by
  unfold State.arrival
  dsimp only
  split
  · rfl
  · split
    · split <;> simp
    · rfl

@[simp] theorem State.standing_closeWindow (s : State) (c : Chan) (w : Window) :
    (s.closeWindow c w).standing = s.standing := by
  unfold State.closeWindow
  split
  · simp
  · split
    · simp
    · split <;> simp
  all_goals rfl

/-! ### Playout instants -/

@[simp] theorem State.standing_primingInstant (s : State) (c : Chan) (a : Active) (r : Option (BitVec 8)) (n : Nat) :
    (s.primingInstant c a r n).standing = s.standing := by
  unfold State.primingInstant
  dsimp only
  split
  · split <;> simp
  · simp

@[simp] theorem State.standing_concealed (s : State) (c : Chan) (a : Active) (n : Nat) :
    (s.concealed c a n).standing = s.standing := by
  unfold State.concealed
  dsimp only
  split <;> simp

@[simp] theorem State.standing_playBlock (s : State) (a : Active) (b : Block) : (s.playBlock a b).standing = s.standing :=
  s.standing_mapSlot _ _

@[simp] theorem State.standing_plainInstant (s : State) (c : Chan) (a : Active) :
    (s.plainInstant c a).standing = s.standing := by
  unfold State.plainInstant
  split
  · simp
  · unfold State.runningInstant
    split
    · rfl
    · dsimp only
      split <;> simp

@[simp] theorem State.standing_sendToward (s : State) (b : Chan) (a : Active) (m : Sent) :
    (s.sendToward b a m).standing = s.standing := by
  cases m <;> simp [State.sendToward]

@[simp] theorem State.standing_advanceSequence (s : State) (b : Chan) : (s.advanceSequence b).standing = s.standing :=
  s.standing_mapActive b fun _ => rfl

@[simp] theorem State.standing_splicedInstant (s : State) (c : Chan) (a : Active) (b : Chan) (e : Active) :
    (s.splicedInstant c a b e).standing = s.standing := by
  unfold State.splicedInstant
  split
  · simp
  · split
    · rfl
    · dsimp only
      split <;> simp

/-! ### Boundaries -/

@[simp] theorem State.standing_reportActivity (s : State) (c : Chan) (a : Active) :
    (s.reportActivity c a).standing = s.standing := by
  unfold State.reportActivity
  dsimp only
  split <;> split <;> simp

/-- A boundary consumes the offset of its radio half, and leaves the modes and the cap (R58). -/
theorem State.standing_boundary {s : State} {c : Chan} {a : Active} (h : s.life c = .active a) :
    (s.boundary c a).standing = s.standing := by
  have hafter : (s.setLife c (.active (afterBoundary s.time a))).standing = s.standing :=
    State.standing_setLife_keeps (by rw [h]; rfl) (by rw [h]; rfl)
  unfold State.boundary
  dsimp only
  split <;> simp [hafter]

/-! ### Completions and start deadlines -/

@[simp] theorem State.standing_deliver (s : State) (j : Job) : (s.deliver j).standing = s.standing := by
  unfold State.deliver
  split
  · rfl
  · split
    · unfold State.encodeResult
      exact (State.standing_mapActive _ _ (by simp [Life.modes])).trans (s.standing_offerRecord _)
    · exact s.standing_mapActive _ fun a => by split <;> rfl

@[simp] theorem State.standing_afterCompletion (s : State) (j : Job) : (s.afterCompletion j).standing = s.standing := by
  unfold State.afterCompletion
  split
  · simp
  · unfold State.offerHeldDecode
    split
    · split <;> simp
    · rfl

@[simp] theorem State.standing_complete (s : State) (e : Fin 4) (j : Job) : (s.complete e j).standing = s.standing := by
  simp only [State.complete, State.standing_settle, State.standing_arbitrate, State.standing_afterCompletion,
    State.standing_deliver]
  rfl

@[simp] theorem State.standing_encodeDeadline (s : State) (c : Chan) : (s.encodeDeadline c).standing = s.standing := by
  unfold State.encodeDeadline
  split
  · simp
  · split
    · dsimp only
      split <;> simp [State.dropLateHeld]
    · rfl

@[simp] theorem State.standing_decodeDeadline (s : State) (c : Chan) : (s.decodeDeadline c).standing = s.standing := by
  unfold State.decodeDeadline
  split
  · simp
  · split <;> simp

/-! ### The end of a splice and the stop of the streams -/

@[simp] theorem State.standing_sever (s : State) (c : Chan) : (s.sever c).standing = s.standing :=
  (State.standing_record _ c _ _).trans (s.standing_mapActive c fun _ => rfl)

@[simp] theorem State.standing_resume (s : State) (c : Chan) : (s.resume c).standing = s.standing :=
  s.standing_mapActive c fun _ => rfl

@[simp] theorem State.standing_redirect (s : State) (c : Chan) : (s.redirect c).standing = s.standing := by
  unfold State.redirect
  split <;> simp

@[simp] theorem State.standing_endSplice (s : State) (a b : Chan) : (s.endSplice a b).standing = s.standing := by
  unfold State.endSplice
  dsimp only
  split <;> simp

@[simp] theorem State.standing_stopStreams (s : State) (c : Chan) (a : Active) :
    (s.stopStreams c a).standing = s.standing := by
  unfold State.stopStreams
  dsimp only
  split <;> simp

@[simp] theorem State.standing_severAll (s : State) : s.severAll.standing = s.standing :=
  foldl_keeps State.standing _ (fun s c => by split <;> simp) _ s

@[simp] theorem State.standing_loseRow (s : State) (l : Line) (c : Chan) : (s.loseRow l c).standing = s.standing := by
  funext d
  rw [State.standing, State.chan_loseRow]
  split
  · cases l <;> rfl
  · rfl

end Sys2Proof.Machine
end

section
/-! SUPPORT. Rows, frame syncs, and halves made and released keep the continuity records and the active modes right. -/

namespace Sys2Proof.Machine

/-! ### The items of a row (R144 step 1) -/

theorem Life.check?_mapFixed (l : Life) (f : FixedHalf → FixedHalf) : (l.mapFixed f).check? = l.check? := by
  cases l <;> rfl

theorem Life.check?_mapRadio (l : Life) (f : RadioHalf → RadioHalf) : (l.mapRadio f).check? = l.check? := by
  cases l <;> rfl

theorem Life.check?_rederived (l : Life) : l.rederived.check? = l.check? := by cases l <;> rfl

theorem Life.check?_applyItem (l : Life) (i : Item) (v : BitVec 16) : (l.applyItem i v).check? = l.check? := by
  cases i with
  | timeslot => rfl
  | gainToFixed | gainToRadio | quietThreshold => rw [Life.applyItem, Life.check?_mapFixed]
  | mode | modeSet | align | dtx => rw [Life.applyItem, Life.check?_mapRadio]

/-- A fixed half changed beside its cap. -/
theorem Life.modes_mapFixed (l : Life) {f : FixedHalf → FixedHalf} (h : ∀ x, (f x).cap = x.cap) :
    (l.mapFixed f).modes = l.modes := by
  cases l with
  | active a => simp only [Life.mapFixed, Life.modes, h]
  | free | halfF | halfR => rfl

/-- An item other than MODE and MODE_SET leaves what the active mode is derived from (R5, R138). -/
theorem Life.modes_applyItem (l : Life) {i : Item} (hm : i ≠ .mode) (hs : i ≠ .modeSet) (v : BitVec 16) :
    (l.applyItem i v).modes = l.modes := by
  cases i with
  | mode => exact absurd rfl hm
  | modeSet => exact absurd rfl hs
  | timeslot => rfl
  | gainToFixed | gainToRadio | quietThreshold =>
    rw [Life.applyItem]
    exact l.modes_mapFixed fun _ => rfl
  | align | dtx => cases l <;> rfl

/-- A mode derived afresh is the derived one (R144 step 2). -/
theorem Life.modes_rederived (l : Life) : ∀ p ∈ l.rederived.modes, p.1 = p.2 := by
  cases l <;> simp [Life.rederived, Life.modes, RadioHalf.derived]

/-- A move leaves of its channel's life all but the timeslot and the feed of the fixed half. -/
theorem State.life_moveTimeslot (s : State) (c : Chan) (pt : Bool) (x : Slot) :
    ((s.moveTimeslot c pt x).life c).check? = (s.life c).check?
      ∧ ((s.moveTimeslot c pt x).life c).modes = (s.life c).modes := by
  cases hf : (s.life c).fixed? with
  | none => simp [State.moveTimeslot, hf]
  | some f =>
    by_cases hx : f.timeslot = x
    · rw [← hx, State.moveTimeslot_own s c pt f hf]
      exact ⟨rfl, rfl⟩
    · rw [State.life_def, State.chan_moveTimeslot s c c pt f x hf hx, if_pos rfl]
      dsimp only
      rw [Life.check?_mapFixed, Life.modes_mapFixed]
      · exact ⟨rfl, rfl⟩
      · exact fun _ => rfl

theorem State.check?_applySlot (s : State) (c : Chan) (pt : Bool) (p : Item × BitVec 16) :
    ((State.applySlot c pt s p).life c).check? = (s.life c).check? := by
  unfold State.applySlot
  split
  · exact (s.life_moveTimeslot c pt _).1
  · rw [State.life_def, State.chan_mapChan_self]
    exact Life.check?_applyItem _ _ _

theorem State.modes_applySlot (s : State) (c : Chan) (pt : Bool) {p : Item × BitVec 16} (hm : p.1 ≠ .mode)
    (hs : p.1 ≠ .modeSet) : ((State.applySlot c pt s p).life c).modes = (s.life c).modes := by
  unfold State.applySlot
  split
  · exact (s.life_moveTimeslot c pt _).2
  · rw [State.life_def, State.chan_mapChan_self]
    exact Life.modes_applyItem _ hm hs _

/-! ### A row written (R144 steps 1 and 2) -/

theorem State.check?_written (s : State) (r : Row) (c : Chan) (pt : Bool) :
    ((s.written r c pt).life c).check? = (s.life c).check? := by
  have hitems : ((r.slots.foldl (State.applySlot c pt) s).life c).check? = (s.life c).check? :=
    foldl_keeps (fun t : State => (t.life c).check?) _ (fun t p => t.check?_applySlot c pt p) _ s
  unfold State.written
  split
  · rw [State.life_def, State.chan_mapChan_self]
    exact (Life.check?_rederived _).trans hitems
  · exact hitems

/-- A row with MODE or MODE_SET derives the active mode afresh; a row without leaves what it is derived from. -/
theorem State.modes_written (s : State) (r : Row) (c : Chan) (pt : Bool) (h : ∀ p ∈ (s.life c).modes, p.1 = p.2) :
    ∀ p ∈ ((s.written r c pt).life c).modes, p.1 = p.2 := by
  unfold State.written
  split
  · rw [State.life_def, State.chan_mapChan_self]
    exact Life.modes_rederived _
  · next hr =>
    rw [r.changesMode_iff] at hr
    refine List.foldlRecOn (motive := fun t : State => ∀ p ∈ (t.life c).modes, p.1 = p.2) _ _ h fun t ht q hq => ?_
    rw [State.modes_applySlot]
    · exact ht
    · exact fun hm => hr ⟨q.2, .inl (hm ▸ hq)⟩
    · exact fun hm => hr ⟨q.2, .inr (hm ▸ hq)⟩

/-! ### A context at a frame sync (R170) -/

/-- The record follows the check: it reads PASSED once the check has ended, and stays while it runs on. -/
theorem Channel.standing_ok_checkOctet (s : State) {ch : Channel} (x : HalfF) (k : Check) (o : Octet)
    (hch : ch.continuity.result = .running) : (ch.checkOctet s x k o).standing.ok := by
  by_cases hstart : s.time < k.start
  · rw [Channel.checkOctet_early hstart]
    exact ⟨decide_eq_true hch, nofun⟩
  have hstarted := Nat.not_lt.mp hstart
  by_cases hm : windowMatches s.pattern s.mask (pushWindow k.window o) = true
  · rw [Channel.checkOctet_matched hstarted hm]
    exact ⟨rfl, nofun⟩
  · rw [Channel.checkOctet_unmatched hstarted hm]
    exact ⟨decide_eq_true hch, nofun⟩

theorem Channel.standing_ok_onSync (s : State) (incoming : Vector Octet 128) {ch : Channel} (hch : ch.standing.ok) :
    (ch.onSync s incoming).standing.ok := by
  cases hl : ch.life with
  | free => rwa [Channel.onSync_of_free hl]
  | halfR x =>
    rw [Channel.onSync_of_halfR hl]
    rw [Channel.standing, hl] at hch
    exact hch
  | active a =>
    rw [Channel.onSync_of_active hl]
    rw [Channel.standing, hl] at hch
    exact hch
  | halfF x =>
    cases hk : x.check with
    | none =>
      rw [Channel.onSync_of_halfF hl hk]
      rw [Channel.standing, hl] at hch
      exact hch
    | some k =>
      rw [Channel.onSync_of_check hl hk]
      refine Channel.standing_ok_checkOctet s _ k _ (of_decide_eq_true (hch.check.trans ?_))
      simp [Channel.standing, hl, Life.check?, hk]

/-! ### The standing of every context -/

theorem State.checking_of_none {s : State} {c : Chan} (h : (s.life c).check? = none) :
    (s.standing c).checking = false :=
  congrArg Option.isSome h

section Operations

variable {s : State} (h : s.standingOk)
include h

theorem State.standingOk.of_eq {t : State} (ht : t.standing = s.standing) : t.standingOk := fun c => by
  rw [ht]
  exact h c

/-- A change of one context whose standing is right afterwards. -/
theorem State.standingOk.mapChan (c : Chan) {f : Channel → Channel} (hf : (f (s.chan c)).standing.ok) :
    (s.mapChan c f).standingOk := fun d => by
  rw [State.standing_mapChan, Function.update_apply]
  split
  · exact hf
  · exact h d

/-- A life without a check in the place of one without a check: the record does not read RUNNING and stays. -/
theorem State.standingOk.setLife {c : Chan} {l : Life} (hc : (s.standing c).checking = false) (hl : l.check? = none)
    (hm : ∀ p ∈ l.modes, p.1 = p.2) : (s.setLife c l).standingOk := by
  refine h.mapChan c ⟨?_, hm⟩
  have hrecord : (s.standing c).running = false := (h c).check.trans hc
  rw [Channel.standing, hl]
  exact hrecord

theorem State.standingOk.written (r : Row) (c : Chan) (pt : Bool) : (s.written r c pt).standingOk := by
  intro d
  by_cases hd : c = d
  · subst hd
    rw [State.standing, State.chan_written_self]
    refine ⟨?_, s.modes_written r c pt (h c).mode⟩
    simp only [Channel.standing, State.check?_written]
    exact (h c).check
  · rw [State.standing, State.chan_written_ne s r hd]
    exact h d

theorem State.standingOk.applyRow (l : Line) (pt : Bool) : (s.applyRow l pt).standingOk := by
  cases hc : (s.line l).row.latched with
  | none => simpa only [State.applyRow, hc] using h
  | some c =>
    rw [State.applyRow_of_latched hc]
    exact (h.written (s.line l).row c pt).of_eq (by simp)

theorem State.standingOk.applyPending (l : Line) (c : Chan) (pt : Bool) : (s.applyPending l c pt).standingOk := by
  unfold State.applyPending
  split
  · exact h.applyRow l pt
  · exact h

theorem State.standingOk.applyBoth (c : Chan) (pt : Bool) : (s.applyBoth c pt).standingOk :=
  (h.applyPending .F c pt).applyPending .R c pt

theorem State.standingOk.takeBoundary (c : Chan) : (s.takeBoundary c).standingOk := by
  have hrows := h.applyBoth c true
  unfold State.takeBoundary
  dsimp only
  split
  · next a ha => exact hrows.of_eq (State.standing_boundary ha)
  · exact hrows

theorem State.standingOk.takeInstant (c : Chan) : (s.takeInstant c).standingOk := by
  unfold State.takeInstant
  split
  · split
    · exact h.of_eq (s.standing_plainInstant c _)
    · next b _ =>
      have hrows := h.applyBoth b true
      dsimp only
      split
      · exact hrows.of_eq (State.standing_splicedInstant _ c _ b _)
      · exact hrows
  · exact h

theorem State.standingOk.frameSync (incoming : Vector Octet 128) : (s.frameSync incoming).standingOk := fun c => by
  rw [State.standing, State.chan_frameSync]
  exact Channel.standing_ok_onSync s incoming (h c)

/-! ### Checks started and ended (R168, R171, R172) -/

theorem State.standingOk.startCheck (c : Chan) (x : HalfF) : (s.startCheck c x).standingOk := fun d => by
  rw [State.standing, State.chan_startCheck]
  split
  · exact ⟨rfl, nofun⟩
  · exact h d

theorem State.standingOk.checkTimeout (c : Chan) (x : HalfF) : (s.checkTimeout c x).standingOk := fun d => by
  rw [State.standing, State.chan_checkTimeout]
  split
  · exact ⟨rfl, nofun⟩
  · exact h d

/-- No check runs on the channel afterwards: one that ran is recorded ABORTED. -/
theorem State.standingOk.abortCheck {c : Chan} {x : HalfF} (hl : s.life c = .halfF x) :
    (s.abortCheck c x).standingOk ∧ ((s.abortCheck c x).standing c).checking = false := by
  refine ⟨fun d => ?_, ?_⟩
  · rw [State.standing, State.chan_abortCheck hl]
    split
    · next hd =>
      subst hd
      refine ⟨?_, nofun⟩
      unfold HalfF.continuityAborted
      split
      · next hk =>
        exact (h c).check.trans (State.checking_of_none (by rw [hl, Life.check?, hk]))
      · rfl
    · exact h d
  · rw [State.standing, State.chan_abortCheck hl, if_pos rfl]
    rfl

/-! ### Halves released (R20 to R24) -/

theorem State.standingOk.releaseHalf (l : Line) (c : Chan) : (s.releaseHalf l c).standingOk := by
  unfold State.releaseHalf
  split
  · next x hl =>
    obtain ⟨haborted, hidle⟩ := h.abortCheck hl
    have hfreed : ((s.abortCheck c x).freeSlot x.fixed.timeslot).standingOk := haborted.of_eq (by simp)
    exact (hfreed.setLife (c := c) (l := .free) (by simpa using hidle) rfl nofun).of_eq (by simp)
  · next x hl =>
    have hidle : (s.standing c).checking = false := State.checking_of_none (by rw [hl]; rfl)
    exact (h.setLife (l := .free) hidle rfl nofun).of_eq (by simp)
  · next a hl =>
    have hidle : (s.standing c).checking = false := State.checking_of_none (by rw [hl]; rfl)
    have hstopped : ((s.stopStreams c a).freeSlot a.fixed.timeslot).standingOk := h.of_eq (by simp)
    have hleft := hstopped.setLife (c := c)
      (l := .halfR { tag := a.tag, radio := a.radio.derived .m32, timer := s.halfWaitTimer .R })
      (by simpa using hidle) rfl (by simp [Life.modes, RadioHalf.derived])
    refine State.standingOk.applyPending ?_ .R c false
    exact hleft.of_eq (by simp)
  · next a hl =>
    have hidle : (s.standing c).checking = false := State.checking_of_none (by rw [hl]; rfl)
    have hstopped : ((s.stopStreams c a).idleSlot a.fixed.timeslot).standingOk := h.of_eq (by simp)
    have hleft := hstopped.setLife (c := c)
      (l := .halfF { tag := a.tag, fixed := a.fixed, timer := s.halfWaitTimer .F, check := none })
      (by simpa using hidle) rfl nofun
    refine State.standingOk.applyPending ?_ .F c false
    exact hleft.of_eq (by simp)
  · exact h

end Operations

end Sys2Proof.Machine
end

section
/-! SUPPORT. Every order and every command, and with it every step, keeps the continuity records and the active modes right. -/

namespace Sys2Proof.Machine

/-! ### Orders that leave the contexts -/

theorem State.chan_stageEffect (l : Line) (c : Chan) (i : Item) (v : BitVec 16) (s : State) (d : Chan) :
    (stageEffect l c i v s).state.chan d = s.chan d := by
  unfold stageEffect
  dsimp only
  split
  · rfl
  · split
    · rfl
    · split
      · rfl
      · split
        · rfl
        · split
          · rfl
          · split
            · rfl
            · exact s.chan_mapLine l _ d

theorem State.chan_cancelEffect (l : Line) (s : State) (d : Chan) : (cancelEffect l s).state.chan d = s.chan d := by
  unfold cancelEffect
  split
  · rfl
  · exact s.chan_mapLine l _ d

theorem State.chan_selectItemEffect (l : Line) (sp : Space) (index : Fin 128) (s : State) (d : Chan) :
    (selectItemEffect l sp index s).state.chan d = s.chan d := by
  unfold selectItemEffect
  split
  · rfl
  · exact s.chan_mapLine l _ d

theorem State.chan_stored (s : State) (l : Line) (clamped : Bool) (v : Nat) (d : Chan) :
    (s.stored l clamped v).state.chan d = s.chan d := s.chan_advancePointer l d

theorem State.chan_setSettings (s : State) (l : Line) (f : Settings → Settings) (d : Chan) :
    (s.setSettings l f).chan d = s.chan d := s.chan_mapLine l _ d

theorem State.chan_writeItemEffect (l : Line) (v : BitVec 16) (s : State) (d : Chan) :
    (writeItemEffect l v s).state.chan d = s.chan d := by
  unfold writeItemEffect State.writeAt
  split
  · rfl
  · split
    · exact State.chan_stored _ l _ _ d
    · unfold State.writePattern
      dsimp only
      split
      · rfl
      · split <;> exact State.chan_stored _ l _ _ d
    · unfold State.writeSetting
      split
      · rw [State.chan_stored, State.chan_mapLine, State.chan_setSettings]
      · split
        · rw [State.chan_stored, State.chan_setSettings]
        · rfl
      · rw [State.chan_stored, State.chan_setSettings]
      · rw [State.chan_stored, State.chan_setSettings]
    · rfl

theorem State.chan_restartEffect (l : Line) (s : State) (d : Chan) : (restartEffect l s).state.chan d = s.chan d := by
  unfold restartEffect
  dsimp only
  split
  · rfl
  · split
    · rfl
    · rw [State.chan_recordLine, State.chan_mapLine]

/-! ### Orders that leave the standings -/

theorem State.standing_readChannelEffect (l : Line) (c : Chan) (aspect : Fin 16) (s : State) :
    (readChannelEffect l c aspect s).state.standing = s.standing := by
  unfold readChannelEffect
  dsimp only
  split
  · exact s.standing_mapActive c fun a => by cases l <;> rfl
  · split
    · rfl
    · split <;> rfl

theorem State.standing_clearEventsEffect (l : Line) (c : Chan) (kinds : BitVec 9) (s : State) :
    (clearEventsEffect l c kinds s).state.standing = s.standing :=
  State.standing_mapChan_keeps (s := s) (f := fun ch => ch.setEvents l ((ch.events l).clear kinds))
    (by cases l <;> rfl)

theorem State.standing_handoverEffect (c : Chan) (s : State) : (handoverEffect c s).state.standing = s.standing := by
  unfold handoverEffect
  split
  · simp [State.done, State.primeAnew]
  · rfl

theorem State.standing_unspliceEffect (c : Chan) (s : State) : (unspliceEffect c s).state.standing = s.standing := by
  unfold unspliceEffect
  split
  · exact (State.standing_settle _).trans (s.standing_endSplice c _)
  · rfl

/-- A splice leaves both halves of its channels (R152). -/
theorem State.standing_joinSplice {s : State} {c : Chan} {a : Active} (h : s.life c = .active a) (partner : Chan) :
    (s.joinSplice c a partner).standing = s.standing :=
  (State.standing_idleSlot _ _).trans (State.standing_setLife_keeps (by rw [h]; rfl) (by rw [h]; rfl))

theorem State.standing_spliceEffect (a b : Chan) (s : State) : (spliceEffect a b s).state.standing = s.standing := by
  unfold spliceEffect
  split
  · next x y hx hy =>
    split
    · rfl
    · next hok =>
      have hy' : (s.joinSplice a x b).life b = .active y := by
        rw [State.life_def, State.chan_joinSplice, if_neg fun hab => hok (.inl hab)]
        exact hy
      exact (State.standing_joinSplice hy' a).trans (State.standing_joinSplice hx b)
  · rfl

section Orders

variable {s : State} (h : s.standingOk)
include h

theorem State.standingOk.of_chan {t : State} (ht : ∀ c, t.chan c = s.chan c) : t.standingOk :=
  h.of_eq (State.standing_of_chan ht)

/-! ### Taking an order -/

theorem State.standingOk.carryOut (o : Order) (owned : Bool) {body : State → Effect}
    (hbody : (body s).state.standingOk) : (carryOut o owned body s).state.standingOk := by
  unfold Machine.carryOut
  split
  · exact h
  · split
    · exact h
    · exact hbody

/-- An order keeps records and modes right where its verb does, whoever it is for. -/
theorem State.standingOk.takeOrder (o : Order) (owned broadcast : Bool) (ch : State → BitVec 7) {body : State → Effect}
    (hbody : ∀ {t : State}, t.standingOk → (body t).state.standingOk) :
    (takeOrder o owned broadcast ch body s).standingOk := by
  have htouch : (s.touch o.line).standingOk := h.of_chan (by simp)
  have hcarried := htouch.carryOut o owned (hbody htouch)
  unfold Machine.takeOrder
  split
  · exact h
  · split
    · dsimp only
      split
      · exact hcarried.of_chan (by simp)
      · exact htouch.of_chan (by simp)
    · split
      · exact hcarried.of_chan (by simp)
      · exact h.of_chan (by simp)

/-- An order whose verb leaves the standings. -/
theorem State.standingOk.takeQuietOrder (o : Order) (owned broadcast : Bool) (ch : State → BitVec 7)
    {body : State → Effect} (hbody : ∀ t, (body t).state.standing = t.standing) :
    (Machine.takeOrder o owned broadcast ch body s).standingOk :=
  h.takeOrder o owned broadcast ch fun ht => ht.of_eq (hbody _)

/-! ### The orders on channels -/

/-- A context that leaves FREE has the record NONE (R14, R17). -/
theorem State.standingOk.fresh (c : Chan) {l : Life} (hl : l.check? = none) (hm : ∀ p ∈ l.modes, p.1 = p.2) :
    (s.mapChan c (·.fresh l)).standingOk :=
  h.mapChan c ⟨by rw [Channel.standing, Channel.fresh, hl]; rfl, hm⟩

theorem State.standingOk.bindEffect (c : Chan) (x : Slot) (p : Fin 8) (tag : BitVec 14) :
    (bindEffect c x p tag s).state.standingOk := by
  have hbound : (s.bindSlot x c).standingOk := h.of_chan (by simp)
  unfold Machine.bindEffect
  dsimp only
  split
  · exact h
  · exact h
  · split
    · exact h
    · split
      · exact h
      · exact hbound.fresh c rfl nofun
  · next half hl =>
    split
    · exact h
    · split
      · exact h
      · split
        · exact h
        · refine State.standingOk.of_eq (hbound.setLife (c := c) (State.checking_of_none ?_) rfl ?_)
            (State.standing_record _ c .R .peerAttached)
          · rw [State.life_bindSlot, hl]
            rfl
          · simp [State.entry, Life.modes, RadioHalf.derived]

theorem State.standingOk.attachEffect (c : Chan) (modeSet : BitVec 3) (requested : BitVec 2) (tag : BitVec 14) :
    (attachEffect c modeSet requested tag s).state.standingOk := by
  unfold Machine.attachEffect
  dsimp only
  split
  · exact h
  · exact h
  · exact h
  · split
    · exact h
    · exact h.fresh c rfl (by simp [Life.modes, attachRadio])
  · next x m hl _ =>
    split
    · exact h
    · split
      · exact h
      · obtain ⟨haborted, hidle⟩ := h.abortCheck hl
        exact (haborted.setLife hidle rfl (by simp [State.entry, Life.modes, attachRadio])).of_eq
          (State.standing_record _ c .F .peerAttached)

theorem State.standingOk.releaseEffect (l : Line) (c : Chan) : (releaseEffect l c s).state.standingOk := by
  unfold Machine.releaseEffect
  split
  · exact (h.releaseHalf l c).of_eq (State.standing_settle _)
  · exact h

theorem State.standingOk.checkEffect (c : Chan) : (checkEffect c s).state.standingOk := by
  unfold Machine.checkEffect
  split
  · split
    · exact h
    · split
      · exact h
      · exact h.startCheck c _
  · exact h

theorem State.standingOk.commitEffect (l : Line) : (commitEffect l s).state.standingOk := by
  have hreserved : ∀ row c, (s.reserveFor row c).standingOk := fun row c => h.of_chan (by simp)
  unfold Machine.commitEffect
  dsimp only
  split
  · exact h
  · split
    · exact h
    · split
      · exact h
      · split
        · exact (hreserved _ _).of_eq (State.standing_mapLine _ l _)
        · exact ((hreserved _ _).applyRow l false).of_eq (State.standing_settle _)

/-! ### Timers and events that are due or not -/

/-- An event that is not due leaves the state as it is (log 3). -/
theorem State.standingOk.ifDue {t : State} (ht : t.standingOk) (p : Prop) [Decidable p] :
    (if p then t else s).standingOk := by
  split
  · exact ht
  · exact h

theorem State.standingOk.halfWaitExpiry (c : Chan) : (s.halfWaitExpiry c).standingOk := by
  unfold State.halfWaitExpiry
  split
  · next l _ => exact (h.releaseHalf l c).of_eq (by simp)
  · exact h

theorem State.standingOk.foldl_releaseHalf (l : Line) (cs : List Chan) :
    (cs.foldl (fun t c => t.releaseHalf l c) s).standingOk :=
  List.foldlRecOn cs _ h fun _ ht c _ => ht.releaseHalf l c

theorem State.standingOk.watchdogExpiry (l : Line) : (s.watchdogExpiry l).standingOk := by
  have hsilent : ((s.mapLine l fun u => { u with silent := true, expiry := none }).recordLine (otherLine l)
      .partnerSilent).standingOk := h.of_chan (by simp)
  unfold State.watchdogExpiry
  dsimp only
  split
  · have hsevered := hsilent.of_eq (State.standing_severAll _)
    exact (hsevered.foldl_releaseHalf l (List.finRange 128)).of_eq (State.standing_mapLine _ l _)
  · exact hsilent

theorem State.standingOk.spoil (l : Line) : (s.spoil l).standingOk := h.ifDue (h.of_chan (by simp)) _

theorem State.standingOk.noReply (l : Line) : (s.noReply l).standingOk := h.ifDue (h.of_chan (by simp)) _

end Orders

/-! ### The commands -/

/-- Contexts at their reset values: the record NONE, and no active mode (R2, R11). -/
theorem State.standingOk_of_reset {t : State} (h : ∀ c, t.chan c = Channel.reset) : t.standingOk := fun c => by
  rw [State.standing, h]
  exact ⟨rfl, nofun⟩

/-- A command leaves a next state, with records and modes right where they were. -/
theorem State.standingOk.exec {s : State} (h : s.standingOk) (i : Instr) : ∃ t, exec i s = .next t ∧ t.standingOk := by
  cases i with
  | powerOn => exact ⟨_, rfl, State.standingOk_of_reset s.chan_powerOn⟩
  | resetLow => exact ⟨_, rfl, State.standingOk_of_reset s.chan_powerOn⟩
  | resetRise =>
    refine ⟨_, rfl, h.ifDue ?_ _⟩
    exact State.standingOk_of_reset s.chan_powerOn
  | ready strapF strapR =>
    refine ⟨_, rfl, h.ifDue ?_ _⟩
    exact h.of_chan fun _ => rfl
  | frameSync incoming =>
    refine ⟨_, rfl, ?_⟩
    split
    · exact h.of_chan fun _ => rfl
    · refine h.ifDue ?_ _
      exact h.of_chan fun _ => rfl
    · exact h.ifDue (h.frameSync incoming) _
  | continuityTimeout c =>
    refine ⟨_, rfl, ?_⟩
    split
    · next x _ =>
      refine h.ifDue ?_ _
      exact (h.checkTimeout c x).of_eq (State.standing_settle _)
    · exact h
  | downlinkBoundary c => exact ⟨_, rfl, h.ifDue (h.takeBoundary c) _⟩
  | playoutInstant c => exact ⟨_, rfl, h.ifDue (h.takeInstant c) _⟩
  | windowStartDeadline c =>
    refine ⟨_, rfl, ?_⟩
    split
    · next w _ => exact h.ifDue (h.of_eq ((State.standing_settle _).trans (s.standing_closeWindow c w))) _
    · exact h
  | jobStartDeadline c kind =>
    refine ⟨_, rfl, h.of_eq ?_⟩
    cases kind with
    | encode => exact s.standing_encodeDeadline c
    | decode => exact s.standing_decodeDeadline c
  | jobCompletion e =>
    refine ⟨_, rfl, ?_⟩
    split
    · refine h.ifDue (h.of_eq ?_) _
      rw [State.standing_complete]
      rfl
    · exact h
  | recordArrival octets =>
    refine ⟨_, rfl, h.ifDue (h.of_eq ?_) _⟩
    rw [State.standing_arrival]
    rfl
  | recordTransmitted =>
    refine ⟨_, rfl, ?_⟩
    split
    · refine h.ifDue (h.of_chan fun c => ?_) _
      rw [State.chan_startTransmit]
      rfl
    · exact h
  | halfWaitExpiry c => exact ⟨_, rfl, h.ifDue (h.halfWaitExpiry c) _⟩
  | watchdogExpiry l => exact ⟨_, rfl, h.ifDue (h.watchdogExpiry l) _⟩
  | restartLapse l => exact ⟨_, rfl, h.ifDue (h.of_chan (by simp)) _⟩
  | earlySelectRise l => exact ⟨_, rfl, (h.spoil l).noReply l⟩
  | orderCrcMismatch l => exact ⟨_, rfl, (h.spoil l).noReply l⟩
  | extraClock l => exact ⟨_, rfl, h.spoil l⟩
  | nop o => exact ⟨_, rfl, h.takeOrder o _ _ _ fun ht => ht⟩
  | bind o x p tag => exact ⟨_, rfl, h.takeOrder o _ _ _ fun ht => ht.bindEffect _ x p tag⟩
  | attach o modeSet requested tag =>
    exact ⟨_, rfl, h.takeOrder o _ _ _ fun ht => ht.attachEffect _ modeSet requested tag⟩
  | release o => exact ⟨_, rfl, h.takeOrder o _ _ _ fun ht => ht.releaseEffect _ _⟩
  | handover o => exact ⟨_, rfl, h.takeQuietOrder o _ _ _ (State.standing_handoverEffect _)⟩
  | check o => exact ⟨_, rfl, h.takeOrder o _ _ _ fun ht => ht.checkEffect _⟩
  | splice o partner => exact ⟨_, rfl, h.takeQuietOrder o _ _ _ (State.standing_spliceEffect _ partner)⟩
  | unsplice o => exact ⟨_, rfl, h.takeQuietOrder o _ _ _ (State.standing_unspliceEffect _)⟩
  | stage o item v => exact ⟨_, rfl, h.takeOrder o _ _ _ fun ht => ht.of_chan (State.chan_stageEffect _ _ item v _)⟩
  | commit o => exact ⟨_, rfl, h.takeOrder o _ _ _ fun ht => ht.commitEffect _⟩
  | cancel o => exact ⟨_, rfl, h.takeOrder o _ _ _ fun ht => ht.of_chan (State.chan_cancelEffect _ _)⟩
  | readChannel o aspect => exact ⟨_, rfl, h.takeQuietOrder o _ _ _ (State.standing_readChannelEffect _ _ aspect)⟩
  | nextEvent o => exact ⟨_, rfl, h.takeOrder o _ _ _ fun ht => ht⟩
  | clearEvents o kinds => exact ⟨_, rfl, h.takeQuietOrder o _ _ _ (State.standing_clearEventsEffect _ _ kinds)⟩
  | clearLineEvents o kinds => exact ⟨_, rfl, h.takeQuietOrder o _ _ _ fun t => t.standing_mapLine _ _⟩
  | selectItem o sp index =>
    exact ⟨_, rfl, h.takeOrder o _ _ _ fun ht => ht.of_chan (State.chan_selectItemEffect _ sp index _)⟩
  | readItem o => exact ⟨_, rfl, h.takeOrder o _ _ _ fun ht => ht.of_chan (State.chan_advancePointer _ _)⟩
  | writeItem o v => exact ⟨_, rfl, h.takeOrder o _ _ _ fun ht => ht.of_chan (State.chan_writeItemEffect _ v _)⟩
  | engineServiceOut o e => exact ⟨_, rfl, h.takeOrder o _ _ _ fun ht => ht⟩
  | engineServiceIn o e => exact ⟨_, rfl, h.takeQuietOrder o _ _ _ fun _ => State.standing_arbitrate _⟩
  | restart o => exact ⟨_, rfl, h.takeOrder o _ _ _ fun ht => ht.of_chan (State.chan_restartEffect _ _)⟩
  | restartExecution =>
    refine ⟨_, rfl, ?_⟩
    split
    · exact State.standingOk_of_reset (s.chan_restarted _)
    · exact h
  | recordStart =>
    refine ⟨_, rfl, h.ifDue ?_ _⟩
    exact h.of_chan fun _ => rfl
  | unknownVerb o code => exact ⟨_, rfl, h.takeOrder o _ _ _ fun ht => ht⟩

/-- A step is a command on the state with the rest of the queue, or one core clock (log 1). -/
theorem State.standingOk.step {s : State} (h : s.standingOk) : ∃ t, step s = .next t ∧ t.standingOk := by
  unfold Machine.step State.front
  cases s.pending with
  | nil =>
    refine ⟨_, rfl, h.ifDue ?_ _⟩
    exact h.of_chan fun _ => rfl
  | cons i rest => exact State.standingOk.exec (s := { s with pending := rest }) (h.of_chan fun _ => rfl) i

/-- Settles O57: a record or a mode changes where a check starts or ends, where a half is made or released, and where a row
is written; every other operation leaves the standing of every context. -/
theorem stepKeepsChecksAndModes : Obligations.StepKeepsChecksAndModes := by
  intro s t hchecks hmodes hstep
  obtain ⟨u, hu, hok⟩ := State.standingOk.step (s.standingOk_iff.mpr ⟨hchecks, hmodes⟩)
  rw [hstep] at hu
  cases hu
  exact t.standingOk_iff.mp hok

end Sys2Proof.Machine
end

section
/-! SUPPORT. The event lists brought up to date, which makes them exact; and what the streams, the rows and the halves leave of
the Line Units: all but the event set and the row. -/

namespace Sys2Proof.Machine

/-! ### The lists brought up to date (R190) -/

/-- A list brought up to date holds each flagged channel once, and no other. -/
theorem State.eventList_exact {s : State} {l : Line} (h : (s.line l).events.Nodup) :
    (s.eventList l).Nodup ∧ ∀ c, c ∈ s.eventList l ↔ ((s.chan c).events l).kinds ≠ 0 := by
  unfold State.eventList
  refine ⟨List.nodup_append.mpr ⟨h.filter _, (List.nodup_finRange 128).filter _, ?_⟩, fun c => ?_⟩
  · rintro c hold d hnew rfl
    simp only [List.mem_filter] at hold hnew
    simp [hold.1] at hnew
  · by_cases hc : c ∈ (s.line l).events <;> simp [hc, State.flagged]

/-- The lists brought up to date are exact wherever the lists before held no channel twice. -/
theorem State.eventsOk.settle {s t : State} (h : s.eventsOk) (ht : ∀ l, (t.line l).events = (s.line l).events) :
    t.settle.eventsOk := by
  intro l
  obtain ⟨hnodup, hmem⟩ := State.eventList_exact (s := t) (l := l) (by rw [ht]; exact (h l).1)
  rw [State.line_settle]
  exact ⟨hnodup, hmem⟩

/-- Lists and records alike are exact alike. -/
theorem State.eventsOk.of_eq {s t : State} (h : s.eventsOk) (hl : ∀ l, (t.line l).events = (s.line l).events)
    (hc : ∀ c l, (t.chan c).events l = (s.chan c).events l) : t.eventsOk := by
  intro l
  simp only [hl, hc]
  exact h l

/-- A change of the state outside the contexts and the Line Units. -/
theorem State.eventsOk.of_parts {s t : State} (h : s.eventsOk) (hF : t.lineF = s.lineF) (hR : t.lineR = s.lineR)
    (hc : t.channels = s.channels) : t.eventsOk :=
  h.of_eq (fun l => by cases l <;> simp [State.line, hF, hR]) fun c l => by rw [State.chan, hc, State.chan]

/-! ### Line Units apart from their event set and their row -/

/-- A Line Unit apart from its event set and its row, the two parts of it that the streams and the ends of halves write. -/
def LineUnit.apart (u : LineUnit) : LineUnit := { u with lineEvents := 0, row := .empty }

theorem LineUnit.events_of_apart {u v : LineUnit} (h : u.apart = v.apart) : u.events = v.events := by
  show u.apart.events = v.apart.events
  rw [h]

theorem State.apart_mapLine (s : State) (l k : Line) {f : LineUnit → LineUnit} (h : ∀ u, (f u).apart = u.apart) :
    ((s.mapLine l f).line k).apart = (s.line k).apart := by
  rw [State.line_mapLine]
  split
  · exact h _
  · rfl

@[simp] theorem State.apart_recordLine (s : State) (l k : Line) (e : LineKind) :
    ((s.recordLine l e).line k).apart = (s.line k).apart :=
  s.apart_mapLine l k fun u => by split <;> rfl

/-! ### Records, jobs and held items -/

@[simp] theorem State.apart_offerRecord (s : State) (r : Record) (k : Line) :
    ((s.offerRecord r).line k).apart = (s.line k).apart := by
  unfold State.offerRecord
  split
  · rw [State.line_startTransmit, State.line_count]
    cases k <;> rfl
  · simp

@[simp] theorem State.apart_releaseItems (s : State) (c : Chan) (items : List Held) (k : Line) :
    ((State.releaseItems c items s).line k).apart = (s.line k).apart := by
  induction items generalizing s with
  | nil => simp [State.releaseItems]
  | cons i rest ih =>
    cases i with
    | record r => simp [State.releaseItems, ih]
    | job e n =>
      have hoffer := s.line_offerEncode c e n k
      rw [State.releaseItems]
      split <;> next t ht => rw [ht] at hoffer; simp [ih, hoffer]

@[simp] theorem State.apart_releaseHeld (s : State) (c : Chan) (k : Line) :
    ((s.releaseHeld c).line k).apart = (s.line k).apart := by
  simp [State.releaseHeld]

@[simp] theorem State.apart_handOn (s : State) (c : Chan) (i : Held) (k : Line) :
    ((s.handOn c i).line k).apart = (s.line k).apart := by
  unfold State.handOn
  split <;> simp

/-! ### Boundaries, instants, deadlines and completions -/

@[simp] theorem State.apart_boundary (s : State) (c : Chan) (a : Active) (k : Line) :
    ((s.boundary c a).line k).apart = (s.line k).apart := by
  unfold State.boundary
  dsimp only
  split <;> simp

@[simp] theorem State.apart_sendToward (s : State) (b : Chan) (a : Active) (m : Sent) (k : Line) :
    ((s.sendToward b a m).line k).apart = (s.line k).apart := by
  cases m <;> simp [State.sendToward]

@[simp] theorem State.apart_splicedInstant (s : State) (c : Chan) (a : Active) (b : Chan) (e : Active) (k : Line) :
    ((s.splicedInstant c a b e).line k).apart = (s.line k).apart := by
  unfold State.splicedInstant
  split
  · simp
  · split
    · rfl
    · dsimp only
      split <;> simp

@[simp] theorem State.apart_deliver (s : State) (j : Job) (k : Line) :
    ((s.deliver j).line k).apart = (s.line k).apart := by
  unfold State.deliver
  split
  · rfl
  · split
    · simp [State.encodeResult]
    · simp

@[simp] theorem State.apart_afterCompletion (s : State) (j : Job) (k : Line) :
    ((s.afterCompletion j).line k).apart = (s.line k).apart := by
  unfold State.afterCompletion
  split <;> simp

/-! ### Rows and halves -/

@[simp] theorem State.apart_applyRow (s : State) (l k : Line) (pt : Bool) :
    ((s.applyRow l pt).line k).apart = (s.line k).apart := by
  cases hc : (s.line l).row.latched with
  | none => simp only [State.applyRow, hc]
  | some c =>
    have happlied : s.applyRow l pt
        = ((s.written (s.line l).row c pt).record c l .commitApplied).mapLine l fun u => { u with row := .empty } := by
      simp only [State.applyRow, hc, State.written]
    rw [happlied]
    exact (State.apart_mapLine _ l k fun _ => by rfl).trans (by simp)

@[simp] theorem State.apart_applyPending (s : State) (l k : Line) (c : Chan) (pt : Bool) :
    ((s.applyPending l c pt).line k).apart = (s.line k).apart := by
  unfold State.applyPending
  split <;> simp

@[simp] theorem State.apart_applyBoth (s : State) (c : Chan) (pt : Bool) (k : Line) :
    ((s.applyBoth c pt).line k).apart = (s.line k).apart := by
  simp [State.applyBoth]

@[simp] theorem State.apart_loseRow (s : State) (l k : Line) (c : Chan) :
    ((s.loseRow l c).line k).apart = (s.line k).apart := by
  rw [State.line_loseRow]
  split <;> rfl

@[simp] theorem State.apart_releaseHalf (s : State) (l k : Line) (c : Chan) :
    ((s.releaseHalf l c).line k).apart = (s.line k).apart := by
  unfold State.releaseHalf
  split <;> simp

@[simp] theorem State.apart_watchdogRelease (s : State) (l k : Line) :
    ((s.watchdogRelease l).line k).apart = (s.line k).apart := by
  have hreleased : (((List.finRange 128).foldl (fun t c => t.releaseHalf l c) s.severAll).line k).apart
      = (s.severAll.line k).apart :=
    foldl_keeps (fun t : State => (t.line k).apart) _ (fun t c => t.apart_releaseHalf l k c) _ _
  unfold State.watchdogRelease
  exact (State.apart_mapLine _ l k fun _ => by rfl).trans (hreleased.trans (by simp))

end Sys2Proof.Machine
end

section
/-! SUPPORT. Every order and every command, and with it every step, keeps the event lists exact: a command that changes a
record ends by bringing the lists up to date, and every other leaves lists and records. -/

namespace Sys2Proof.Machine

/-! ### The lists of the Line Units -/

/-- The lists brought up to date after operations that leave the Line Units but for event sets and rows. -/
theorem State.eventsOk.settleApart {s t : State} (h : s.eventsOk) (ht : ∀ l, (t.line l).apart = (s.line l).apart) :
    t.settle.eventsOk :=
  h.settle fun l => LineUnit.events_of_apart (ht l)

/-- A change of a Line Unit in other fields than its list. -/
theorem State.eventsOk.mapLine {s : State} (h : s.eventsOk) (l : Line) {f : LineUnit → LineUnit}
    (hf : ∀ u, (f u).events = u.events) : (s.mapLine l f).eventsOk := by
  refine h.of_eq (fun k => ?_) (by simp)
  rw [State.line_mapLine]
  split
  · exact hf _
  · rfl

theorem State.eventsOk.recordLine {s : State} (h : s.eventsOk) (l : Line) (e : LineKind) :
    (s.recordLine l e).eventsOk :=
  h.mapLine l fun u => by split <;> rfl

/-! ### The records of the contexts -/

theorem State.events_chan_mapChan (s : State) (c : Chan) {f : Channel → Channel}
    (h : ∀ ch l, (f ch).events l = ch.events l) (d : Chan) (l : Line) :
    ((s.mapChan c f).chan d).events l = (s.chan d).events l := by
  rw [State.chan_mapChan]
  split
  · exact h _ l
  · rfl

theorem State.events_chan_setLife (s : State) (c : Chan) (x : Life) (d : Chan) (l : Line) :
    ((s.setLife c x).chan d).events l = (s.chan d).events l :=
  s.events_chan_mapChan c (fun _ l => by cases l <;> rfl) d l

theorem State.events_chan_mapActive (s : State) (c : Chan) (f : Active → Active) (d : Chan) (l : Line) :
    ((s.mapActive c f).chan d).events l = (s.chan d).events l := by
  unfold State.mapActive
  split
  · exact s.events_chan_setLife c _ d l
  all_goals rfl

section Commands

variable {s : State} (h : s.eventsOk)
include h

/-! ### Taking an order -/

theorem State.eventsOk.carryOut (o : Order) (owned : Bool) {body : State → Effect}
    (hbody : (body s).state.eventsOk) : (carryOut o owned body s).state.eventsOk := by
  unfold Machine.carryOut
  split
  · exact h
  · split
    · exact h
    · exact hbody

/-- An order keeps the lists exact where its verb does, whoever it is for. -/
theorem State.eventsOk.takeOrder (o : Order) (owned broadcast : Bool) (ch : State → BitVec 7) {body : State → Effect}
    (hbody : ∀ {t : State}, t.eventsOk → (body t).state.eventsOk) :
    (takeOrder o owned broadcast ch body s).eventsOk := by
  have htouch : (s.touch o.line).eventsOk := h.of_eq (by simp) (by simp)
  have hcarried := htouch.carryOut o owned (hbody htouch)
  unfold Machine.takeOrder
  split
  · exact h
  · split
    · dsimp only
      split
      · exact hcarried.mapLine _ fun _ => rfl
      · exact htouch.mapLine _ fun _ => rfl
    · split
      · exact hcarried.mapLine _ (f := fun u => { u with
          orderError := false
          reply := some
            { node := u.node, previousError := u.orderError
              result := _, attention := _, channel := _, data := _ } }) fun _ => rfl
      · exact h.mapLine _ fun _ => rfl

/-! ### The orders on channels -/

/-- A context that leaves FREE keeps its records (R14, R17). -/
theorem State.eventsOk.fresh (c : Chan) (x : Life) : (s.mapChan c (·.fresh x)).eventsOk :=
  h.of_eq (by simp) (s.events_chan_mapChan c fun _ l => by cases l <;> rfl)

theorem State.eventsOk.bindEffect (c : Chan) (x : Slot) (p : Fin 8) (tag : BitVec 14) :
    (bindEffect c x p tag s).state.eventsOk := by
  have hbound : (s.bindSlot x c).eventsOk := h.of_eq (by simp) (by simp)
  unfold Machine.bindEffect
  dsimp only
  split
  · exact h
  · exact h
  · split
    · exact h
    · split
      · exact h
      · exact hbound.fresh c _
  · split
    · exact h
    · split
      · exact h
      · split
        · exact h
        · exact h.settleApart (by simp)

theorem State.eventsOk.attachEffect (c : Chan) (modeSet : BitVec 3) (requested : BitVec 2) (tag : BitVec 14) :
    (attachEffect c modeSet requested tag s).state.eventsOk := by
  unfold Machine.attachEffect
  dsimp only
  split
  · exact h
  · exact h
  · exact h
  · split
    · exact h
    · exact h.fresh c _
  · split
    · exact h
    · split
      · exact h
      · exact h.settleApart (by simp)

theorem State.eventsOk.releaseEffect (l : Line) (c : Chan) : (releaseEffect l c s).state.eventsOk := by
  unfold Machine.releaseEffect
  split
  · exact h.settleApart (by simp)
  · exact h

theorem State.eventsOk.handoverEffect (c : Chan) : (handoverEffect c s).state.eventsOk := by
  unfold Machine.handoverEffect
  split
  · exact h.of_eq (by simp [State.done, State.primeAnew])
      fun d l => State.events_chan_mapActive (s.abandonJob c .decode) c _ d l
  · exact h

theorem State.eventsOk.checkEffect (c : Chan) : (checkEffect c s).state.eventsOk := by
  unfold Machine.checkEffect
  split
  · split
    · exact h
    · split
      · exact h
      · refine h.of_eq (by simp [State.done, State.startCheck]) fun d l => ?_
        rw [State.done, State.startCheck, State.chan_mapSlot]
        exact s.events_chan_mapChan c (fun _ l => by cases l <;> rfl) d l
  · exact h

theorem State.eventsOk.spliceEffect (a b : Chan) : (spliceEffect a b s).state.eventsOk := by
  have hjoin : ∀ {t : State}, t.eventsOk → ∀ c x partner, (t.joinSplice c x partner).eventsOk := fun ht c x partner =>
    ht.of_eq (by simp [State.joinSplice]) fun d l => by
      rw [State.joinSplice, State.chan_idleSlot, State.events_chan_setLife]
  unfold Machine.spliceEffect
  split
  · split
    · exact h
    · exact hjoin (hjoin h _ _ _) _ _ _
  · exact h

theorem State.eventsOk.unspliceEffect (c : Chan) : (unspliceEffect c s).state.eventsOk := by
  unfold Machine.unspliceEffect
  split
  · exact h.settleApart (by simp)
  · exact h

/-! ### Orders that stage, read, clear and write -/

theorem State.eventsOk.stageEffect (l : Line) (c : Chan) (i : Item) (v : BitVec 16) :
    (stageEffect l c i v s).state.eventsOk := by
  unfold Machine.stageEffect
  dsimp only
  split
  · exact h
  · split
    · exact h
    · split
      · exact h
      · split
        · exact h
        · split
          · exact h
          · split
            · exact h
            · exact h.mapLine l fun _ => rfl

theorem State.eventsOk.commitEffect (l : Line) : (commitEffect l s).state.eventsOk := by
  have hreserved : ∀ row c, (s.reserveFor row c).eventsOk := fun row c => h.of_eq (by simp) (by simp)
  unfold Machine.commitEffect
  dsimp only
  split
  · exact h
  · split
    · exact h
    · split
      · exact h
      · split
        · exact (hreserved _ _).mapLine l fun _ => rfl
        · exact h.settleApart (by simp)

theorem State.eventsOk.cancelEffect (l : Line) : (cancelEffect l s).state.eventsOk := by
  unfold Machine.cancelEffect
  split
  · exact h
  · exact h.mapLine l fun _ => rfl

theorem State.eventsOk.readChannelEffect (l : Line) (c : Chan) (aspect : Fin 16) :
    (readChannelEffect l c aspect s).state.eventsOk := by
  unfold Machine.readChannelEffect
  dsimp only
  split
  · exact h.of_eq (by simp [State.reportRead]) (s.events_chan_mapActive c _)
  · split
    · exact h
    · split <;> exact h

theorem State.eventsOk.clearEventsEffect (l : Line) (c : Chan) (kinds : BitVec 9) :
    (clearEventsEffect l c kinds s).state.eventsOk := h.settleApart (by simp)

theorem State.eventsOk.selectItemEffect (l : Line) (sp : Space) (index : Fin 128) :
    (selectItemEffect l sp index s).state.eventsOk := by
  unfold Machine.selectItemEffect
  split
  · exact h
  · exact h.mapLine l fun _ => rfl

theorem State.eventsOk.advancePointer (l : Line) : (s.advancePointer l).eventsOk := h.mapLine l fun _ => rfl

theorem State.eventsOk.setSettings (l : Line) (f : Settings → Settings) : (s.setSettings l f).eventsOk :=
  h.mapLine l fun _ => rfl

theorem State.eventsOk.writeItemEffect (l : Line) (v : BitVec 16) : (writeItemEffect l v s).state.eventsOk := by
  have hstored : ∀ {t : State}, t.eventsOk → ∀ clamped n, (t.stored l clamped n).state.eventsOk := fun ht _ _ =>
    ht.advancePointer l
  have hset : ∀ f, (s.setSettings l f).eventsOk := h.setSettings l
  unfold Machine.writeItemEffect State.writeAt
  split
  · exact h
  · split
    · refine hstored (t := { s with profiles := _ }) ?_ _ _
      exact h.of_parts rfl rfl rfl
    · unfold State.writePattern
      dsimp only
      split
      · exact h
      · split
        · refine hstored ?_ _ _
          exact h.of_parts rfl rfl rfl
        · refine hstored ?_ _ _
          exact h.of_parts rfl rfl rfl
    · unfold State.writeSetting
      split
      · exact hstored ((hset _).mapLine l fun _ => by rfl) _ _
      · split
        · exact hstored (hset _) _ _
        · exact h
      · exact hstored (hset _) _ _
      · exact hstored (hset _) _ _
    · exact h

theorem State.eventsOk.restartEffect (l : Line) : (restartEffect l s).state.eventsOk := by
  unfold Machine.restartEffect
  dsimp only
  split
  · exact h.of_parts rfl rfl rfl
  · split
    · exact h.of_parts rfl rfl rfl
    · exact State.eventsOk.recordLine (h.mapLine l fun _ => by rfl) _ _

/-! ### Events that are due or not -/

/-- An event that is not due leaves the state as it is (log 3). -/
theorem State.eventsOk.ifDue {t : State} (ht : t.eventsOk) (p : Prop) [Decidable p] :
    (if p then t else s).eventsOk := by
  split
  · exact ht
  · exact h

theorem State.eventsOk.takeBoundary (c : Chan) : (s.takeBoundary c).eventsOk := by
  unfold State.takeBoundary
  dsimp only
  split <;> exact h.settleApart (by simp)

theorem State.eventsOk.takeInstant (c : Chan) : (s.takeInstant c).eventsOk := by
  unfold State.takeInstant
  split
  · split
    · exact h.settleApart (by simp)
    · dsimp only
      split <;> exact h.settleApart (by simp)
  · exact h

theorem State.eventsOk.encodeDeadline (c : Chan) : (s.encodeDeadline c).eventsOk := by
  unfold State.encodeDeadline
  split
  · exact h.settleApart (by simp)
  · split
    · dsimp only
      refine h.settleApart fun l => ?_
      split <;> simp
    · exact h

theorem State.eventsOk.decodeDeadline (c : Chan) : (s.decodeDeadline c).eventsOk := by
  unfold State.decodeDeadline
  split
  · exact h.settleApart (by simp)
  · split
    · exact h.settleApart (by simp)
    · exact h

theorem State.eventsOk.arrival (octets : List Octet) : (s.arrival octets).eventsOk := by
  unfold State.arrival
  dsimp only
  split
  · exact h.of_parts rfl rfl rfl
  · split
    · split
      · exact h.settleApart (by simp)
      · exact h.of_eq (by simp) (s.events_chan_mapChan _ fun _ l => by cases l <;> rfl)
    · exact h.of_parts rfl rfl rfl

theorem State.eventsOk.halfWaitExpiry (c : Chan) : (s.halfWaitExpiry c).eventsOk := by
  unfold State.halfWaitExpiry
  split
  · exact h.settleApart (by simp)
  · exact h

theorem State.eventsOk.watchdogExpiry (l : Line) : (s.watchdogExpiry l).eventsOk := by
  unfold State.watchdogExpiry
  dsimp only
  have hsilent : ((s.mapLine l fun u => { u with silent := true, expiry := none }).recordLine (otherLine l)
      .partnerSilent).eventsOk := State.eventsOk.recordLine (h.mapLine l fun _ => by rfl) _ _
  refine hsilent.settleApart fun k => ?_
  split <;> simp

theorem State.eventsOk.spoil (l : Line) : (s.spoil l).eventsOk := h.ifDue (h.mapLine l fun _ => by rfl) _

theorem State.eventsOk.noReply (l : Line) : (s.noReply l).eventsOk := h.ifDue (h.mapLine l fun _ => by rfl) _

end Commands

/-! ### The commands -/

/-- Empty lists are exact beside contexts at their reset values (R11). -/
theorem State.eventsOk_of_reset {t : State} (hl : ∀ l, (t.line l).events = [])
    (hc : ∀ c, t.chan c = Channel.reset) : t.eventsOk := by
  intro l
  rw [hl]
  refine ⟨List.nodup_nil, fun c => iff_of_false List.not_mem_nil (not_not_intro ?_)⟩
  rw [hc]
  cases l <;> rfl

/-- A command leaves a next state, with the lists exact where they were. -/
theorem State.eventsOk.exec {s : State} (h : s.eventsOk) (i : Instr) : ∃ t, exec i s = .next t ∧ t.eventsOk := by
  have hpower : ∀ t : State, (∀ l, (t.line l).events = []) → t.channels = State.reset.channels → t.eventsOk :=
    fun t hl hc => State.eventsOk_of_reset hl fun c => by rw [State.chan, hc]; exact State.chan_reset c
  cases i with
  | powerOn => exact ⟨_, rfl, hpower _ (fun l => by cases l <;> rfl) rfl⟩
  | resetLow => exact ⟨_, rfl, hpower _ (fun l => by cases l <;> rfl) rfl⟩
  | resetRise =>
    refine ⟨_, rfl, h.ifDue ?_ _⟩
    exact hpower _ (fun l => by cases l <;> rfl) rfl
  | ready strapF strapR =>
    refine ⟨_, rfl, h.ifDue ?_ _⟩
    exact h.of_eq (fun k => by cases k <;> rfl) fun _ _ => rfl
  | frameSync incoming =>
    refine ⟨_, rfl, ?_⟩
    split
    · exact h.of_parts rfl rfl rfl
    · refine h.ifDue ?_ _
      exact h.of_parts rfl rfl rfl
    · refine h.ifDue ?_ _
      exact h.settle fun k => by cases k <;> rfl
  | continuityTimeout c =>
    refine ⟨_, rfl, ?_⟩
    split
    · refine h.ifDue ?_ _
      exact h.settleApart (by simp)
    · exact h
  | downlinkBoundary c => exact ⟨_, rfl, h.ifDue (h.takeBoundary c) _⟩
  | playoutInstant c => exact ⟨_, rfl, h.ifDue (h.takeInstant c) _⟩
  | windowStartDeadline c =>
    refine ⟨_, rfl, ?_⟩
    split
    · refine h.ifDue ?_ _
      exact h.settleApart (by simp)
    · exact h
  | jobStartDeadline c kind =>
    refine ⟨_, rfl, ?_⟩
    cases kind with
    | encode => exact h.encodeDeadline c
    | decode => exact h.decodeDeadline c
  | jobCompletion e =>
    refine ⟨_, rfl, ?_⟩
    split
    · refine h.ifDue ?_ _
      refine h.settleApart fun k => ?_
      simp only [State.line_arbitrate, State.apart_afterCompletion, State.apart_deliver]
      cases k <;> rfl
    · exact h
  | recordArrival octets =>
    refine ⟨_, rfl, h.ifDue (State.eventsOk.arrival ?_ octets) _⟩
    exact h.of_parts rfl rfl rfl
  | recordTransmitted =>
    refine ⟨_, rfl, ?_⟩
    split
    · refine h.ifDue ?_ _
      refine h.of_eq (fun k => ?_) fun c l => ?_
      · rw [State.line_startTransmit]
        cases k <;> rfl
      · rw [State.chan_startTransmit]
        rfl
    · exact h
  | halfWaitExpiry c => exact ⟨_, rfl, h.ifDue (h.halfWaitExpiry c) _⟩
  | watchdogExpiry l => exact ⟨_, rfl, h.ifDue (h.watchdogExpiry l) _⟩
  | restartLapse l => exact ⟨_, rfl, h.ifDue (State.eventsOk.recordLine (h.mapLine l fun _ => by rfl) _ _) _⟩
  | earlySelectRise l => exact ⟨_, rfl, (h.spoil l).noReply l⟩
  | orderCrcMismatch l => exact ⟨_, rfl, (h.spoil l).noReply l⟩
  | extraClock l => exact ⟨_, rfl, h.spoil l⟩
  | nop o => exact ⟨_, rfl, h.takeOrder o _ _ _ fun ht => ht⟩
  | bind o x p tag => exact ⟨_, rfl, h.takeOrder o _ _ _ fun ht => ht.bindEffect _ x p tag⟩
  | attach o modeSet requested tag =>
    exact ⟨_, rfl, h.takeOrder o _ _ _ fun ht => ht.attachEffect _ modeSet requested tag⟩
  | release o => exact ⟨_, rfl, h.takeOrder o _ _ _ fun ht => ht.releaseEffect _ _⟩
  | handover o => exact ⟨_, rfl, h.takeOrder o _ _ _ fun ht => ht.handoverEffect _⟩
  | check o => exact ⟨_, rfl, h.takeOrder o _ _ _ fun ht => ht.checkEffect _⟩
  | splice o partner => exact ⟨_, rfl, h.takeOrder o _ _ _ fun ht => ht.spliceEffect _ partner⟩
  | unsplice o => exact ⟨_, rfl, h.takeOrder o _ _ _ fun ht => ht.unspliceEffect _⟩
  | stage o item v => exact ⟨_, rfl, h.takeOrder o _ _ _ fun ht => ht.stageEffect _ _ item v⟩
  | commit o => exact ⟨_, rfl, h.takeOrder o _ _ _ fun ht => ht.commitEffect _⟩
  | cancel o => exact ⟨_, rfl, h.takeOrder o _ _ _ fun ht => ht.cancelEffect _⟩
  | readChannel o aspect => exact ⟨_, rfl, h.takeOrder o _ _ _ fun ht => ht.readChannelEffect _ _ aspect⟩
  | nextEvent o => exact ⟨_, rfl, h.takeOrder o _ _ _ fun ht => ht⟩
  | clearEvents o kinds => exact ⟨_, rfl, h.takeOrder o _ _ _ fun ht => ht.clearEventsEffect _ _ kinds⟩
  | clearLineEvents o kinds => exact ⟨_, rfl, h.takeOrder o _ _ _ fun ht => ht.mapLine _ fun _ => rfl⟩
  | selectItem o sp index => exact ⟨_, rfl, h.takeOrder o _ _ _ fun ht => ht.selectItemEffect _ sp index⟩
  | readItem o => exact ⟨_, rfl, h.takeOrder o _ _ _ fun ht => ht.advancePointer _⟩
  | writeItem o v => exact ⟨_, rfl, h.takeOrder o _ _ _ fun ht => ht.writeItemEffect _ v⟩
  | engineServiceOut o e =>
    exact ⟨_, rfl, h.takeOrder o _ _ _ fun ht => ht.of_parts rfl rfl rfl⟩
  | engineServiceIn o e =>
    refine ⟨_, rfl, h.takeOrder o _ _ _ fun ht => ht.of_eq (fun k => ?_) fun c l => ?_⟩
    · exact congrArg LineUnit.events ((State.line_arbitrate _ k).trans (by cases k <;> rfl))
    · exact congrArg (Channel.events · l) (State.chan_arbitrate _ c)
  | restart o => exact ⟨_, rfl, h.takeOrder o _ _ _ fun ht => ht.restartEffect _⟩
  | restartExecution =>
    refine ⟨_, rfl, ?_⟩
    split
    · exact State.eventsOk_of_reset (fun l => by cases l <;> rfl) (s.chan_restarted _)
    · exact h
  | recordStart =>
    refine ⟨_, rfl, h.ifDue ?_ _⟩
    exact h.of_parts rfl rfl rfl
  | unknownVerb o code => exact ⟨_, rfl, h.takeOrder o _ _ _ fun ht => ht⟩

/-- A step is a command on the state with the rest of the queue, or one core clock (log 1). -/
theorem State.eventsOk.step {s : State} (h : s.eventsOk) : ∃ t, step s = .next t ∧ t.eventsOk := by
  unfold Machine.step State.front
  cases s.pending with
  | nil =>
    refine ⟨_, rfl, h.ifDue ?_ _⟩
    exact h.of_parts rfl rfl rfl
  | cons i rest =>
    exact State.eventsOk.exec (s := { s with pending := rest }) (h.of_parts rfl rfl rfl) i

/-- Settles O56: every command that records or clears an event ends by bringing both lists up to date, which makes them exact
whatever was recorded; every other leaves the lists and the records. -/
theorem stepKeepsEventListsExact : Obligations.StepKeepsEventListsExact := by
  intro s t h hstep
  obtain ⟨u, hu, hok⟩ := h.step
  rw [hstep] at hu
  cases hu
  exact hok

end Sys2Proof.Machine
end

section
/-! SUPPORT. The orders in general: each verb as one effect, what every effect keeps of the Line Unit it was taken on, and that
an effect either is carried out or refuses. -/

namespace Sys2Proof.Machine

/-! ### The verbs (R181, R182) -/

/-- The effect of an order's verb, once the order has passed the checks before it. -/
def verbEffect : Instr → State → Effect
  | .bind o x p tag => bindEffect o.channel x p tag
  | .attach o modeSet requested tag => attachEffect o.channel modeSet requested tag
  | .release o => releaseEffect o.line o.channel
  | .handover o => handoverEffect o.channel
  | .check o => checkEffect o.channel
  | .splice o partner => spliceEffect o.channel partner
  | .unsplice o => unspliceEffect o.channel
  | .stage o item v => stageEffect o.line o.channel item v
  | .commit o => commitEffect o.line
  | .cancel o => cancelEffect o.line
  | .readChannel o aspect => readChannelEffect o.line o.channel aspect
  | .nextEvent o => nextEventEffect o.line
  | .clearEvents o kinds => clearEventsEffect o.line o.channel kinds
  | .clearLineEvents o kinds => clearLineEventsEffect o.line kinds
  | .selectItem o sp index => selectItemEffect o.line sp index
  | .readItem o => readItemEffect o.line
  | .writeItem o v => writeItemEffect o.line v
  | .engineServiceOut _ e => engineOutEffect e
  | .engineServiceIn _ e => engineInEffect e
  | .restart o => restartEffect o.line
  | .unknownVerb _ _ => fun s => s.refuse .badArgument
  | _ => State.done

/-- The reply's channel field of an order, read before its verb is carried out. -/
def verbField : Instr → State → BitVec 7
  | .commit o => latchedField o.line
  | .nextEvent o => headField o.line
  | .selectItem _ _ index => fun _ => BitVec.ofNat 7 index.val
  | .readItem o | .writeItem o _ => pointerField o.line
  | i => fun _ => (i.order?.map Order.echoed).getD 0

/-- Every order is taken alike. -/
theorem exec_of_order {i : Instr} {o : Order} (h : i.order? = some o) (s : State) :
    exec i s
      = .next (takeOrder o (i.belongsTo o.line) i.isBroadcastVerb (verbField i) (verbEffect i) s) := by
  cases i <;> cases h <;> rfl

/-! ### Effects that are carried out or refuse (R181) -/

/-- An effect on a state that is carried out, or refuses and leaves the state as it is, with data 0. -/
def Effect.decided (e : Effect) (s : State) : Prop := e.result.carriedOut = true ∨ e = s.refuse e.result

theorem Effect.decided_stored (s t : State) (l : Line) (clamped : Bool) (v : Nat) : (t.stored l clamped v).decided s := by
  cases clamped <;> exact .inl rfl

theorem bindEffect_decided (c : Chan) (x : Slot) (p : Fin 8) (tag : BitVec 14) (s : State) :
    (bindEffect c x p tag s).decided s := by
  unfold bindEffect
  dsimp only
  split
  · exact .inr rfl
  · exact .inr rfl
  · split
    · exact .inr rfl
    · split
      · exact .inr rfl
      · exact .inl rfl
  · split
    · exact .inr rfl
    · split
      · exact .inr rfl
      · split
        · exact .inr rfl
        · exact .inl rfl

theorem attachEffect_decided (c : Chan) (modeSet : BitVec 3) (requested : BitVec 2) (tag : BitVec 14) (s : State) :
    (attachEffect c modeSet requested tag s).decided s := by
  unfold attachEffect
  dsimp only
  split
  · exact .inr rfl
  · exact .inr rfl
  · exact .inr rfl
  · split
    · exact .inr rfl
    · exact .inl rfl
  · split
    · exact .inr rfl
    · split
      · exact .inr rfl
      · exact .inl rfl

theorem releaseEffect_decided (l : Line) (c : Chan) (s : State) : (releaseEffect l c s).decided s := by
  unfold releaseEffect
  split
  · exact .inl rfl
  · exact .inr rfl

theorem handoverEffect_decided (c : Chan) (s : State) : (handoverEffect c s).decided s := by
  unfold handoverEffect
  split
  · exact .inl rfl
  · exact .inr rfl

theorem checkEffect_decided (c : Chan) (s : State) : (checkEffect c s).decided s := by
  unfold checkEffect
  split
  · split
    · exact .inr rfl
    · split
      · exact .inr rfl
      · exact .inl rfl
  · exact .inr rfl

theorem spliceEffect_decided (a b : Chan) (s : State) : (spliceEffect a b s).decided s := by
  unfold spliceEffect
  split
  · split
    · exact .inr rfl
    · exact .inl rfl
  · exact .inr rfl

theorem unspliceEffect_decided (c : Chan) (s : State) : (unspliceEffect c s).decided s := by
  unfold unspliceEffect
  split
  · exact .inl rfl
  · exact .inr rfl

theorem stageEffect_decided (l : Line) (c : Chan) (i : Item) (v : BitVec 16) (s : State) :
    (stageEffect l c i v s).decided s := by
  unfold stageEffect
  dsimp only
  split
  · exact .inr rfl
  · split
    · exact .inr rfl
    · split
      · exact .inr rfl
      · split
        · exact .inr rfl
        · split
          · exact .inr rfl
          · next clamped _ =>
            split
            · exact .inr rfl
            · cases clamped <;> exact .inl rfl

theorem commitEffect_decided (l : Line) (s : State) : (commitEffect l s).decided s := by
  unfold commitEffect
  dsimp only
  split
  · exact .inr rfl
  · split
    · exact .inr rfl
    · split
      · exact .inr rfl
      · split
        · exact .inl rfl
        · exact .inl rfl

theorem cancelEffect_decided (l : Line) (s : State) : (cancelEffect l s).decided s := by
  unfold cancelEffect
  split
  · exact .inr rfl
  · exact .inl rfl

theorem readChannelEffect_decided (l : Line) (c : Chan) (aspect : Fin 16) (s : State) :
    (readChannelEffect l c aspect s).decided s := by
  unfold readChannelEffect
  dsimp only
  split
  · exact .inl rfl
  · split
    · exact .inl rfl
    · split
      · exact .inl rfl
      · exact .inr rfl

theorem selectItemEffect_decided (l : Line) (sp : Space) (index : Fin 128) (s : State) :
    (selectItemEffect l sp index s).decided s := by
  unfold selectItemEffect
  split
  · exact .inr rfl
  · exact .inl rfl

theorem writePattern_decided (l : Line) (index v : Nat) (s : State) : (s.writePattern l index v).decided s := by
  unfold State.writePattern
  split
  · exact .inr rfl
  · split
    · exact Effect.decided_stored s _ l _ _
    · exact Effect.decided_stored s _ l _ _

theorem writeSetting_decided (l : Line) (offset v : Nat) (s : State) : (s.writeSetting l offset v).decided s := by
  unfold State.writeSetting
  split
  · exact Effect.decided_stored s _ l _ _
  · split
    · exact Effect.decided_stored s _ l _ _
    · exact .inr rfl
  · exact Effect.decided_stored s _ l _ _
  · exact Effect.decided_stored s _ l _ _

theorem writeItemEffect_decided (l : Line) (v : BitVec 16) (s : State) : (writeItemEffect l v s).decided s := by
  unfold writeItemEffect State.writeAt
  split
  · exact .inr rfl
  · split
    · exact Effect.decided_stored s _ l _ _
    · exact writePattern_decided l _ _ s
    · exact writeSetting_decided l _ _ s
    · exact .inr rfl

theorem restartEffect_decided (l : Line) (s : State) : (restartEffect l s).decided s := by
  unfold restartEffect
  dsimp only
  split
  · exact .inl rfl
  · split <;> exact .inl rfl

/-- Every verb is carried out or refuses. -/
theorem verbEffect_decided (i : Instr) (s : State) : (verbEffect i s).decided s := by
  cases i with
  | bind o x p tag => exact bindEffect_decided _ x p tag s
  | attach o modeSet requested tag => exact attachEffect_decided _ modeSet requested tag s
  | release o => exact releaseEffect_decided _ _ s
  | handover o => exact handoverEffect_decided _ s
  | check o => exact checkEffect_decided _ s
  | splice o partner => exact spliceEffect_decided _ partner s
  | unsplice o => exact unspliceEffect_decided _ s
  | stage o item v => exact stageEffect_decided _ _ item v s
  | commit o => exact commitEffect_decided _ s
  | cancel o => exact cancelEffect_decided _ s
  | readChannel o aspect => exact readChannelEffect_decided _ _ aspect s
  | selectItem o sp index => exact selectItemEffect_decided _ sp index s
  | writeItem o v => exact writeItemEffect_decided _ v s
  | restart o => exact restartEffect_decided _ s
  | unknownVerb o code => exact .inr rfl
  | _ => exact .inl rfl

/-- So are the checks before the verb. -/
theorem carryOut_decided (o : Order) (owned : Bool) {body : State → Effect} {s : State} (h : (body s).decided s) :
    (carryOut o owned body s).decided s := by
  unfold carryOut
  split
  · exact .inr rfl
  · split
    · exact .inr rfl
    · exact h

/-! ### What a verb keeps of its Line Unit (R177, R178, R193, R195) -/

/-- The fields of a Line Unit that the taking of an order sets and its reply shows, with the settings that the watchdog's
expiry follows. -/
def LineUnit.desk (u : LineUnit) : BitVec 3 × Bool × Bool × Option Timer × Settings :=
  (u.node, u.orderError, u.silent, u.expiry, u.settings)

/-- An order taken on a line in `s` and not yet answered in `t`: the run state and the time stand, the node and the
order-error flag are those the reply shows, and the line is ALIVE with its expiry set now by the limit in force. -/
structure State.attends (s t : State) (l : Line) : Prop where
  run    : t.run = s.run
  time   : t.time = s.time
  clock  : t.clock = s.clock
  node   : (t.line l).node = (s.line l).node
  error  : (t.line l).orderError = (s.line l).orderError
  silent : (t.line l).silent = false
  expiry : (t.line l).expiry = s.watchdogFrom (t.line l).settings.watchdogLimit

theorem State.attends_touch (s : State) (l : Line) : s.attends (s.touch l) l := by
  refine ⟨by simp, by simp, by simp, ?_, ?_, ?_, ?_⟩
  all_goals rw [State.line_touch_self]

section Attends

variable {s t : State} {l : Line} (h : s.attends t l)
include h

theorem State.attends.of_desk {u : State} (hr : u.run = t.run) (ht : u.time = t.time) (hc : u.clock = t.clock)
    (hu : (u.line l).desk = (t.line l).desk) : s.attends u l := by
  obtain ⟨run, time, clock, node, error, silent, expiry⟩ := h
  simp only [LineUnit.desk, Prod.mk.injEq] at hu
  obtain ⟨hnode, herror, hsilent, hexpiry, hsettings⟩ := hu
  exact ⟨hr.trans run, ht.trans time, hc.trans clock, hnode.trans node, herror.trans error, hsilent.trans silent,
    by rw [hexpiry, expiry, hsettings]⟩

/-- What the streams, the rows and the ends of halves write of a Line Unit is no part of it. -/
theorem State.attends.of_apart {u : State} (hd : u.device = t.device) (hu : (u.line l).apart = (t.line l).apart) :
    s.attends u l :=
  h.of_desk (State.run_of_device hd) (State.time_of_device hd) (State.clock_of_device hd)
    (show (u.line l).apart.desk = (t.line l).apart.desk by rw [hu])

theorem State.attends.settle : s.attends t.settle l :=
  h.of_desk rfl rfl rfl (by rw [State.line_settle]; rfl)

theorem State.attends.mapLine (k : Line) {f : LineUnit → LineUnit} (hf : ∀ u, (f u).desk = u.desk) :
    s.attends (t.mapLine k f) l := by
  refine h.of_desk (by simp) (by simp) (by simp) ?_
  rw [State.line_mapLine]
  split
  · exact hf _
  · rfl

theorem State.attends.advancePointer : s.attends (t.advancePointer l) l := h.mapLine l fun _ => by rfl

theorem State.attends.bindEffect (c : Chan) (x : Slot) (p : Fin 8) (tag : BitVec 14) :
    s.attends (bindEffect c x p tag t).state l := by
  unfold Machine.bindEffect
  dsimp only
  split
  · exact h
  · exact h
  · split
    · exact h
    · split
      · exact h
      · exact h.of_apart (by simp [State.done, State.bindFree]) (by simp [State.done, State.bindFree])
  · split
    · exact h
    · split
      · exact h
      · split
        · exact h
        · exact State.attends.settle (h.of_apart (by simp) (by simp))

theorem State.attends.attachEffect (c : Chan) (modeSet : BitVec 3) (requested : BitVec 2) (tag : BitVec 14) :
    s.attends (attachEffect c modeSet requested tag t).state l := by
  unfold Machine.attachEffect
  dsimp only
  split
  · exact h
  · exact h
  · exact h
  · split
    · exact h
    · exact h.of_apart (by simp [State.attachFree]) (by simp [State.attachFree])
  · split
    · exact h
    · split
      · exact h
      · exact State.attends.settle (h.of_apart (by simp) (by simp))

theorem State.attends.releaseEffect (k : Line) (c : Chan) : s.attends (releaseEffect k c t).state l := by
  unfold Machine.releaseEffect
  split
  · exact State.attends.settle (h.of_apart (by simp) (by simp))
  · exact h

theorem State.attends.handoverEffect (c : Chan) : s.attends (handoverEffect c t).state l := by
  unfold Machine.handoverEffect
  split
  · exact h.of_apart (by simp [State.done, State.primeAnew]) (by simp [State.done, State.primeAnew])
  · exact h

theorem State.attends.checkEffect (c : Chan) : s.attends (checkEffect c t).state l := by
  unfold Machine.checkEffect
  split
  · split
    · exact h
    · split
      · exact h
      · exact h.of_apart (by simp [State.done, State.startCheck]) (by simp [State.done, State.startCheck])
  · exact h

theorem State.attends.spliceEffect (a b : Chan) : s.attends (spliceEffect a b t).state l := by
  unfold Machine.spliceEffect
  split
  · split
    · exact h
    · exact h.of_apart (by simp [State.done, State.joinSplice]) (by simp [State.done, State.joinSplice])
  · exact h

theorem State.attends.unspliceEffect (c : Chan) : s.attends (unspliceEffect c t).state l := by
  unfold Machine.unspliceEffect
  split
  · exact State.attends.settle (h.of_apart (by simp) (by simp))
  · exact h

theorem State.attends.stageEffect (k : Line) (c : Chan) (i : Item) (v : BitVec 16) :
    s.attends (stageEffect k c i v t).state l := by
  unfold Machine.stageEffect
  dsimp only
  split
  · exact h
  · split
    · exact h
    · split
      · exact h
      · split
        · exact h
        · split
          · exact h
          · split
            · exact h
            · dsimp only [State.done, State.stageInto]
              exact h.mapLine k fun _ => rfl

theorem State.attends.commitEffect (k : Line) : s.attends (commitEffect k t).state l := by
  have hreserved : ∀ row c, s.attends (t.reserveFor row c) l := fun row c => h.of_apart (by simp) (by simp)
  unfold Machine.commitEffect
  dsimp only
  split
  · exact h
  · split
    · exact h
    · split
      · exact h
      · split
        · dsimp only [State.done, State.stageInto]
          exact (hreserved _ _).mapLine k fun _ => rfl
        · exact State.attends.settle (h.of_apart (by simp) (by simp))

theorem State.attends.cancelEffect (k : Line) : s.attends (cancelEffect k t).state l := by
  unfold Machine.cancelEffect
  split
  · exact h
  · dsimp only [State.done, State.stageInto]
    exact h.mapLine k fun _ => rfl

theorem State.attends.readChannelEffect (k : Line) (c : Chan) (aspect : Fin 16) :
    s.attends (readChannelEffect k c aspect t).state l := by
  unfold Machine.readChannelEffect
  dsimp only
  split
  · exact h.of_apart (by simp [State.reportRead]) (by simp [State.reportRead])
  · split
    · exact h
    · split <;> exact h

theorem State.attends.selectItemEffect (k : Line) (sp : Space) (index : Fin 128) :
    s.attends (selectItemEffect k sp index t).state l := by
  unfold Machine.selectItemEffect
  split
  · exact h
  · dsimp only [State.done, State.stageInto]
    exact h.mapLine k fun _ => rfl

/-- A setting other than the watchdog limit. -/
theorem State.attends.setSettings {f : Settings → Settings} (hf : ∀ u, (f u).watchdogLimit = u.watchdogLimit) :
    s.attends (t.setSettings l f) l := by
  obtain ⟨run, time, clock, node, error, silent, expiry⟩ := h
  have hline : (t.setSettings l f).line l = { t.line l with settings := f (t.line l).settings } :=
    t.line_mapLine_self l _
  refine ⟨by simpa [State.setSettings], by simpa [State.setSettings], by simpa [State.setSettings], ?_, ?_, ?_, ?_⟩
  all_goals rw [hline]
  · exact node
  · exact error
  · exact silent
  · simp only [hf]
    exact expiry

/-- A new watchdog limit sets the expiry from itself (R193). -/
theorem State.attends.setWatchdog (v : Nat) :
    s.attends ((t.setSettings l fun u => { u with watchdogLimit := v }).mapLine l fun u =>
      { u with expiry := t.watchdogFrom v }) l := by
  obtain ⟨run, time, clock, node, error, silent, -⟩ := h
  refine ⟨by simpa [State.setSettings], by simpa [State.setSettings], by simpa [State.setSettings], ?_, ?_, ?_, ?_⟩
  all_goals simp only [State.line_mapLine_self, State.setSettings]
  · exact node
  · exact error
  · exact silent
  · simp only [State.watchdogFrom, State.timer, time, clock]

theorem State.attends.writeItemEffect (v : BitVec 16) : s.attends (writeItemEffect l v t).state l := by
  have hparts : ∀ {u : State}, u.run = t.run → u.time = t.time → u.clock = t.clock → u.lineF = t.lineF →
      u.lineR = t.lineR → s.attends (u.advancePointer l) l := fun hr ht hc hF hR =>
    (h.of_desk hr ht hc (by cases l <;> simp [State.line, hF, hR])).advancePointer
  unfold Machine.writeItemEffect State.writeAt
  split
  · exact h
  · split
    · exact hparts rfl rfl rfl rfl rfl
    · unfold State.writePattern
      dsimp only
      split
      · exact h
      · split
        · exact hparts rfl rfl rfl rfl rfl
        · exact hparts rfl rfl rfl rfl rfl
    · unfold State.writeSetting
      split
      · exact (h.setWatchdog _).advancePointer
      · split
        · exact (h.setSettings fun _ => by rfl).advancePointer
        · exact h
      · exact (h.setSettings fun _ => by rfl).advancePointer
      · exact (h.setSettings fun _ => by rfl).advancePointer
    · exact h

theorem State.attends.restartEffect (k : Line) : s.attends (restartEffect k t).state l := by
  unfold Machine.restartEffect
  dsimp only
  split
  · exact h.of_desk rfl rfl rfl (by cases l <;> rfl)
  · split
    · exact h.of_desk rfl rfl rfl (by cases l <;> rfl)
    · refine State.attends.of_apart (h.mapLine k ?_) (State.device_recordLine _ _ _) (State.apart_recordLine _ _ _ _)
      exact fun _ => rfl

end Attends

/-- Every verb keeps what its order's reply shows. -/
theorem State.attends.verbEffect {s t : State} {i : Instr} {o : Order} (h : s.attends t o.line)
    (hi : i.order? = some o) : s.attends (verbEffect i t).state o.line := by
  cases i <;> try cases hi
  case nop => exact h
  case bind x p tag => exact h.bindEffect _ x p tag
  case attach modeSet requested tag => exact h.attachEffect _ modeSet requested tag
  case release => exact h.releaseEffect _ _
  case handover => exact h.handoverEffect _
  case check => exact h.checkEffect _
  case splice partner => exact h.spliceEffect _ partner
  case unsplice => exact h.unspliceEffect _
  case stage item v => exact h.stageEffect _ _ item v
  case commit => exact h.commitEffect _
  case cancel => exact h.cancelEffect _
  case readChannel aspect => exact h.readChannelEffect _ _ aspect
  case nextEvent => exact h
  case clearEvents kinds => exact State.attends.settle (h.of_apart (by simp) (by simp))
  case clearLineEvents kinds =>
    exact h.mapLine o.line (f := fun u => { u with lineEvents := u.lineEvents &&& ~~~kinds }) fun _ => rfl
  case selectItem sp index => exact h.selectItemEffect _ sp index
  case readItem => exact h.advancePointer
  case writeItem v => exact h.writeItemEffect v
  case engineServiceOut e => exact h.of_desk rfl rfl rfl (by cases o.line <;> rfl)
  case engineServiceIn e =>
    refine h.of_apart (engineInEffect_device e t) (congrArg LineUnit.apart ?_)
    exact (State.line_arbitrate _ _).trans (by cases o.line <;> rfl)
  case restart => exact h.restartEffect _
  case unknownVerb code => exact h

theorem State.attends.carryOut {s t : State} {o : Order} (h : s.attends t o.line) (owned : Bool)
    {body : State → Effect} (hbody : s.attends (body t).state o.line) :
    s.attends (carryOut o owned body t).state o.line := by
  unfold Machine.carryOut
  split
  · exact h
  · split
    · exact h
    · exact hbody

end Sys2Proof.Machine
end

section
/-! SUPPORT. Exchanges not carried out, orders answered, orders refused, and the orders without an effect of their own. -/

namespace Sys2Proof.Machine

/-! ### Exchanges that are no orders, and orders for others (R176, R177, R180) -/

/-- Nothing but one Line Unit changed, and what it became. -/
theorem State.onlyLine_mapLine (s : State) (l : Line) (f : LineUnit → LineUnit) :
    { s.mapLine l f with lineF := s.lineF, lineR := s.lineR } = s ∧ (s.mapLine l f).line l = f (s.line l)
      ∧ (s.mapLine l f).line (otherLine l) = s.line (otherLine l) := by
  cases l <;> exact ⟨rfl, rfl, rfl⟩

theorem State.mapLine_mapLine (s : State) (l : Line) (f g : LineUnit → LineUnit) :
    (s.mapLine l f).mapLine l g = s.mapLine l (g ∘ f) := by
  cases l <;> rfl

/-- A touch changes nothing but its Line Unit. -/
theorem State.touch_eq_mapLine (s : State) (l : Line) : ∃ f, s.touch l = s.mapLine l f := by
  unfold State.touch
  dsimp only
  split
  · rw [State.recordLine, State.mapLine_mapLine, State.mapLine_mapLine]
    exact ⟨_, rfl⟩
  · exact ⟨_, rfl⟩

theorem State.onlyLine_touch (s : State) (l : Line) (f : LineUnit → LineUnit) :
    { (s.touch l).mapLine l f with lineF := s.lineF, lineR := s.lineR } = s := by
  obtain ⟨g, hg⟩ := s.touch_eq_mapLine l
  rw [hg, State.mapLine_mapLine]
  exact (s.onlyLine_mapLine l _).1

theorem State.spoil_of_ready {s : State} (h : s.run = .ready) (l : Line) :
    s.spoil l = s.mapLine l fun u => { u with orderError := true } := by
  simp [State.spoil, State.isReady, h]

theorem State.spoil_of_not_ready {s : State} (h : s.run ≠ .ready) (l : Line) : s.spoil l = s := by
  simp [State.spoil, State.isReady, h]

theorem State.noReply_of_ready {s : State} (h : s.run = .ready) (l : Line) :
    s.noReply l = s.mapLine l fun u => { u with reply := none } := by
  simp [State.noReply, State.isReady, h]

theorem State.noReply_of_not_ready {s : State} (h : s.run ≠ .ready) (l : Line) : s.noReply l = s := by
  simp [State.noReply, State.isReady, h]

/-- A spoiled order sets the flag and forms no reply. -/
theorem State.spoiled_of_ready {s : State} (h : s.run = .ready) (l : Line) :
    (s.spoil l).noReply l = s.mapLine l fun u => { u with orderError := true, reply := none } := by
  rw [State.spoil_of_ready h, State.noReply_of_ready (by simpa using h)]
  cases l <;> rfl

theorem State.spoiled_of_not_ready {s : State} (h : s.run ≠ .ready) (l : Line) : (s.spoil l).noReply l = s := by
  rw [State.spoil_of_not_ready h, State.noReply_of_not_ready h]

/-- A broadcast that is not carried out: the touch alone, with no reply. -/
theorem takeOrder_broadcast_void {o : Order} {s : State} (hr : s.run = .ready) (h7 : o.node = 7) (owned : Bool)
    {broadcast : Bool} (hb : broadcast = false ∨ o.bit7 = true) (ch : State → BitVec 7) (body : State → Effect) :
    takeOrder o owned broadcast ch body s = (s.touch o.line).mapLine o.line fun u => { u with reply := none } := by
  rcases hb with rfl | hb
  · exact takeOrder_broadcast_ignored hr h7 owned ch body
  · cases broadcast <;> simp [takeOrder, State.isReady, hr, h7, carryOut, hb, State.refuse]

/-- Settles O26: a spoiled exchange is one change of its Line Unit, an order for another node the loss of the reply alone, and
a broadcast that is not carried out the touch of its line. -/
theorem exchangesNotCarriedOutChangeNothing : Obligations.ExchangesNotCarriedOutChangeNothing := by
  refine ⟨fun l s => ⟨?_, fun hr => ?_, fun hr => ?_⟩,
    fun i o s hi => ⟨fun hr => ?_, fun hr h7 hn => ?_, fun hr h7 hb => ?_⟩⟩
  · rintro i (rfl | rfl)
    all_goals
      refine ⟨fun hr => ?_, fun hr => congrArg Host.Outcome.next (State.spoiled_of_not_ready hr l)⟩
      exact ⟨_, congrArg Host.Outcome.next (State.spoiled_of_ready hr l), s.onlyLine_mapLine l _⟩
  · exact ⟨_, congrArg Host.Outcome.next (State.spoil_of_ready hr l), s.onlyLine_mapLine l _⟩
  · exact congrArg Host.Outcome.next (State.spoil_of_not_ready hr l)
  · rw [exec_of_order hi, takeOrder_not_ready hr]
  · rw [exec_of_order hi, takeOrder_other_node hr h7 hn]
    exact ⟨_, rfl, s.onlyLine_mapLine o.line _⟩
  · rw [exec_of_order hi, takeOrder_broadcast_void hr h7 _ hb]
    refine ⟨_, rfl, s.onlyLine_touch o.line _, ?_, ?_⟩
    · rw [State.line_mapLine, if_neg (ne_otherLine _), State.line_touch_other]
    · rw [State.line_mapLine_self, State.line_touch_self]
      rfl

/-! ### Orders answered and refused (R178, R181) -/

/-- The effect of an order that names this part, the checks before its verb included, on the touched state. -/
def orderEffect (i : Instr) (o : Order) (s : State) : Effect :=
  carryOut o (i.belongsTo o.line) (verbEffect i) (s.touch o.line)

/-- An order that names this part is answered with the result and the data of its effect. -/
theorem exec_of_own_node {i : Instr} {o : Order} {s : State} (hi : i.order? = some o) (hr : s.run = .ready)
    (h7 : o.node ≠ 7) (hn : o.node = (s.line o.line).node) :
    exec i s = .next ((orderEffect i o s).state.formReply o.line (orderEffect i o s).result
      (verbField i (s.touch o.line)) (orderEffect i o s).data) := by
  rw [exec_of_order hi]
  unfold takeOrder
  rw [if_neg (by simp [State.isReady, hr]), if_neg h7, if_pos hn]
  rfl

theorem State.attends_orderEffect {i : Instr} {o : Order} (hi : i.order? = some o) (s : State) :
    s.attends (orderEffect i o s).state o.line :=
  (s.attends_touch o.line).carryOut _ ((s.attends_touch o.line).verbEffect hi)

/-- The checks before the verb, in their order (R181). -/
theorem orderEffect_result_of_checks (i : Instr) (o : Order) (s : State) :
    (o.bit7 = true → (orderEffect i o s).result = .badArgument)
      ∧ (o.bit7 = false → i.belongsTo o.line = false → (orderEffect i o s).result = .notOwner) := by
  refine ⟨fun hb => ?_, fun hb hown => ?_⟩
  · simp [orderEffect, carryOut, hb, State.refuse]
  · simp [orderEffect, carryOut, hb, hown, State.refuse]

/-- Settles O27: the reply shows the Line Unit as the order leaves it, and no verb changes what it shows but the watchdog's
expiry, which follows the limit. -/
theorem takenOrdersAreAnswered : Obligations.TakenOrdersAreAnswered := by
  intro i o s _ hi hr h7 hn
  obtain ⟨run, -, -, node, error, silent, expiry⟩ := s.attends_orderEffect hi
  obtain ⟨hbit, howned⟩ := orderEffect_result_of_checks i o s
  refine ⟨_, _, exec_of_own_node hi hr h7 hn, by rw [State.line_formReply_self], node.trans hn.symm, error,
    by rw [State.line_formReply_self], ?_, hbit, howned, ?_, ?_⟩
  · rw [State.line_formReply_self]
    simp only [State.attention, State.isReady, run, hr]
    simp
  · rw [State.line_formReply_self]
    exact silent
  · rw [State.line_formReply_self]
    exact expiry

/-- Settles O28: every effect that refuses leaves the touched state, with data 0. -/
theorem refusedOrdersChangeNothing : Obligations.RefusedOrdersChangeNothing := by
  intro i o s t p hi hr h7 hn ht hp href
  rw [exec_of_own_node hi hr h7 hn] at ht
  cases ht
  rw [State.line_formReply_self] at hp
  cases hp
  have hrefused : orderEffect i o s = (s.touch o.line).refuse (orderEffect i o s).result :=
    (carryOut_decided o _ (verbEffect_decided i _)).resolve_left (by
      intro hdone
      exact Bool.false_ne_true (href.symm.trans hdone))
  have hstate : (orderEffect i o s).state = s.touch o.line := congrArg Effect.state hrefused
  have hdata : (orderEffect i o s).data = 0 := congrArg Effect.data hrefused
  rw [hstate]
  refine ⟨hdata, State.orderFrameTo_formReply (s.orderFrame_touch o) _ _ _, by simp, by simp, ?_, by simp, ?_⟩
  · rw [State.events_formReply, State.events_touch]
  · rw [State.line_formReply_self, State.line_touch_self]

/-! ### Orders without an effect of their own (R182) -/

/-- A broadcast forms no reply, which is no part of an order's frame. -/
theorem State.orderFrameTo_noReply {s e : State} {o : Order} {chans : List Chan} {slots : List Slot} {u : LineUnit}
    (h : s.orderFrameTo e o chans slots u) :
    s.orderFrameTo (e.mapLine o.line fun v => { v with reply := none }) o chans slots u := by
  obtain ⟨hd, hc, hs, hu, ho⟩ := h
  refine ⟨by simpa using hd, fun x hx => by simpa using hc x hx, fun x hx => by simpa using hs x hx, ?_, ?_⟩
  · rw [State.line_mapLine_self]
    exact hu
  · rw [State.line_mapLine, if_neg (ne_otherLine _)]
    exact ho

/-- A verb that is carried out under broadcast too: its effect on the touched state, answered unless it is a broadcast
(R180). -/
theorem State.exec_of_reachedBy {s : State} {o : Order} {i : Instr} {body : State → Effect} (h : s.reachedBy o)
    (hi : exec i s = .next (takeOrder o true true (echo o) body s)) :
    ∃ t, exec i s = .next t
      ∧ ((o.node ≠ 7 ∧ t = (body (s.touch o.line)).state.formReply o.line (body (s.touch o.line)).result o.echoed
          (body (s.touch o.line)).data)
        ∨ (o.node = 7 ∧ t = (body (s.touch o.line)).state.mapLine o.line fun u => { u with reply := none })) := by
  obtain ⟨hr, hn, hb⟩ := h
  by_cases h7 : o.node = 7
  · exact ⟨_, hi.trans (congrArg _ (takeOrder_broadcast hr h7 hb _ _)), .inr ⟨h7, rfl⟩⟩
  · exact ⟨_, hi.trans (congrArg _ (takeOrder_addressed ⟨hr, h7, hn.resolve_left h7, hb⟩ _ _ _)), .inl ⟨h7, rfl⟩⟩

/-- Settles O29: NOP leaves the touched state, an unknown verb refuses. -/
theorem nopAndUnknownVerbsDoNothing : Obligations.NopAndUnknownVerbsDoNothing := by
  refine fun o s => ⟨fun h => ?_, fun code h => ?_⟩
  · obtain ⟨t, ht, ⟨-, rfl⟩ | ⟨h7, rfl⟩⟩ := State.exec_of_reachedBy (i := .nop o) (body := State.done) h rfl
    · exact ⟨_, ht, State.orderFrameTo_formReply (s.orderFrame_touch o) _ _ _, by simp [State.done],
        by simp [State.done], fun _ => State.answered_formReply _ _ _ _ _⟩
    · exact ⟨_, ht, State.orderFrameTo_noReply (s.orderFrame_touch o), by simp [State.done], by simp [State.done],
        fun hne => absurd h7 hne⟩
  · obtain ⟨t, ht, hanswered, hframe, hpool, hlink⟩ :=
      State.refuses_of_effect (i := .unknownVerb o code) (body := fun s => s.refuse .badArgument) h rfl rfl
    exact ⟨t, ht, hframe, hpool, hlink, hanswered⟩

end Sys2Proof.Machine
end

section
/-! SUPPORT. READ_CHANNEL, NEXT_EVENT and the two orders that clear: what their replies show, and what they leave. -/

namespace Sys2Proof

/-! ### Fields side by side in a reply's data -/

theorem toNat_fields {m n : Nat} (x : BitVec m) (y : BitVec n) : (x ++ y).toNat = x.toNat * 2 ^ n + y.toNat := by
  rw [BitVec.toNat_append, ← Nat.shiftLeft_add_eq_or_of_lt y.isLt, Nat.shiftLeft_eq]

/-- A number whose parts are the fields of a word. -/
theorem ofNat_eq_of_toNat {w n : Nat} {x : BitVec w} (h : n = x.toNat) : BitVec.ofNat w n = x := by
  rw [h, BitVec.ofNat_toNat, BitVec.setWidth_eq]

theorem Mode.code_lt (m : Mode) : m.code < 4 := by cases m <;> decide

end Sys2Proof

namespace Sys2Proof.Machine

/-! ### READ_CHANNEL (R183) -/

theorem Life.summary_halfF (h : HalfF) :
    (Life.halfF h).summary
      = 1#2 ++ 0#2 ++ BitVec.ofBool h.timer.isSome ++ BitVec.ofNat 3 h.fixed.profile.val ++ 0#2 ++ h.tag := by
  have htag := h.tag.isLt
  have hprofile := h.fixed.profile.isLt
  refine ofNat_eq_of_toNat ?_
  simp only [toNat_fields, BitVec.toNat_ofBool, BitVec.toNat_ofNat, Life.lifecycle, Lifecycle.code, Life.quietBit,
    Life.partner?, Life.timer?, Life.fixed?, Life.radio?, Life.tag?, Option.map_some, Option.map_none, Option.getD_some,
    Option.getD_none, Option.isSome_none, Bool.toNat_false]
  omega

theorem Life.summary_halfR (h : HalfR) :
    (Life.halfR h).summary
      = 2#2 ++ 0#2 ++ BitVec.ofBool h.timer.isSome ++ 0#3 ++ BitVec.ofNat 2 h.radio.active.code ++ h.tag := by
  have htag := h.tag.isLt
  have hcode := h.radio.active.code_lt
  refine ofNat_eq_of_toNat ?_
  simp only [toNat_fields, BitVec.toNat_ofBool, BitVec.toNat_ofNat, Life.lifecycle, Lifecycle.code, Life.quietBit,
    Life.partner?, Life.timer?, Life.fixed?, Life.radio?, Life.tag?, Option.map_some, Option.map_none, Option.getD_some,
    Option.getD_none, Option.isSome_none, Bool.toNat_false]
  omega

theorem Life.summary_active (a : Active) :
    (Life.active a).summary
      = 3#2 ++ BitVec.ofBool (decide (a.down.activity = .quiet)) ++ BitVec.ofBool a.partner.isSome ++ 0#1
        ++ BitVec.ofNat 3 a.fixed.profile.val ++ BitVec.ofNat 2 a.radio.active.code ++ a.tag := by
  have htag := a.tag.isLt
  have hprofile := a.fixed.profile.isLt
  have hcode := a.radio.active.code_lt
  have hquiet : (if a.down.activity = .quiet then 1 else 0) = (decide (a.down.activity = .quiet)).toNat := by
    split <;> simp [*]
  refine ofNat_eq_of_toNat ?_
  simp only [toNat_fields, BitVec.toNat_ofBool, BitVec.toNat_ofNat, hquiet, Life.lifecycle, Lifecycle.code,
    Life.quietBit, Life.partner?, Life.timer?, Life.fixed?, Life.radio?, Life.tag?, Option.map_some,
    Option.getD_some, Option.isSome_none, Bool.toNat_false]
  omega

section ReadChannel

variable (l : Line) (c : Chan) {aspect : Fin 16} (s : State)

/-- Aspect 0 reads the summary, and the reading line's copy with it. -/
theorem readChannelEffect_summary (h : aspect.val = 0) :
    readChannelEffect l c aspect s = { state := s.reportRead l c, result := .done, data := (s.life c).summary } := by
  simp [readChannelEffect, h]

theorem readChannelEffect_counter {k : Counter} (h : aspect.val = k.index.val + 1) :
    readChannelEffect l c aspect s
      = { state := s, result := .done, data := ((s.chan c).counter k).setWidth 24 } := by
  have hk : k.index.val + 1 ≤ 11 := by omega
  simp [readChannelEffect, h, hk, Channel.counter]

theorem readChannelEffect_continuity (h : aspect.val = 12) :
    readChannelEffect l c aspect s
      = { state := s
          result := .done
          data := BitVec.ofNat 24 ((s.chan c).continuity.result.code * 65536 + (s.chan c).continuity.delay) } := by
  simp [readChannelEffect, h]

theorem readChannelEffect_beyond (h : 12 < aspect.val) :
    readChannelEffect l c aspect s = s.refuse .badArgument := by
  unfold readChannelEffect
  dsimp only
  rw [if_neg (by omega), dif_neg (by omega), if_neg (by omega)]

/-- Each aspect from 1 to 11 is a counter's. -/
theorem Counter.exists_index : ∀ n : Fin 11, ∃ k : Counter, k.index = n := by
  intro n
  fin_cases n
  exacts [⟨.framesAccepted, rfl⟩, ⟨.framesLate, rfl⟩, ⟨.framesDuplicate, rfl⟩, ⟨.framesBad, rfl⟩,
    ⟨.overflowDrops, rfl⟩, ⟨.blocksConcealed, rfl⟩, ⟨.resyncs, rfl⟩, ⟨.decodeMisses, rfl⟩, ⟨.encodeMisses, rfl⟩,
    ⟨.framesSent, rfl⟩, ⟨.transmitDrops, rfl⟩]

end ReadChannel

/-- A read of the summary changes the reading line's copy on an ACTIVE context, and nothing on any other. -/
theorem State.reportRead_of_not_active {l : Line} {c : Chan} {s : State} (h : (s.life c).lifecycle ≠ .active) :
    s.reportRead l c = s := by
  unfold State.reportRead State.mapActive
  split
  · next a ha => exact absurd (by rw [ha]; rfl) h
  all_goals rfl

theorem State.orderFrame_reportRead (s : State) (o : Order) (c : Chan) :
    s.orderFrame ((s.touch o.line).reportRead o.line c) o [c] [] := by
  refine State.orderFrame_of_lines (by simp [State.reportRead]) (fun d hd => ?_) (fun x _ => by simp [State.reportRead])
    fun k => by simp [State.reportRead]
  rw [State.reportRead, State.chan_mapActive_ne _ (Ne.symm (List.mem_singleton.not.mp hd)), State.chan_touch]

/-! What the summary's reading leaves of an ACTIVE context: the reading line's copy follows its activity (R121). -/

theorem State.chan_reportRead_F {s : State} {c : Chan} {a : Active} (h : s.life c = .active a) :
    (s.reportRead .F c).chan c = { s.chan c with life := .active { a with copyF := a.down.activity } } :=
  (s.chan_mapActive_self c _).trans (Channel.mapActive_of_active h _)

theorem State.chan_reportRead_R {s : State} {c : Chan} {a : Active} (h : s.life c = .active a) :
    (s.reportRead .R c).chan c = { s.chan c with life := .active { a with copyR := a.down.activity } } :=
  (s.chan_mapActive_self c _).trans (Channel.mapActive_of_active h _)

/-- Settles O42: the aspects 0, 1 to 11, 12 and beyond in turn; the summary is read from each life state, and its reading
writes the copy of an ACTIVE channel alone. -/
theorem readChannelShowsTheContext : Obligations.ReadChannelShowsTheContext := by
  intro o aspect s h
  have hread : ∀ {e : State} {r : Result} {data : BitVec 24},
      readChannelEffect o.line o.channel aspect (s.touch o.line) = { state := e, result := r, data } →
      exec (.readChannel o aspect) s = .next (e.formReply o.line r o.echoed data) := fun he =>
    State.exec_of_effect (broadcast := false) h rfl he
  have hlife : (s.touch o.line).life o.channel = s.life o.channel := by simp [State.life]
  have hframe : ∀ r data, s.orderFrame ((s.touch o.line).formReply o.line r o.echoed data) o [] [] := fun r data =>
    State.orderFrameTo_formReply (s.orderFrame_touch o) _ _ _
  have hcounter : ∀ k : Counter, k.index.val < 11 := fun k => k.index.isLt
  obtain h0 | ⟨hlow, hhigh⟩ | h12 | hbeyond :
      aspect.val = 0 ∨ (1 ≤ aspect.val ∧ aspect.val ≤ 11) ∨ aspect.val = 12 ∨ 12 < aspect.val := by omega
  · have hstays : (s.life o.channel).lifecycle ≠ .active → s.orderFrame
        (((s.touch o.line).reportRead o.line o.channel).formReply o.line .done o.echoed
          ((s.touch o.line).life o.channel).summary) o [] [] := by
      intro hne
      rw [State.reportRead_of_not_active (by rw [hlife]; exact hne)]
      exact hframe _ _
    refine ⟨_, _, _, hread (readChannelEffect_summary _ _ _ h0), State.answered_formReply _ _ _ _ _,
      by simp [State.reportRead], by simp [State.reportRead], by simp [h0], fun hne => absurd h0 hne,
      fun k hk => absurd (h0.symm.trans hk) (by omega), fun h12 => absurd (h0.symm.trans h12) (by decide),
      fun _ hfree => ⟨?_, hstays ?_⟩, fun half _ hhalf => ⟨hstays ?_, ?_⟩, fun half _ hhalf => ⟨hstays ?_, ?_⟩,
      fun a _ ha => ⟨State.orderFrameTo_formReply (s.orderFrame_reportRead o o.channel) _ _ _, ?_, fun hF => ?_,
        fun hR => ?_⟩⟩
    · rw [hlife, hfree]
      rfl
    · rw [hfree]
      decide
    · rw [hhalf]
      exact Lifecycle.noConfusion
    · rw [hlife, hhalf, Life.summary_halfF]
    · rw [hhalf]
      exact Lifecycle.noConfusion
    · rw [hlife, hhalf, Life.summary_halfR]
    · rw [hlife, ha, Life.summary_active]
    · rw [State.chan_formReply, hF, State.chan_reportRead_F (hF ▸ hlife.trans ha), State.chan_touch]
    · rw [State.chan_formReply, hR, State.chan_reportRead_R (hR ▸ hlife.trans ha), State.chan_touch]
  · obtain ⟨k, hk⟩ := Counter.exists_index ⟨aspect.val - 1, by omega⟩
    have hk : aspect.val = k.index.val + 1 := by rw [hk]; simp only; omega
    refine ⟨_, _, _, hread (readChannelEffect_counter _ _ _ hk), State.answered_formReply _ _ _ _ _, by simp, by simp,
      (if_pos (by omega)).symm, fun _ => hframe _ _, fun j hj => ?_, by omega, by omega, by omega, by omega, by omega⟩
    rw [State.chan_touch, Counter.index_injective (show j.index.val = k.index.val by omega)]
  · exact ⟨_, _, _, hread (readChannelEffect_continuity _ _ _ h12), State.answered_formReply _ _ _ _ _, by simp, by simp,
      (if_pos (by omega)).symm, fun _ => hframe _ _, fun k hk => absurd (hcounter k) (by omega),
      fun _ => by rw [State.chan_touch], by omega, by omega, by omega, by omega⟩
  · exact ⟨_, _, _, hread (readChannelEffect_beyond _ _ _ hbeyond), State.answered_formReply _ _ _ _ _, by simp, by simp,
      (if_neg (by omega)).symm, fun _ => hframe _ _, fun k hk => absurd (hcounter k) (by omega), by omega, by omega,
      by omega, by omega, by omega⟩

end Sys2Proof.Machine
end

section
/-! SUPPORT. NEXT_EVENT, CLEAR_EVENTS and CLEAR_LINE_EVENTS. -/

namespace Sys2Proof.Machine

/-! ### The records in a reply (R191, R192) -/

/-- A record and an event set side by side. -/
theorem EventRecord.data_fields (found : BitVec 5) (e : EventRecord) :
    BitVec.ofNat 24 (e.data + found.toNat * 2 ^ 14) = 0#5 ++ found ++ e.causes ++ e.kinds := by
  refine ofNat_eq_of_toNat ?_
  simp only [toNat_fields, BitVec.toNat_ofNat, EventRecord.data]
  omega

theorem EventRecord.data_alone (e : EventRecord) : BitVec.ofNat 24 e.data = 0#10 ++ e.causes ++ e.kinds := by
  refine ofNat_eq_of_toNat ?_
  simp only [toNat_fields, BitVec.toNat_ofNat, EventRecord.data]
  omega

theorem EventRecord.data_reset (found : BitVec 5) :
    BitVec.ofNat 24 (EventRecord.reset.data + found.toNat * 2 ^ 14) = 0#5 ++ found ++ 0#14 := by
  refine ofNat_eq_of_toNat ?_
  have hzero : EventRecord.reset.data = 0 := rfl
  simp only [toNat_fields, BitVec.toNat_ofNat, hzero]
  omega

/-- The event set that an order finds: on a SILENT line the touch records WATCHDOG_EXPIRED in it (R195). -/
theorem State.lineEvents_touch (s : State) (l : Line) :
    ((s.touch l).line l).lineEvents
      = if (s.line l).silent = true then s.recordedSet l .watchdogExpired (s.line l).lineEvents
        else (s.line l).lineEvents := by
  rw [State.line_touch_self]

/-! ### NEXT_EVENT (R191) -/

/-- Settles O43: the effect reads the touched state, whose list is that of the order's start. -/
theorem nextEventShowsTheHead : Obligations.NextEventShowsTheHead := by
  intro o s found h hfound
  have hset : ((s.touch o.line).line o.line).lineEvents = found := (s.lineEvents_touch o.line).trans hfound.symm
  have hevents : ((s.touch o.line).line o.line).events = (s.line o.line).events := State.events_touch _ _ _
  refine ⟨_, State.exec_of_effect_field (broadcast := false) (body := nextEventEffect o.line) h rfl rfl,
    State.orderFrameTo_formReply (s.orderFrame_touch o) _ _ _, by simp, by simp, ?_, ?_, fun hnil => ?_,
    fun c rest hcons => ?_⟩
  · rw [State.events_formReply, hevents]
  · rw [State.line_formReply_self]
    exact hset
  · have hempty := hevents.trans hnil
    refine ⟨_, by rw [State.line_formReply_self], rfl, ?_, ?_⟩
    · simp only [headField, hempty]
    · simp only [State.headRecord, hempty, hset]
      exact EventRecord.data_reset found
  · have hhead := hevents.trans hcons
    refine ⟨_, by rw [State.line_formReply_self], rfl, ?_, ?_⟩
    · simp only [headField, hhead]
    · simp only [State.headRecord, hhead, hset, State.chan_touch]
      exact EventRecord.data_fields found _

/-! ### CLEAR_EVENTS (R190, R192) -/

theorem Channel.events_setEvents (ch : Channel) (l k : Line) (e : EventRecord) :
    (ch.setEvents l e).events k = if k = l then e else ch.events k := by
  cases l <;> cases k <;> rfl

/-- Where every flagged channel is listed, the list brought up to date is the old one without the channels flagged no
more. -/
theorem State.eventList_of_listed {s : State} {l : Line} (h : ∀ c, s.flagged l c = true → c ∈ (s.line l).events) :
    s.eventList l = (s.line l).events.filter (s.flagged l) := by
  have hnew : ((List.finRange 128).filter fun c => s.flagged l c && !(s.line l).events.contains c) = [] :=
    List.filter_eq_nil_iff.mpr fun c _ => by simpa using h c
  unfold State.eventList
  dsimp only
  rw [hnew, List.append_nil]

section ClearEvents

variable {s t : State} {l : Line} {c : Chan} {e : EventRecord} (hl : ∀ k, (t.line k).events = (s.line k).events)
  (hc : ∀ d, t.chan d = s.chan d) (hs : s.eventsOk) (he : e.kinds ≠ 0 → ((s.chan c).events l).kinds ≠ 0)
include hl hc hs

/-- The flags after a record is replaced: those of the other channels and of the other line stay. -/
theorem State.flagged_setEvents (k : Line) (d : Chan) :
    (t.mapChan c (·.setEvents l e)).flagged k d
      = if d = c ∧ k = l then decide (e.kinds ≠ 0) else decide (d ∈ (t.line k).events) := by
  have hmem := (hs k).2 d
  rw [← hl, ← hc] at hmem
  unfold State.flagged
  rw [State.chan_mapChan]
  by_cases hd : c = d
  · subst hd
    rw [if_pos rfl, Channel.events_setEvents]
    by_cases hk : k = l
    · simp [hk]
    · simp [hk, hmem]
  · rw [if_neg hd, if_neg (fun h => hd h.1.symm)]
    simp [hmem]

include he in
/-- The lists after kinds are removed from a record: the channel leaves the line's list where none remains. -/
theorem State.eventList_setEvents (k : Line) :
    (t.mapChan c (·.setEvents l e)).eventList k
      = if k = l ∧ e.kinds = 0 then (s.line k).events.filter (fun d => decide (d ≠ c)) else (s.line k).events := by
  have hflag := fun d => State.flagged_setEvents (c := c) (e := e) (l := l) hl hc hs k d
  have hlisted : ∀ d, (t.mapChan c (·.setEvents l e)).flagged k d = true →
      d ∈ ((t.mapChan c (·.setEvents l e)).line k).events := by
    intro d hd
    rw [State.line_mapChan, hl]
    rw [hflag] at hd
    split at hd
    · next hcl =>
      rw [hcl.1, hcl.2]
      exact ((hs l).2 c).mpr (he (of_decide_eq_true hd))
    · rw [hl] at hd
      exact of_decide_eq_true hd
  rw [State.eventList_of_listed hlisted, State.line_mapChan, hl]
  split
  · next hk =>
    refine List.filter_congr fun d hd => ?_
    rw [hflag, hk.1, hk.2]
    by_cases hdc : d = c
    · simp [hdc]
    · simp [hdc, hl, ← hk.1, hd]
  · next hk =>
    refine List.filter_eq_self.mpr fun d hd => ?_
    rw [hflag, hl]
    split
    · next hcl => exact decide_eq_true fun h0 => hk ⟨hcl.2, h0⟩
    · exact decide_eq_true hd

end ClearEvents

/-- The record put in place is the cleared one, and the reply shows it. -/
theorem clearEventsEffect_eq {s : State} {l : Line} {c : Chan} {kinds : BitVec 9} {e : EventRecord}
    (h : ((s.chan c).events l).clear kinds = e) :
    clearEventsEffect l c kinds s
      = { state := (s.mapChan c (·.setEvents l e)).settle, result := .done, data := 0#10 ++ e.causes ++ e.kinds } := by
  subst h
  have hchan : s.mapChan c (fun ch => ch.setEvents l ((ch.events l).clear kinds))
      = s.mapChan c (·.setEvents l (((s.chan c).events l).clear kinds)) := rfl
  unfold clearEventsEffect
  simp only [hchan, State.chan_settle, State.chan_mapChan_self, Channel.events_setEvents, if_pos,
    EventRecord.data_alone]

/-! ### CLEAR_LINE_EVENTS (R192) -/

/-- An order that changes its own Line Unit alone. -/
theorem State.orderFrameTo_mapLine {s : State} {o : Order} {f : LineUnit → LineUnit} {u : LineUnit}
    (h : u.sameButTaking (f ((s.touch o.line).line o.line))) :
    s.orderFrameTo ((s.touch o.line).mapLine o.line f) o [] [] u := by
  refine ⟨by simp, fun d _ => by simp, fun x _ => by simp, ?_, ?_⟩
  · rw [State.line_mapLine_self]
    exact h
  · rw [State.line_mapLine, if_neg (ne_otherLine _), State.line_touch_other]
    rfl

/-- Settles O44: CLEAR_EVENTS replaces one record and brings the lists up to date, where the channel alone can leave and only
the line's own list; CLEAR_LINE_EVENTS masks the event set that the touch leaves. -/
theorem clearsRemoveTheKindsNamed : Obligations.ClearsRemoveTheKindsNamed := by
  refine fun o s => ⟨fun kinds e h hs hkinds hcauses => ?_, fun kinds found h hfound => ?_⟩
  · have hclear : (((s.touch o.line).chan o.channel).events o.line).clear kinds = e := by
      rw [State.chan_touch]
      cases e
      simp only at hkinds hcauses
      rw [hkinds, hcauses]
      rfl
    have hkept : e.kinds ≠ 0 → ((s.chan o.channel).events o.line).kinds ≠ 0 := by
      rw [hkinds]
      intro hne hzero
      exact hne (by rw [hzero]; exact BitVec.zero_and)
    have hlists := State.eventList_setEvents (t := s.touch o.line) (fun k => State.events_touch _ _ _)
      (State.chan_touch s o.line) hs hkept
    refine ⟨_, State.exec_of_effect (broadcast := false) h rfl (clearEventsEffect_eq hclear),
      State.orderFrameTo_formReply (State.orderFrame_settle (by simp) (fun d hd => ?_) (fun x _ => by simp) (by simp))
        _ _ _, by simp, by simp, State.answered_formReply _ _ _ _ _, ?_, ?_, ?_⟩
    · rw [State.chan_mapChan_ne _ (Ne.symm (List.mem_singleton.not.mp hd)), State.chan_touch]
    · simp
    · rw [State.events_formReply, State.line_settle, hlists]
      simp
    · rw [State.events_formReply, State.line_settle, hlists, if_neg fun hk => (ne_otherLine _) hk.1.symm]
  · have hset := (s.lineEvents_touch o.line).trans hfound.symm
    have hline : ((clearLineEventsEffect o.line kinds (s.touch o.line)).state.line o.line).lineEvents
        = found &&& ~~~kinds := by
      rw [← hset]
      exact congrArg LineUnit.lineEvents (State.line_mapLine_self _ _ _)
    have hframe : s.orderFrame (clearLineEventsEffect o.line kinds (s.touch o.line)).state o [] [] :=
      State.orderFrameTo_mapLine (s.sameButTaking_touch o.line)
    obtain ⟨t, ht, ⟨-, rfl⟩ | ⟨h7, rfl⟩⟩ :=
      State.exec_of_reachedBy (i := .clearLineEvents o kinds) (body := clearLineEventsEffect o.line kinds) h rfl
    · refine ⟨_, ht, State.orderFrameTo_formReply hframe _ _ _, by simp [clearLineEventsEffect],
        by simp [clearLineEventsEffect], ?_, ?_, fun _ => ?_⟩
      · simp [clearLineEventsEffect]
      · rw [State.line_formReply_self]
        exact hline
      · exact ⟨_, by rw [State.line_formReply_self], rfl, rfl, congrArg (BitVec.setWidth 24) hline⟩
    · refine ⟨_, ht, State.orderFrameTo_noReply hframe, by simp [clearLineEventsEffect],
        by simp [clearLineEventsEffect], ?_, ?_, fun hne => absurd h7 hne⟩
      · simp [clearLineEventsEffect]
      · rw [State.line_mapLine_self]
        exact hline

end Sys2Proof.Machine
end

section
/-! SUPPORT. The item spaces: what an index names, the value read there, and the writes. -/

namespace Sys2Proof.Machine

/-! ### Indices (R184, R185, R187) -/

theorem profileOf_eq (p : Fin 8) {f : Nat} (hf : f < 9) : profileOf (9 * p.val + f) = p := by
  refine Fin.ext ?_
  simp only [profileOf, Fin.ofNat]
  omega

theorem profileField_eq (p : Nat) {f : Nat} (hf : f < 9) : (9 * p + f) % 9 = f := by omega

theorem lineOf_eq (l : Line) (offset : Fin 4) : lineOf ((if l = .F then 0 else 4) + offset.val) = l := by
  cases l
  · simp [lineOf]
  · simp [lineOf]

theorem settingOf_eq (l : Line) (offset : Fin 4) : ((if l = .F then 0 else 4) + offset.val) % 4 = offset.val := by
  cases l <;> simp

/-! ### The value at an index (R185 to R188, R166) -/

theorem State.item_profile (s : State) (p : Fin 8) {f : Nat} (hf : f < 9) :
    s.item .profile (9 * p.val + f) = (s.profiles[p.val]).field f := by
  simp only [State.item, profileOf_eq p hf, profileField_eq p.val hf]

theorem State.item_pattern (s : State) (j : Fin 16) : s.item .pattern j.val = (s.pattern[j.val]).toNat := by
  simp [State.item]

theorem State.item_line (s : State) (l : Line) (offset : Fin 4) :
    s.item .line ((if l = .F then 0 else 4) + offset.val) = (s.line l).settings.field offset.val := by
  simp only [State.item, lineOf_eq, settingOf_eq]

theorem State.deviceItem_engine (s : State) (e : Fin 4) : s.deviceItem (4 + e.val) = (s.engines[e.val]).code := by
  fin_cases e <;> rfl

theorem State.node_touch (s : State) (l k : Line) : ((s.touch l).line k).node = (s.line k).node := by
  by_cases h : l = k
  · subst h
    rw [State.line_touch_self]
  · rw [State.line_touch_ne _ h]

/-- The taking of an order returns its own line to ALIVE (R195). -/
theorem State.silent_touch (s : State) (l k : Line) :
    ((s.touch l).line k).silent = (decide (k ≠ l) && (s.line k).silent) := by
  by_cases h : l = k
  · subst h
    simp [State.line_touch_self]
  · rw [State.line_touch_ne _ h]
    simp [Ne.symm h]

/-- The touch changes no item but the watchdog state of its own line. -/
theorem State.item_touch (s : State) (l : Line) (sp : Space) (index : Nat) (h : sp = .device → index < 12) :
    (s.touch l).item sp index = s.item sp index := by
  cases sp with
  | profile => simp only [State.item, State.touch_profiles]
  | pattern => simp only [State.item, State.touch_pattern, State.touch_mask]
  | line => simp only [State.item, State.settings_touch]
  | device =>
    have hindex := h rfl
    have hcause : (s.touch l).cause = s.cause := congrArg Device.cause (State.device_touch s l)
    have hunreadable : (s.touch l).unreadable = s.unreadable := congrArg Device.unreadable (State.device_touch s l)
    have hstray : (s.touch l).stray = s.stray := congrArg Device.stray (State.device_touch s l)
    have hnodeF : (s.touch l).lineF.node = s.lineF.node := s.node_touch l .F
    have hnodeR : (s.touch l).lineR.node = s.lineR.node := s.node_touch l .R
    simp only [State.item]
    interval_cases index
    all_goals simp only [State.deviceItem, hcause, hunreadable, hstray, hnodeF, hnodeR, State.touch_engines]

/-! ### SELECT_ITEM and READ_ITEM (R184) -/

theorem selectItemEffect_within {sp : Space} {index : Fin 128} (h : index.val ≤ sp.last) (l : Line) (s : State) :
    selectItemEffect l sp index s
      = { state := s.mapLine l fun u => { u with space := sp, index := index.val }
          result := .done
          data := BitVec.ofNat 24 (256 * sp.code + index.val) } := by
  rw [selectItemEffect, if_neg (by omega), Nat.mul_comm 256]
  rfl

theorem selectItemEffect_beyond {sp : Space} {index : Fin 128} (h : sp.last < index.val) (l : Line) (s : State) :
    selectItemEffect l sp index s = s.refuse .badArgument := by
  rw [selectItemEffect, if_pos h]

theorem State.orderFrameTo_advancePointer (s : State) (o : Order) :
    s.orderFrameTo ((s.touch o.line).advancePointer o.line) o [] [] { s.line o.line with index :=
      if (s.line o.line).index < (s.line o.line).space.last then (s.line o.line).index + 1 else 0 } := by
  refine State.orderFrameTo_mapLine ?_
  rw [State.line_touch_self]
  rfl

/-- A line reads itself ALIVE, and the other line as it is. -/
theorem State.item_silent (s : State) (l k : Line) :
    (s.touch l).item .device (if k = .F then 12 else 13) = if k ≠ l ∧ (s.line k).silent = true then 1 else 0 := by
  have hsilent := s.silent_touch l k
  have hitem : (s.touch l).item .device (if k = .F then 12 else 13) = ((s.touch l).line k).silent.toNat := by
    cases k <;> rfl
  rw [hitem, hsilent]
  by_cases hk : k = l
  · simp [hk]
  · cases hs : (s.line k).silent <;> simp [hk]

theorem exec_selectItem {s : State} {o : Order} (h : s.addressed o) (sp : Space) (index : Fin 128) :
    ∃ t, exec (.selectItem o sp index) s = .next t ∧ t.pool = s.pool ∧ t.link = s.link
      ∧ (index.val ≤ sp.last →
        t.answered o .done (BitVec.ofNat 7 index.val) (BitVec.ofNat 24 (256 * sp.code + index.val))
        ∧ s.orderFrameTo t o [] [] { s.line o.line with space := sp, index := index.val })
      ∧ (sp.last < index.val →
        t.answered o .badArgument (BitVec.ofNat 7 index.val) 0 ∧ s.orderFrame t o [] []) := by
  have htake : exec (.selectItem o sp index) s = .next (takeOrder o true false (fun _ => BitVec.ofNat 7 index.val)
      (selectItemEffect o.line sp index) s) := rfl
  by_cases hin : index.val ≤ sp.last
  · have hframe : s.orderFrameTo ((s.touch o.line).mapLine o.line fun u => { u with space := sp, index := index.val })
        o [] [] { s.line o.line with space := sp, index := index.val } := by
      refine State.orderFrameTo_mapLine ?_
      rw [State.line_touch_self]
      rfl
    exact ⟨_, State.exec_of_effect_field h htake (selectItemEffect_within hin o.line _), by simp, by simp,
      fun _ => ⟨State.answered_formReply _ _ _ _ _, State.orderFrameTo_formReply hframe _ _ _⟩,
      fun hbeyond => absurd hin (Nat.not_le.mpr hbeyond)⟩
  · obtain ⟨t, ht, hanswered, hframe, hpool, hlink⟩ :=
      State.refuses_of_effect_field h htake (selectItemEffect_beyond (Nat.not_le.mp hin) o.line _)
    exact ⟨t, ht, hpool, hlink, fun hin' => absurd hin' hin, fun _ => ⟨hanswered, hframe⟩⟩

/-- Settles O45: SELECT_ITEM sets the pointer or refuses; READ_ITEM reads the touched state, where no item is changed but the
line's own watchdog state. -/
theorem itemsAreSelectedAndRead : Obligations.ItemsAreSelectedAndRead := by
  intro o s h
  refine ⟨fun sp index => exec_selectItem h sp index, ?_⟩
  obtain ⟨hspace, hindex⟩ := s.pointer_touch o.line o.line
  have hdevice : ∀ {index}, index < 12 → (s.touch o.line).item .device index = s.deviceItem index := fun hlow =>
    s.item_touch o.line .device _ fun _ => hlow
  refine ⟨_, (s.touch o.line).item (s.line o.line).space (s.line o.line).index,
    State.exec_of_effect_field (broadcast := false) (ch := pointerField o.line) (body := readItemEffect o.line) h rfl rfl,
    by simp [State.advancePointer], by simp [State.advancePointer], ?_,
    State.orderFrameTo_formReply (s.orderFrameTo_advancePointer o) _ _ _, ?_, ?_, ?_, ?_, ?_, ?_⟩
  · rw [pointerField, hspace, hindex]
    exact State.answered_formReply _ _ _ _ _
  · intro p f hsp hi
    rw [hsp, hi, State.item_touch _ _ _ _ (by simp), State.item_profile s p (by omega)]
  · intro p hsp hi
    rw [hsp, hi, State.item_touch _ _ _ _ (by simp), State.item_profile s p (by omega)]
    cases hstate : (s.profiles[p.val]).state <;> simp [Profile.field, ProfileState.code, hstate]
  · intro j hsp hi
    rw [hsp, hi, State.item_touch _ _ _ _ (by simp), State.item_pattern]
  · intro hsp hi
    rw [hsp, hi, State.item_touch _ _ _ _ (by simp)]
    rfl
  · intro l offset hsp hi
    rw [hsp, hi, State.item_touch _ _ _ _ (by simp), State.item_line]
    refine ⟨fun h0 => ?_, fun h1 => ?_, fun h2 => ?_, fun h3 => ?_⟩
    · rw [h0]; rfl
    · rw [h1]
      cases ha : (s.line l).settings.releaseAction <;> simp [Settings.field, ha]
    · rw [h2]; rfl
    · rw [h3]; rfl
  · intro hsp
    rw [hsp]
    refine ⟨fun hi => ?_, fun hi => ?_, fun hi => ?_, fun hi => ?_, fun e hi => ?_, fun hi => ?_, fun hi => ?_,
      fun hi => ?_, fun hi => ?_, fun hi => ?_, fun hi => ?_⟩
    all_goals rw [hi]
    · rfl
    · rfl
    · rfl
    · rw [hdevice (by decide)]
      cases hcause : s.cause <;> simp [State.deviceItem, hcause]
    · rw [hdevice (by omega), State.deviceItem_engine]
      cases s.engines[e.val] <;> rfl
    · exact hdevice (by decide)
    · exact hdevice (by decide)
    · exact hdevice (by decide)
    · exact hdevice (by decide)
    · refine (s.item_silent o.line .F).trans ?_
      cases o.line <;> simp [State.line]
    · refine (s.item_silent o.line .R).trans ?_
      cases o.line <;> simp [State.line]

end Sys2Proof.Machine
end

section
/-! SUPPORT. WRITE_ITEM: profiles, the pattern and the mask, and a line's own settings. -/

namespace Sys2Proof.Machine

/-! ### A write and its reply (R182, R184) -/

/-- The effect of a write on the touched state, at the pointer of the order's start. -/
theorem writeItemEffect_touch (l : Line) (value : BitVec 16) (s : State) :
    writeItemEffect l value (s.touch l)
      = (s.touch l).writeAt l (s.line l).space (s.line l).index value.toNat := by
  obtain ⟨hspace, hindex⟩ := s.pointer_touch l l
  rw [writeItemEffect, hspace, hindex]

/-- CLAMPED shows that the value stored is not the value written. -/
theorem State.stored_eq (t : State) (l : Line) (v w n : Nat) :
    t.stored l (decide (v ≠ w)) n
      = { state := t.advancePointer l, result := if v = w then .done else .clamped, data := BitVec.ofNat 24 n } := by
  by_cases h : v = w <;> simp [State.stored, h]

/-- A write that is carried out, at the pointer. -/
theorem exec_writeItem {s e : State} {o : Order} {value : BitVec 16} {r : Result} {data : BitVec 24}
    (h : s.addressed o)
    (hw : (s.touch o.line).writeAt o.line (s.line o.line).space (s.line o.line).index value.toNat
      = { state := e, result := r, data }) :
    exec (.writeItem o value) s = .next (e.formReply o.line r (BitVec.ofNat 7 (s.line o.line).index) data) := by
  have hfield : pointerField o.line (s.touch o.line) = BitVec.ofNat 7 (s.line o.line).index := by
    rw [pointerField, (s.pointer_touch o.line o.line).2]
  have hexec := State.exec_of_effect_field (i := .writeItem o value) (broadcast := false) (ch := pointerField o.line)
    (body := writeItemEffect o.line value) h rfl ((writeItemEffect_touch _ _ _).trans hw)
  rwa [hfield] at hexec

theorem State.refuses_writeItem {s : State} {o : Order} {value : BitVec 16} {r : Result} (h : s.addressed o)
    (hw : (s.touch o.line).writeAt o.line (s.line o.line).space (s.line o.line).index value.toNat
      = (s.touch o.line).refuse r) :
    s.refuses (.writeItem o value) o r (BitVec.ofNat 7 (s.line o.line).index) := by
  have hfield : pointerField o.line (s.touch o.line) = BitVec.ofNat 7 (s.line o.line).index := by
    rw [pointerField, (s.pointer_touch o.line o.line).2]
  have href := State.refuses_of_effect_field (i := .writeItem o value) (broadcast := false) (ch := pointerField o.line)
    (body := writeItemEffect o.line value) h rfl ((writeItemEffect_touch _ _ _).trans hw)
  rwa [hfield] at href

/-! ### The PROFILE and PATTERN spaces (R185, R186, R166, R167) -/

/-- A state with the profiles, the pattern and the mask replaced. -/
def State.setShared (s : State) (profiles : Vector Profile 8) (pattern : Vector Octet 16) (mask : BitVec 16) : State :=
  { s with profiles, pattern, mask }

/-- The replaced parts are in no Line Unit, so the pointer and the reply are those of the state before. -/
theorem State.setShared_formReply (s : State) (l : Line) (profiles : Vector Profile 8) (pattern : Vector Octet 16)
    (mask : BitVec 16) (r : Result) (ch : BitVec 7) (d : BitVec 24) :
    ((s.setShared profiles pattern mask).advancePointer l).formReply l r ch d
      = ((s.advancePointer l).formReply l r ch d).setShared profiles pattern mask := by
  cases l <;> rfl

@[simp] theorem State.pool_setShared (s : State) (profiles : Vector Profile 8) (pattern : Vector Octet 16)
    (mask : BitVec 16) : (s.setShared profiles pattern mask).pool = s.pool := rfl

@[simp] theorem State.link_setShared (s : State) (profiles : Vector Profile 8) (pattern : Vector Octet 16)
    (mask : BitVec 16) : (s.setShared profiles pattern mask).link = s.link := rfl

theorem State.setShared_setShared (s : State) (profiles profiles' : Vector Profile 8) (pattern pattern' : Vector Octet 16)
    (mask mask' : BitVec 16) :
    (s.setShared profiles pattern mask).setShared profiles' pattern' mask' = s.setShared profiles' pattern' mask' := rfl

theorem State.setShared_of_device {s t : State} (h : t.device = s.device) :
    t.setShared s.profiles s.pattern s.mask = t := by
  rw [← State.profiles_of_device h, ← State.pattern_of_device h, ← State.mask_of_device h]
  rfl

section Shared

/-! One part alone replaced. -/

theorem State.setShared_profiles {s t : State} (hpattern : t.pattern = s.pattern) (hmask : t.mask = s.mask) :
    t.setShared s.profiles s.pattern s.mask = { t with profiles := s.profiles } := by
  rw [← hpattern, ← hmask]
  rfl

theorem State.setShared_pattern {s t : State} (hprofiles : t.profiles = s.profiles) (hmask : t.mask = s.mask) :
    t.setShared s.profiles s.pattern s.mask = { t with pattern := s.pattern } := by
  rw [← hprofiles, ← hmask]
  rfl

theorem State.setShared_mask {s t : State} (hprofiles : t.profiles = s.profiles) (hpattern : t.pattern = s.pattern) :
    t.setShared s.profiles s.pattern s.mask = { t with mask := s.mask } := by
  rw [← hprofiles, ← hpattern]
  rfl

variable {s : State} {o : Order} {value : BitVec 16} {profiles : Vector Profile 8} {pattern : Vector Octet 16}
  {mask : BitVec 16} {v n : Nat}

/-- A write that replaces profiles, pattern or mask. -/
theorem exec_writeShared (h : s.addressed o)
    (hw : (s.touch o.line).writeAt o.line (s.line o.line).space (s.line o.line).index value.toNat
      = ((s.touch o.line).setShared profiles pattern mask).stored o.line (decide (v ≠ value.toNat)) n) :
    ∃ t, exec (.writeItem o value) s = .next t
      ∧ s.orderFrameTo (t.setShared s.profiles s.pattern s.mask) o [] [] { s.line o.line with index :=
        if (s.line o.line).index < (s.line o.line).space.last then (s.line o.line).index + 1 else 0 }
      ∧ t.answered o (if v = value.toNat then .done else .clamped) (BitVec.ofNat 7 (s.line o.line).index)
        (BitVec.ofNat 24 n)
      ∧ t.pool = s.pool ∧ t.link = s.link ∧ t.profiles = profiles ∧ t.pattern = pattern ∧ t.mask = mask := by
  have hexec := exec_writeItem h (hw.trans (State.stored_eq _ _ _ _ _))
  have hreply := State.answered_formReply (((s.touch o.line).setShared profiles pattern mask).advancePointer o.line) o
    (if v = value.toNat then .done else .clamped) (BitVec.ofNat 7 (s.line o.line).index) (BitVec.ofNat 24 n)
  rw [State.setShared_formReply] at hexec hreply
  have hframe := State.orderFrameTo_formReply (s.orderFrameTo_advancePointer o)
    (if v = value.toNat then .done else .clamped) (BitVec.ofNat 7 (s.line o.line).index) (BitVec.ofNat 24 n)
  refine ⟨_, hexec, ?_, hreply, ?_, ?_, rfl, rfl, rfl⟩
  · rw [State.setShared_setShared, State.setShared_of_device hframe.1]
    exact hframe
  · simp [State.advancePointer]
  · simp [State.advancePointer]

end Shared

/-! ### What a write stores -/

section Stores

variable (s : State) (p : Fin 8) (v : Nat)

theorem Profile.state_setField (q : Profile) (f : Fin 8) : (q.setField f.val v).state = .unchecked := by
  fin_cases f <;> rfl

theorem Profile.checkValue_setField (q : Profile) (f : Fin 8) : (q.setField f.val v).checkValue = q.checkValue := by
  fin_cases f <;> rfl

/-- A field is brought into its range and stored, and the profile becomes UNCHECKED (R185). -/
theorem State.writeAt_field (f : Fin 8) (w : Nat) (hv : v = clampNat (profileRange f.val) w) :
    s.writeAt .F .profile (9 * p.val + f.val) w
      = (s.setShared (s.profiles.set p.val ((s.profiles[p.val]).setField f.val v)) s.pattern s.mask).stored .F
          (decide (v ≠ w)) v := by
  have hf : f.val < 9 := by omega
  have hfield : ((s.profiles[p.val]).setField f.val v).field f.val = v := by
    rw [Profile.field_setField, if_pos rfl]
  have hne : f.val ≠ 8 := by omega
  simp only [State.writeAt, ownsItem, State.writeProfile, profileOf_eq p hf, profileField_eq p.val hf, ← hv, hne,
    if_false, hfield]
  rfl

/-- The check value is stored, and the profile is VALID or INVALID by it (R186). -/
theorem State.writeAt_check (w : Nat) (hv : v = min 255 w) :
    s.writeAt .F .profile (9 * p.val + 8) w
      = (s.setShared (s.profiles.set p.val ((s.profiles[p.val]).checked v)) s.pattern s.mask).stored .F
          (decide (v ≠ w)) (v + 256 * if (Checks.crc8 (s.profiles[p.val]).octets).toNat = v then 1 else 2) := by
  have hclamp : clampNat (profileRange 8) w = v := by simp [clampNat, profileRange, hv]
  have hfield : ((s.profiles[p.val]).checked v).field 8
      = v + 256 * if (Checks.crc8 (s.profiles[p.val]).octets).toNat = v then 1 else 2 := by
    simp only [Profile.field, Profile.checked]
    split <;> rfl
  simp only [State.writeAt, ownsItem, State.writeProfile, profileOf_eq p (show 8 < 9 by decide),
    profileField_eq p.val (show 8 < 9 by decide), hclamp, if_true, hfield]
  rfl

theorem State.anyCheckRunning_iff : s.anyCheckRunning = true ↔ ∃ c, (s.chan c).continuity.result = .running := by
  unfold State.anyCheckRunning State.chan
  rw [List.any_eq_true]
  constructor
  · rintro ⟨ch, hmem, hrun⟩
    obtain ⟨n, hn, rfl⟩ := Vector.mem_iff_getElem.mp (Vector.mem_toList_iff.mp hmem)
    exact ⟨⟨n, hn⟩, of_decide_eq_true hrun⟩
  · rintro ⟨c, hrun⟩
    exact ⟨_, Vector.mem_toList_iff.mpr (Vector.getElem_mem c.isLt), decide_eq_true hrun⟩

theorem State.writeAt_octet (j : Fin 16) (w : Nat) (hidle : s.anyCheckRunning = false) (hv : v = min w 255) :
    s.writeAt .F .pattern j.val w
      = (s.setShared s.profiles (s.pattern.set j.val (BitVec.ofNat 8 v)) s.mask).stored .F (decide (v ≠ w)) v := by
  subst hv
  simp [State.writeAt, ownsItem, State.writePattern, hidle, State.setShared]

theorem State.writeAt_mask (w : Nat) (hidle : s.anyCheckRunning = false) :
    s.writeAt .F .pattern 16 w
      = (s.setShared s.profiles s.pattern (BitVec.ofNat 16 w)).stored .F (decide (w ≠ w)) w := by
  simp [State.writeAt, ownsItem, State.writePattern, hidle, State.setShared]

theorem State.writeAt_busy (index w : Nat) (hrunning : s.anyCheckRunning = true) :
    s.writeAt .F .pattern index w = s.refuse .busy := by
  simp [State.writeAt, ownsItem, State.writePattern, hrunning]

end Stores

/-- Settles O46: each index of the two spaces is one write of the shared parts, which the frame puts back. -/
theorem profilesAndPatternAreWritten : Obligations.ProfilesAndPatternAreWritten := by
  intro o value s u h hF hu
  have hline : s.line o.line = s.lineF := by rw [hF]; rfl
  have hchecks : (s.touch o.line).anyCheckRunning = true ↔ ∃ c, (s.chan c).continuity.result = .running := by
    rw [State.anyCheckRunning_iff]
    simp only [State.chan_touch]
  have hidle : (∀ c, (s.chan c).continuity.result ≠ .running) → (s.touch o.line).anyCheckRunning = false := fun hno =>
    Bool.eq_false_iff.mpr fun hrunning => by
      obtain ⟨c, hc⟩ := hchecks.mp hrunning
      exact hno c hc
  have hwhere : u = { s.line o.line with index :=
      if (s.line o.line).index < (s.line o.line).space.last then (s.line o.line).index + 1 else 0 } := by
    rw [hline]
    exact hu
  refine ⟨fun p f v hspace hindex hv => ?_, fun p v hspace hindex hv => ?_, fun j v hspace hindex hno hv => ?_,
    fun hspace hindex hno => ?_, fun hspace hrunning => ?_⟩
  · obtain ⟨t, ht, hframe, hanswered, hpool, hlink, hprofiles, hpattern, hmask⟩ :=
      exec_writeShared h (by
        rw [hline, hspace, hindex, hF]
        exact (s.touch .F).writeAt_field p v f value.toNat hv)
    rw [State.touch_profiles] at hprofiles
    rw [State.setShared_profiles (hpattern.trans (s.touch_pattern _)) (hmask.trans (s.touch_mask _)), ← hwhere] at hframe
    rw [hline] at hanswered
    have hset : t.profiles[p.val] = (s.profiles[p.val]).setField f.val v := by simp [hprofiles]
    refine ⟨t, ht, hframe, hanswered, hpool, hlink, fun q hq => ?_, ?_, ?_, ?_, fun g hg => ?_⟩
    · simp only [hprofiles]
      exact Vector.getElem_set_ne _ _ fun hpq => hq (Fin.ext hpq.symm)
    all_goals rw [hset]
    · rw [Profile.field_setField, if_pos rfl]
    · exact Profile.state_setField _ _ _
    · exact Profile.checkValue_setField _ _ _
    · rw [Profile.field_setField, if_neg hg]
  · obtain ⟨t, ht, hframe, hanswered, hpool, hlink, hprofiles, hpattern, hmask⟩ :=
      exec_writeShared h (by
        rw [hline, hspace, hindex, hF]
        exact (s.touch .F).writeAt_check p v value.toNat hv)
    simp only [State.touch_profiles] at hprofiles hanswered
    rw [State.setShared_profiles (hpattern.trans (s.touch_pattern _)) (hmask.trans (s.touch_mask _)), ← hwhere] at hframe
    rw [hline] at hanswered
    refine ⟨t, ht, hframe, hanswered, hpool, hlink, fun q hq => ?_, ?_⟩
    · simp only [hprofiles]
      exact Vector.getElem_set_ne _ _ fun hpq => hq (Fin.ext hpq.symm)
    · simp [hprofiles, Profile.checked]
  · obtain ⟨t, ht, hframe, hanswered, hpool, hlink, hprofiles, hpattern, hmask⟩ :=
      exec_writeShared h (by
        rw [hline, hspace, hindex, hF]
        exact (s.touch .F).writeAt_octet v j value.toNat (hF ▸ hidle hno) hv)
    rw [State.touch_pattern] at hpattern
    rw [State.setShared_pattern (hprofiles.trans (s.touch_profiles _)) (hmask.trans (s.touch_mask _)), ← hwhere] at hframe
    rw [hline, hindex] at hanswered
    exact ⟨t, ht, hframe, hanswered, hpool, hlink, hpattern⟩
  · obtain ⟨t, ht, hframe, hanswered, hpool, hlink, hprofiles, hpattern, hmask⟩ :=
      exec_writeShared h (by
        rw [hline, hspace, hindex, hF]
        exact (s.touch .F).writeAt_mask value.toNat (hF ▸ hidle hno))
    rw [State.setShared_mask (hprofiles.trans (s.touch_profiles _)) (hpattern.trans (s.touch_pattern _)), ← hwhere]
      at hframe
    rw [hline, hindex, if_pos rfl, BitVec.ofNat_toNat] at hanswered
    exact ⟨t, ht, hframe, hanswered, hpool, hlink, hmask.trans (by simp)⟩
  · rw [← hline] at hspace ⊢
    exact State.refuses_writeItem h (by
      rw [hspace, hF]
      exact State.writeAt_busy _ _ _ (hF ▸ hchecks.mpr hrunning))

/-! ### The LINE space (R187, R193) -/

section Settings

variable {s : State} {o : Order} {value : BitVec 16}

theorem State.writeAt_setting (t : State) (l : Line) (offset : Fin 4) (w : Nat) :
    t.writeAt l .line ((if l = .F then 0 else 4) + offset.val) w = t.writeSetting l offset.val w := by
  simp only [State.writeAt, ownsItem, lineOf_eq, settingOf_eq, decide_true, Bool.not_true, if_false, Bool.false_eq_true]

/-! Each setting, as one change of its Line Unit. -/

theorem State.writeSetting_watchdog (t : State) (l : Line) (w : Nat) :
    t.writeSetting l 0 w
      = (t.mapLine l fun u => { u with
          settings := { u.settings with watchdogLimit := min w 63 }, expiry := t.watchdogFrom (min w 63) }).stored l
          (decide (min w 63 ≠ w)) (min w 63) := by
  simp only [State.writeSetting, State.setSettings, State.mapLine_mapLine]
  rfl

theorem State.writeSetting_action (t : State) (l : Line) {w : Nat} (h : w ≤ 1) :
    t.writeSetting l 1 w
      = (t.mapLine l fun u => { u with settings := { u.settings with releaseAction := decide (w = 1) } }).stored l
          (decide (w ≠ w)) w := by
  simp only [State.writeSetting, State.setSettings, h, if_true, ne_eq, not_true_eq_false, decide_false]

theorem State.writeSetting_action_refused (t : State) (l : Line) {w : Nat} (h : 1 < w) :
    t.writeSetting l 1 w = t.refuse .badArgument := by
  simp only [State.writeSetting, Nat.not_le.mpr h, if_false]

theorem State.writeSetting_halfWait (t : State) (l : Line) (w : Nat) :
    t.writeSetting l 2 w
      = (t.mapLine l fun u => { u with settings := { u.settings with halfWaitLimit := min w 255 } }).stored l
          (decide (min w 255 ≠ w)) (min w 255) := rfl

theorem State.writeSetting_mask (t : State) (l : Line) (value : BitVec 16) :
    t.writeSetting l 3 value.toNat
      = (t.mapLine l fun u => { u with settings := { u.settings with eventMask := value.setWidth 14 } }).stored l
          (decide (value.toNat % 16384 ≠ value.toNat)) (value.toNat % 16384) := by
  simp only [State.writeSetting, State.setSettings, BitVec.ofNat_toNat]

/-- A write that leaves new settings and the watchdog's expiry by them. -/
theorem exec_writeSetting {f : LineUnit → LineUnit} {settings : Settings} {v : Nat} (h : s.addressed o)
    (hspace : (s.line o.line).space = .line)
    (hw : (s.touch o.line).writeAt o.line .line (s.line o.line).index value.toNat
      = ((s.touch o.line).mapLine o.line f).stored o.line (decide (v ≠ value.toNat)) v)
    (hf : f ((s.touch o.line).line o.line)
      = { (s.touch o.line).line o.line with settings, expiry := s.watchdogFrom settings.watchdogLimit }) :
    ∃ t, exec (.writeItem o value) s = .next t ∧ t.pool = s.pool ∧ t.link = s.link
      ∧ s.orderFrameTo t o [] [] { s.line o.line with
          settings, index := if (s.line o.line).index < 7 then (s.line o.line).index + 1 else 0 }
      ∧ t.answered o (if v = value.toNat then .done else .clamped) (BitVec.ofNat 7 (s.line o.line).index)
        (BitVec.ofNat 24 v)
      ∧ (t.line o.line).expiry = (if settings.watchdogLimit = 0 then none
        else some { expiry := s.time + settings.watchdogLimit * 800, since := s.clock }) := by
  have hexec := exec_writeItem h ((congrArg (State.writeAt _ _ · _ _) hspace).trans
    (hw.trans (State.stored_eq _ _ _ _ _)))
  have hnext : (s.line o.line).space.next (s.line o.line).index
      = if (s.line o.line).index < 7 then (s.line o.line).index + 1 else 0 := by
    rw [hspace]
    rfl
  rw [State.advancePointer, State.mapLine_mapLine] at hexec
  refine ⟨_, hexec, by simp, by simp, State.orderFrameTo_formReply (State.orderFrameTo_mapLine ?_) _ _ _,
    State.answered_formReply _ _ _ _ _, ?_⟩
  · rw [Function.comp_apply, hf, State.line_touch_self, ← hnext]
    rfl
  · rw [State.line_formReply_self, State.line_mapLine_self, Function.comp_apply, hf]
    rfl

/-- A line's own setting is written by its offset. -/
theorem exec_writeItem_setting (h : s.addressed o) (hspace : (s.line o.line).space = .line) {offset : Fin 4}
    (hindex : (s.line o.line).index = (if o.line = .F then 0 else 4) + offset.val)
    {settings : Settings} {v : Nat}
    (hstored : (offset.val = 0 ∧ v = min value.toNat 63
        ∧ settings = { (s.line o.line).settings with watchdogLimit := v })
      ∨ (offset.val = 1 ∧ value.toNat ≤ 1 ∧ v = value.toNat
        ∧ settings = { (s.line o.line).settings with releaseAction := decide (v = 1) })
      ∨ (offset.val = 2 ∧ v = min value.toNat 255
        ∧ settings = { (s.line o.line).settings with halfWaitLimit := v })
      ∨ (offset.val = 3 ∧ v = value.toNat % 16384
        ∧ settings = { (s.line o.line).settings with eventMask := value.setWidth 14 })) :
    ∃ t, exec (.writeItem o value) s = .next t ∧ t.pool = s.pool ∧ t.link = s.link
      ∧ s.orderFrameTo t o [] [] { s.line o.line with
          settings, index := if (s.line o.line).index < 7 then (s.line o.line).index + 1 else 0 }
      ∧ t.answered o (if v = value.toNat then .done else .clamped) (BitVec.ofNat 7 (s.line o.line).index)
        (BitVec.ofNat 24 v)
      ∧ (t.line o.line).expiry = (if settings.watchdogLimit = 0 then none
        else some { expiry := s.time + settings.watchdogLimit * 800, since := s.clock }) := by
  obtain ⟨hoff, rfl, rfl⟩ | ⟨hoff, hle, rfl, rfl⟩ | ⟨hoff, rfl, rfl⟩ | ⟨hoff, rfl, rfl⟩ := hstored
  all_goals
    rw [hoff] at hindex
    have hwrite := (s.touch o.line).writeAt_setting o.line offset value.toNat
    rw [hoff, ← hindex] at hwrite
  · refine exec_writeSetting h hspace (hwrite.trans (State.writeSetting_watchdog _ _ _)) ?_
    rw [State.line_touch_self]
    simp only [State.watchdogFrom, State.timer, State.touch_time, State.touch_clock]
  · refine exec_writeSetting h hspace (hwrite.trans (State.writeSetting_action _ _ hle)) ?_
    rw [State.line_touch_self]
  · refine exec_writeSetting h hspace (hwrite.trans (State.writeSetting_halfWait _ _ _)) ?_
    rw [State.line_touch_self]
  · refine exec_writeSetting h hspace (hwrite.trans (State.writeSetting_mask _ _ _)) ?_
    rw [State.line_touch_self]

/-- An item that is not the line's is not written. -/
theorem State.refuses_writeItem_notOwner (h : s.addressed o)
    (hown : ownsItem o.line (s.line o.line).space (s.line o.line).index = false) :
    s.refuses (.writeItem o value) o .notOwner (BitVec.ofNat 7 (s.line o.line).index) :=
  State.refuses_writeItem h (by simp only [State.writeAt, hown, Bool.not_false, if_true])

end Settings

/-- Settles O47: the four settings by their offsets, the value that is refused, and the items of others. -/
theorem lineSettingsAreWrittenByTheirLine : Obligations.LineSettingsAreWrittenByTheirLine := by
  intro o value s offset h
  refine ⟨fun hspace hindex haction => ?_, fun hspace hindex hbig => ?_, fun hnot => ?_⟩
  · have hoffset : offset.val = 0 ∨ offset.val = 1 ∨ offset.val = 2 ∨ offset.val = 3 := by omega
    obtain hoff | hoff | hoff | hoff := hoffset
    · obtain ⟨t, ht, hpool, hlink, hframe, hanswered, hexpiry⟩ :=
        exec_writeItem_setting h hspace hindex (.inl ⟨hoff, rfl, rfl⟩)
      exact ⟨t, _, _, ht, hpool, hlink, hframe, hanswered, hexpiry, fun _ => ⟨rfl, rfl⟩, by omega, by omega, by omega⟩
    · obtain ⟨t, ht, hpool, hlink, hframe, hanswered, hexpiry⟩ :=
        exec_writeItem_setting h hspace hindex (.inr (.inl ⟨hoff, haction hoff, rfl, rfl⟩))
      exact ⟨t, _, _, ht, hpool, hlink, hframe, hanswered, hexpiry, by omega, fun _ => ⟨rfl, rfl⟩, by omega, by omega⟩
    · obtain ⟨t, ht, hpool, hlink, hframe, hanswered, hexpiry⟩ :=
        exec_writeItem_setting h hspace hindex (.inr (.inr (.inl ⟨hoff, rfl, rfl⟩)))
      exact ⟨t, _, _, ht, hpool, hlink, hframe, hanswered, hexpiry, by omega, by omega, fun _ => ⟨rfl, rfl⟩, by omega⟩
    · obtain ⟨t, ht, hpool, hlink, hframe, hanswered, hexpiry⟩ :=
        exec_writeItem_setting h hspace hindex (.inr (.inr (.inr ⟨hoff, rfl, rfl⟩)))
      exact ⟨t, _, _, ht, hpool, hlink, hframe, hanswered, hexpiry, by omega, by omega, by omega, fun _ => ⟨rfl, rfl⟩⟩
  · have hindex : (s.line o.line).index = (if o.line = .F then 0 else 4) + (1 : Fin 4).val := by
      rw [hindex]
      split <;> rfl
    refine State.refuses_writeItem h ?_
    rw [hspace, hindex, State.writeAt_setting]
    exact State.writeSetting_action_refused _ _ hbig
  · refine State.refuses_writeItem_notOwner h ?_
    obtain hdevice | ⟨hR, hprofile | hpattern⟩ | ⟨hspace, hindex⟩ := hnot
    · rw [hdevice]
      rfl
    · rw [hR] at hprofile ⊢
      rw [hprofile]
      rfl
    · rw [hR] at hpattern ⊢
      rw [hpattern]
      rfl
    · have hother : (if o.line = .F then 4 else 0) = if otherLine o.line = .F then 0 else 4 := by
        cases o.line <;> rfl
      rw [hspace, hindex, hother]
      simp only [ownsItem, lineOf_eq]
      exact decide_eq_false (ne_otherLine o.line)

end Sys2Proof.Machine
end

section
/-! SUPPORT. RESTART, the lapse of its request, and the restart itself. -/

namespace Sys2Proof.Machine

/-! ### A line event in its set (R189) -/

/-- A recorded line event joins its line's set where the mask allows it, and nothing else changes. -/
theorem State.recordLine_eq_mapLine (s : State) (l : Line) (k : LineKind) :
    s.recordLine l k = s.mapLine l fun u => { u with lineEvents := s.recordedSet l k u.lineEvents } := by
  have hunit : ∀ u : LineUnit, u.settings = (s.line l).settings →
      (if u.allowsLine k then { u with lineEvents := u.lineEvents ||| BitVec.twoPow 5 k.bit } else u)
        = { u with lineEvents := s.recordedSet l k u.lineEvents } := by
    intro u hu
    have hallowed : u.allowsLine k = (s.line l).settings.eventMask.getLsbD (9 + k.bit) := by rw [LineUnit.allowsLine, hu]
    rw [hallowed, State.recordedSet]
    split <;> rfl
  exact congrArg (s.setLine l) (hunit _ rfl)

theorem State.line_recordLine_self (s : State) (l : Line) (k : LineKind) :
    (s.recordLine l k).line l = { s.line l with lineEvents := s.recordedSet l k (s.line l).lineEvents } := by
  rw [State.recordLine_eq_mapLine, State.line_mapLine_self]

theorem State.line_recordLine_ne (s : State) {l j : Line} (h : l ≠ j) (k : LineKind) :
    (s.recordLine l k).line j = s.line j := by
  rw [State.recordLine_eq_mapLine, State.line_mapLine, if_neg h]

/-- What a set takes depends on the line's mask alone. -/
theorem State.recordedSet_of_settings {s t : State} {l : Line} (h : (t.line l).settings = (s.line l).settings)
    (k : LineKind) (set : BitVec 5) : t.recordedSet l k set = s.recordedSet l k set := by
  rw [State.recordedSet, h, State.recordedSet]

theorem State.recordedSet_mapLine (s : State) (l j : Line) {f : LineUnit → LineUnit}
    (hf : ∀ u, (f u).settings = u.settings) : (s.mapLine l f).recordedSet j = s.recordedSet j := by
  funext k set
  refine State.recordedSet_of_settings ?_ k set
  rw [State.line_mapLine]
  split
  · exact hf _
  · rfl

/-! ### An order carried out under broadcast too, and its reply (R180) -/

/-- A verb that is carried out under broadcast too leaves its effect, but for the flag and the reply of its line. -/
theorem State.exec_of_reachedBy_mapLine {s : State} {o : Order} {i : Instr} {body : State → Effect} (h : s.reachedBy o)
    (hi : exec i s = .next (takeOrder o true true (echo o) body s)) :
    ∃ t error reply, exec i s = .next t
      ∧ t = (body (s.touch o.line)).state.mapLine o.line (fun u => { u with orderError := error, reply := reply })
      ∧ (o.node ≠ 7 →
        t.answered o (body (s.touch o.line)).result o.echoed (body (s.touch o.line)).data) := by
  obtain ⟨t, ht, ⟨-, rfl⟩ | ⟨h7, rfl⟩⟩ := State.exec_of_reachedBy h hi
  · exact ⟨_, _, _, ht, rfl, fun _ => State.answered_formReply _ _ _ _ _⟩
  · exact ⟨_, ((body (s.touch o.line)).state.line o.line).orderError, _, ht, rfl, fun hne => absurd h7 hne⟩

/-! ### RESTART (R196) -/

/-- An order that asks the other line for a restart. -/
def State.askedForRestart (s : State) (l : Line) : State :=
  (s.mapLine l fun u => { u with request := some (s.timer Config.restartLapse) }).recordLine (otherLine l) .restartRequested

section Restart

variable (l : Line) (s : State)

theorem restartEffect_joins (h : (s.line (otherLine l)).request ≠ none) :
    restartEffect l s = { s with restartDue := some (l, .joint) }.done := by
  have hsome : (s.line (otherLine l)).request.isSome = true := Option.isSome_iff_ne_none.mpr h
  simp only [restartEffect, hsome, if_true]

theorem restartEffect_solo (h : (s.line (otherLine l)).request = none)
    (hsilent : (s.line (otherLine l)).silent = true) :
    restartEffect l s = { s with restartDue := some (l, .solo) }.done := by
  simp only [restartEffect, h, hsilent, Option.isSome_none, Bool.false_eq_true, if_false, if_true]

theorem restartEffect_asks (h : (s.line (otherLine l)).request = none)
    (hsilent : (s.line (otherLine l)).silent = false) :
    restartEffect l s
      = { state := s.askedForRestart l, result := .pending, data := 0 } := by
  simp only [restartEffect, h, hsilent, Option.isSome_none, Bool.false_eq_true, if_false, State.askedForRestart]

end Restart

/-- A due restart is in no Line Unit. -/
theorem State.mapLine_setRestartDue (s : State) (l : Line) (f : LineUnit → LineUnit) (due : Option (Line × RestartCause)) :
    ({ s with restartDue := due } : State).mapLine l f = { s.mapLine l f with restartDue := due } := by
  cases l <;> rfl

/-- An order that makes a restart due changes nothing else. -/
theorem State.orderFrame_restartDue {s t : State} {o : Order} {due : Option (Line × RestartCause)}
    {error : Bool} {reply : Option Reply}
    (ht : t = ({ s.touch o.line with restartDue := due } : State).done.state.mapLine o.line
      fun u => { u with orderError := error, reply := reply }) :
    t.restartDue = due ∧ t.pool = s.pool ∧ t.link = s.link
      ∧ s.orderFrame { t with restartDue := s.restartDue } o [] [] := by
  have hframe : s.orderFrame ((s.touch o.line).mapLine o.line fun u => { u with orderError := error, reply := reply })
      o [] [] := State.orderFrameTo_mapLine (s.sameButTaking_touch o.line)
  have hdue : ((s.touch o.line).mapLine o.line fun u => { u with orderError := error, reply := reply }).restartDue
      = s.restartDue := congrArg Device.restartDue hframe.1
  rw [State.done, State.mapLine_setRestartDue] at ht
  subst ht
  refine ⟨rfl, ?_, ?_, ?_⟩
  · exact Eq.trans (State.pool_mapLine _ _ _) (State.pool_touch s o.line)
  · exact Eq.trans (State.link_mapLine _ _ _) (State.link_touch s o.line)
  · rw [← hdue]
    exact hframe

theorem State.line_askedForRestart_self (s : State) (l : Line) :
    (s.askedForRestart l).line l = { s.line l with request := some (s.timer Config.restartLapse) } := by
  rw [State.askedForRestart, State.line_recordLine_ne _ (ne_otherLine l).symm, State.line_mapLine_self]

theorem State.line_askedForRestart_other (s : State) (l : Line) :
    (s.askedForRestart l).line (otherLine l)
      = { s.line (otherLine l) with
          lineEvents := s.recordedSet (otherLine l) .restartRequested (s.line (otherLine l)).lineEvents } := by
  have hother : ∀ f, (s.mapLine l f).line (otherLine l) = s.line (otherLine l) := fun f => by
    rw [State.line_mapLine, if_neg (ne_otherLine l)]
  rw [State.askedForRestart, State.line_recordLine_self, hother, State.recordedSet_mapLine _ _ _ fun _ => by rfl]

/-- Settles O49: the three cases of R196 on the touched state, and the lapse. -/
theorem restartIsAskedForAndLapses : Obligations.RestartIsAskedForAndLapses := by
  refine ⟨fun o s other h hother => ?_, fun l s tm hrequest hexpiry => ?_⟩
  · obtain ⟨t, error, reply, ht, hstate, hanswered⟩ :=
      State.exec_of_reachedBy_mapLine (i := .restart o) (body := restartEffect o.line) h rfl
    have hline : (s.touch o.line).line (otherLine o.line) = other := by rw [State.line_touch_other, hother]
    by_cases hnone : other.request = none
    · by_cases hsilent : other.silent = true
      · rw [restartEffect_solo _ _ (by rw [hline, hnone]) (by rw [hline, hsilent])] at hstate hanswered
        obtain ⟨hdue, hpool, hlink, hframe⟩ := State.orderFrame_restartDue hstate
        exact ⟨t, ht, hpool, hlink, fun hne => absurd hnone hne, fun _ _ => ⟨hframe, hdue, hanswered⟩,
          fun _ halive => absurd hsilent (by simp [halive])⟩
      · have halive : other.silent = false := by simpa using hsilent
        rw [restartEffect_asks _ _ (by rw [hline, hnone]) (by rw [hline, halive])] at hstate hanswered
        subst hstate
        refine ⟨_, ht, by simp [State.askedForRestart], by simp [State.askedForRestart], fun hne => absurd hnone hne,
          fun _ hsil => absurd hsil hsilent, fun _ _ => ⟨by simp [State.askedForRestart],
            fun d _ => by simp [State.askedForRestart], fun x _ => by simp [State.askedForRestart], ?_, ?_, hanswered⟩⟩
        · rw [State.line_mapLine_self, State.line_askedForRestart_self, State.line_touch_self, State.timer,
            State.touch_time, State.touch_clock]
          rfl
        · rw [State.line_mapLine, if_neg (ne_otherLine _)]
          rw [State.line_askedForRestart_other, hline, State.recordedSet_of_settings (State.settings_touch _ _ _)]
    · rw [restartEffect_joins _ _ (by rwa [hline])] at hstate hanswered
      obtain ⟨hdue, hpool, hlink, hframe⟩ := State.orderFrame_restartDue hstate
      exact ⟨t, ht, hpool, hlink, fun _ => ⟨hframe, hdue, hanswered⟩, fun h0 => absurd h0 hnone,
        fun h0 => absurd h0 hnone⟩
  · have hdue : s.expired (s.line l).request = true := by
      simp only [hrequest, State.expired, State.reached, Option.any_some, decide_eq_true_eq]
      exact hexpiry
    refine ⟨(s.mapLine l fun u => { u with request := none }).recordLine l .restartExpired, ?_, ?_, ?_, ?_⟩
    · exact congrArg Host.Outcome.next (if_pos hdue)
    · rw [State.recordLine_eq_mapLine, State.mapLine_mapLine]
      exact (s.onlyLine_mapLine l _).1
    · rw [State.recordLine_eq_mapLine, State.mapLine_mapLine]
      exact (s.onlyLine_mapLine l _).2.2
    · rw [State.line_recordLine_self, State.line_mapLine_self, State.recordedSet_mapLine _ _ _ fun _ => by rfl]

/-! ### The restart (R198) -/

/-- Settles O50: the restarted state field by field; its contexts are those of the reset. -/
theorem restartExecutionKeepsTheSettings : Obligations.RestartExecutionKeepsTheSettings := by
  refine ⟨fun s h => ?_, fun l cause s h => ?_⟩
  · simp only [exec, execRestartExecution, h]
  · have hexec : exec .restartExecution s = .next (s.restarted cause) := by
      simp only [exec, execRestartExecution, h]
    refine ⟨s.restarted cause, hexec, rfl, rfl, rfl, fun c => ?_, fun x => ?_, fun e => ?_, rfl, rfl, rfl, rfl, rfl, rfl,
      rfl, rfl, rfl, rfl, rfl, rfl, rfl, rfl, fun k => ?_⟩
    · rw [State.chan_restarted]
      exact Channel.reset_cleared
    · simp [State.slot, State.restarted]
    · simp [State.restarted]
    · cases k <;> rfl

end Sys2Proof.Machine
end

section
/-! SUPPORT. The six octets of an order (R178, R179, R182): its head, its argument, and the fields of each verb. -/

namespace Sys2Proof

namespace Wire

/-! ### Fields of the argument (R182) -/

theorem field_eq {word low width high x below : Nat} (hword : word = (high * 2 ^ width + x) * 2 ^ low + below)
    (hx : x < 2 ^ width) (hbelow : below < 2 ^ low) : field word low width = x := by
  rw [field, hword, Nat.add_comm _ below, Nat.add_mul_div_right _ _ (Nat.two_pow_pos low), Nat.div_eq_of_lt hbelow,
    Nat.zero_add, Nat.add_comm, Nat.add_mul_mod_self_right, Nat.mod_eq_of_lt hx]

/-- The low bits of an argument, as a bit field. -/
theorem ofNat_low {n high word : Nat} {x : BitVec n} (h : word = high * 2 ^ n + x.toNat) : BitVec.ofNat n word = x := by
  refine BitVec.eq_of_toNat_eq ?_
  rw [BitVec.toNat_ofNat, h, Nat.add_comm, Nat.add_mul_mod_self_right, Nat.mod_eq_of_lt x.isLt]

theorem ofCode_code (x : Item) : Item.ofCode x.code = x := by cases x <;> rfl

theorem spaceOfCode_code (x : Space) : Space.ofCode x.code = x := by cases x <;> rfl

/-- A code above 13H is no verb's. -/
theorem command_unknown {code : Nat} (h : 0x13 < code) (o : Order) (arg : Nat) :
    command o code arg = .unknownVerb o (BitVec.ofNat 5 code) := by
  unfold command
  split
  case h_21 => rfl
  all_goals omega

/-! ### Each verb's argument read back (R182) -/

theorem command_bind (o : Order) (x : Slot) (p : Fin 8) (tag : BitVec 14) :
    command o 0x01 (argument (.bind o x p tag)) = .bind o x p tag := by
  have hx := x.isLt
  have hp := p.isLt
  have htag := tag.isLt
  have hslot : field (argument (.bind o x p tag)) 17 7 = x.val :=
    field_eq (high := 0) (below := p.val * 2 ^ 14 + tag.toNat) (by simp only [argument]; omega) (by omega) (by omega)
  have hprofile : field (argument (.bind o x p tag)) 14 3 = p.val :=
    field_eq (high := x.val) (below := tag.toNat) (by simp only [argument]; omega) (by omega) (by omega)
  have hlow : BitVec.ofNat 14 (argument (.bind o x p tag)) = tag :=
    ofNat_low (high := x.val * 8 + p.val) (by simp only [argument]; omega)
  show Instr.bind o _ _ _ = _
  rw [hslot, hprofile, hlow, Fin.ofNat_val_eq_self, Fin.ofNat_val_eq_self]

theorem command_attach (o : Order) (modeSet : BitVec 3) (requested : BitVec 2) (tag : BitVec 14) :
    command o 0x02 (argument (.attach o modeSet requested tag)) = .attach o modeSet requested tag := by
  have hset := modeSet.isLt
  have hrequested := requested.isLt
  have htag := tag.isLt
  have hmodes : field (argument (.attach o modeSet requested tag)) 21 3 = modeSet.toNat :=
    field_eq (high := 0) (below := requested.toNat * 2 ^ 19 + tag.toNat) (by simp only [argument]; omega) (by omega)
      (by omega)
  have hmode : field (argument (.attach o modeSet requested tag)) 19 2 = requested.toNat :=
    field_eq (high := modeSet.toNat) (below := tag.toNat) (by simp only [argument]; omega) (by omega) (by omega)
  have hlow : BitVec.ofNat 14 (argument (.attach o modeSet requested tag)) = tag :=
    ofNat_low (high := modeSet.toNat * 128 + requested.toNat * 32) (by simp only [argument]; omega)
  show Instr.attach o _ _ _ = _
  rw [ofNat_eq_of_toNat hmodes, ofNat_eq_of_toNat hmode, hlow]

theorem command_stage (o : Order) (item : Item) (value : BitVec 16) :
    command o 0x08 (argument (.stage o item value)) = .stage o item value := by
  have hvalue := value.isLt
  have hcode : item.code < 8 := by cases item <;> decide
  have hitem : field (argument (.stage o item value)) 16 3 = item.code :=
    field_eq (high := 0) (below := value.toNat) (by simp only [argument]; omega) (by omega) (by omega)
  have hlow : BitVec.ofNat 16 (argument (.stage o item value)) = value :=
    ofNat_low (high := item.code) (by simp only [argument])
  show Instr.stage o _ _ = _
  rw [hitem, hlow, ofCode_code]

theorem command_selectItem (o : Order) (sp : Space) (index : Fin 128) :
    command o 0x0F (argument (.selectItem o sp index)) = .selectItem o sp index := by
  have hindex := index.isLt
  have hcode : sp.code < 4 := by cases sp <;> decide
  have hspace : field (argument (.selectItem o sp index)) 8 2 = sp.code :=
    field_eq (high := 0) (below := index.val) (by simp only [argument]; omega) (by omega) (by omega)
  have hlow : Fin.ofNat 128 (argument (.selectItem o sp index)) = index :=
    Fin.ext (by simp only [Fin.ofNat, argument]; omega)
  show Instr.selectItem o _ _ = _
  rw [hspace, hlow, spaceOfCode_code]

/-- ENGINE_SERVICE is one verb; bit 2 of its argument tells IN from OUT (R134, R135). -/
theorem command_engineService (o : Order) (e : Fin 4) :
    command o 0x12 (argument (.engineServiceOut o e)) = .engineServiceOut o e
      ∧ command o 0x12 (argument (.engineServiceIn o e)) = .engineServiceIn o e := by
  have he := e.isLt
  have hout : field e.val 2 1 = 0 := field_eq (high := 0) (below := e.val) (by omega) (by decide) (by omega)
  have hin : field (4 + e.val) 2 1 = 1 := field_eq (high := 0) (below := e.val) (by omega) (by decide) (by omega)
  have hengine : Fin.ofNat 4 (4 + e.val) = e := Fin.ext (by simp only [Fin.ofNat]; omega)
  simp only [command, argument, hout, hin, hengine, Fin.ofNat_val_eq_self, Nat.zero_ne_one, if_false, if_true, and_self]

/-- Every order is read back from its verb and its argument, which fit their fields. -/
theorem command_argument {i : Instr} {o : Order} (hi : i.wellFormed = true) (ho : i.order? = some o) :
    ∃ verb, i.verb = some verb ∧ verb < 32 ∧ argument i < 2 ^ 24 ∧ command o verb (argument i) = i := by
  cases i <;> cases ho
  case bind x p tag =>
    have hx := x.isLt
    have hp := p.isLt
    have htag := tag.isLt
    exact ⟨_, rfl, by decide, by simp only [argument]; omega, command_bind o x p tag⟩
  case attach modeSet requested tag =>
    have hset := modeSet.isLt
    have hrequested := requested.isLt
    have htag := tag.isLt
    exact ⟨_, rfl, by decide, by simp only [argument]; omega, command_attach o modeSet requested tag⟩
  case splice partner =>
    exact ⟨_, rfl, by decide, by simp only [argument]; omega, congrArg (Instr.splice o) (Fin.ofNat_val_eq_self _)⟩
  case stage item value =>
    have hvalue := value.isLt
    have hcode : item.code < 8 := by cases item <;> decide
    exact ⟨_, rfl, by decide, by simp only [argument]; omega, command_stage o item value⟩
  case readChannel aspect =>
    exact ⟨_, rfl, by decide, by simp only [argument]; omega, congrArg (Instr.readChannel o) (Fin.ofNat_val_eq_self _)⟩
  case clearEvents kinds =>
    exact ⟨_, rfl, by decide, by simp only [argument]; omega,
      congrArg (Instr.clearEvents o) (ofNat_eq_of_toNat rfl)⟩
  case clearLineEvents kinds =>
    exact ⟨_, rfl, by decide, by simp only [argument]; omega,
      congrArg (Instr.clearLineEvents o) (ofNat_eq_of_toNat rfl)⟩
  case selectItem sp index =>
    have hcode : sp.code < 4 := by cases sp <;> decide
    exact ⟨_, rfl, by decide, by simp only [argument]; omega, command_selectItem o sp index⟩
  case writeItem value =>
    exact ⟨_, rfl, by decide, by simp only [argument]; omega,
      congrArg (Instr.writeItem o) (ofNat_eq_of_toNat rfl)⟩
  case engineServiceOut e =>
    exact ⟨_, rfl, by decide, by simp only [argument]; omega, (command_engineService o e).1⟩
  case engineServiceIn e =>
    exact ⟨_, rfl, by decide, by simp only [argument]; omega, (command_engineService o e).2⟩
  case unknownVerb code =>
    have hcode := code.isLt
    refine ⟨_, rfl, hcode, by simp only [argument]; omega, ?_⟩
    rw [command_unknown (of_decide_eq_true hi), ofNat_eq_of_toNat rfl]
  all_goals exact ⟨_, rfl, by decide, by simp only [argument]; omega, rfl⟩

end Wire

/-! ### The octets (R178, R179) -/

/-- Node, verb, bit 7, channel and argument are read back from their octets. -/
theorem decodeOrder_octets (o : Order) {verb arg : Nat} (hverb : verb < 32) (harg : arg < 2 ^ 24) {body : List Octet}
    (hbody : body = [BitVec.ofNat 8 (o.node.toNat * 32 + verb), BitVec.ofNat 8 (o.bit7.toNat * 128 + o.channel.val),
      BitVec.ofNat 8 (arg / 65536), BitVec.ofNat 8 (arg / 256), BitVec.ofNat 8 arg]) :
    decodeOrder o.line (body ++ [Checks.crc8 body]) = some (Wire.command o verb arg) := by
  obtain ⟨line, node, bit7, channel⟩ := o
  have hnode := node.isLt
  have hchannel := channel.isLt
  have hseven : bit7.toNat < 2 := Bool.toNat_lt bit7
  have hhead : (BitVec.ofNat 8 (node.toNat * 32 + verb)).toNat = node.toNat * 32 + verb := by
    rw [BitVec.toNat_ofNat, Nat.mod_eq_of_lt (by omega)]
  have hsecond : (BitVec.ofNat 8 (bit7.toNat * 128 + channel.val)).toNat = bit7.toNat * 128 + channel.val := by
    rw [BitVec.toNat_ofNat, Nat.mod_eq_of_lt (by omega)]
  have hbit : (BitVec.ofNat 8 (bit7.toNat * 128 + channel.val)).getLsbD 7 = bit7 := by
    rw [BitVec.getLsbD, hsecond, Nat.testBit_eq_decide_div_mod_eq,
      show (bit7.toNat * 128 + channel.val) / 2 ^ 7 % 2 = bit7.toNat by omega]
    cases bit7 <;> rfl
  have hhigh : Fin.ofNat 128 (bit7.toNat * 128 + channel.val) = channel :=
    Fin.ext (by simp only [Fin.ofNat]; omega)
  have hargument : (BitVec.ofNat 8 (arg / 65536)).toNat * 65536 + (BitVec.ofNat 8 (arg / 256)).toNat * 256
      + (BitVec.ofNat 8 arg).toNat = arg := by
    simp only [BitVec.toNat_ofNat]
    omega
  have hverbOf : (node.toNat * 32 + verb) % 32 = verb := by omega
  have hnodeOf : BitVec.ofNat 3 ((node.toNat * 32 + verb) / 32) = node := ofNat_eq_of_toNat (by omega)
  subst hbody
  simp only [List.cons_append, List.nil_append, decodeOrder, if_true, hhead, hsecond, hbit, hhigh, hargument, hverbOf,
    hnodeOf]

/-- Settles O51: the octets of an order spell its verb and its argument, and these its command. -/
theorem ordersAreReadBack : Obligations.OrdersAreReadBack := by
  intro i o hi ho
  obtain ⟨verb, hverb, hcode, hargument, hcommand⟩ := Wire.command_argument hi ho
  refine ⟨_, by simp only [encodeOrder, ho, hverb]; rfl, rfl, ?_⟩
  exact (decodeOrder_octets o hcode hargument rfl).trans (congrArg some hcommand)

end Sys2Proof
end

section
/-! SUPPORT. The release of a half where no channel is spliced: which rows go, what the channel becomes, and what stays. -/

namespace Sys2Proof.Machine

theorem Life.lifecycle_eq_active {x : Life} : x.lifecycle = .active ↔ ∃ a, x = .active a := by
  refine ⟨fun h => ?_, fun ⟨a, ha⟩ => by rw [ha]; rfl⟩
  cases x with
  | active a => exact ⟨a, rfl⟩
  | free | halfF _ | halfR _ => cases h

/-- Both lines hold a half of an ACTIVE channel (R4). -/
theorem Life.holds_of_lifecycle {x : Life} (h : x.lifecycle = .active) (l : Line) : x.holds l = true := by
  obtain ⟨a, rfl⟩ := Life.lifecycle_eq_active.mp h
  cases l <;> rfl

theorem Life.partner?_of_lifecycle {x : Life} (h : x.lifecycle ≠ .active) : x.partner? = none := by
  cases x with
  | active a => exact absurd rfl h
  | free | halfF _ | halfR _ => rfl

/-! ### The four cases of a release (R20 to R22) -/

theorem State.releaseHalf_cases (s : State) (l : Line) (c : Chan) :
    (s.life c).holds l = false ∨ (l = .F ∧ ∃ h, s.life c = .halfF h) ∨ (l = .R ∧ ∃ h, s.life c = .halfR h)
      ∨ ∃ a, s.life c = .active a := by
  cases hl : s.life c with
  | free => exact .inl (by cases l <;> rfl)
  | halfF h =>
    cases l with
    | F => exact .inr (.inl ⟨rfl, h, rfl⟩)
    | R => exact .inl rfl
  | halfR h =>
    cases l with
    | F => exact .inl rfl
    | R => exact .inr (.inr (.inl ⟨rfl, h, rfl⟩))
  | active a => exact .inr (.inr (.inr ⟨a, rfl⟩))

/-- A line that holds no half of the channel changes nothing. -/
theorem State.releaseHalf_of_not_holds {s : State} {l : Line} {c : Chan} (h : (s.life c).holds l = false) :
    s.releaseHalf l c = s := by
  cases hl : s.life c with
  | free => cases l <;> simp only [State.releaseHalf, hl]
  | halfF x =>
    cases l with
    | F => rw [hl] at h; cases h
    | R => simp only [State.releaseHalf, hl]
  | halfR x =>
    cases l with
    | F => simp only [State.releaseHalf, hl]
    | R => rw [hl] at h; cases h
  | active a => rw [hl] at h; cases l <;> cases h

/-- A pool whose jobs of some channels have been withdrawn, where queued, and marked, where they run. -/
def poolWithout (p : Chan → Bool) (pool : Vector Engine 4 × List Job) : Vector Engine 4 × List Job :=
  (pool.1.map (Engine.mapJob fun j => if p j.channel then { j with discard := true } else j),
    pool.2.filter fun j => !p j.channel)

theorem poolWithout_none (pool : Vector Engine 4 × List Job) : poolWithout (fun _ => false) pool = pool := by
  obtain ⟨engines, jobs⟩ := pool
  have hengine : ∀ g : Engine, g.mapJob (fun j => j) = g := fun g => by cases g <;> rfl
  refine Prod.ext (Vector.ext fun e he => ?_) ?_
  · simp [poolWithout, hengine]
  · simp [poolWithout]

theorem poolWithout_poolWithout (p q : Chan → Bool) (pool : Vector Engine 4 × List Job) :
    poolWithout q (poolWithout p pool) = poolWithout (fun c => p c || q c) pool := by
  have hmark : ∀ j : Job, (if q (if p j.channel then { j with discard := true } else j).channel then
      { (if p j.channel then { j with discard := true } else j) with discard := true }
        else if p j.channel then { j with discard := true } else j)
        = if (p j.channel || q j.channel) = true then { j with discard := true } else j := fun j => by
    cases hp : p j.channel <;> cases hq : q j.channel <;> simp [hq]
  refine Prod.ext (Vector.ext fun e he => ?_) ?_
  · simp only [poolWithout, Vector.getElem_map, Engine.mapJob_mapJob]
    exact congrArg (Engine.mapJob · _) (funext hmark)
  · simp only [poolWithout, List.filter_filter]
    refine congrArg (List.filter · _) (funext fun j => ?_)
    cases p j.channel <;> cases q j.channel <;> rfl

theorem State.pool_abandonJobs (s : State) (c : Chan) :
    (s.abandonJobs c).pool = poolWithout (fun d => decide (d = c)) s.pool := by
  refine Prod.ext (Vector.ext fun e he => ?_) ?_
  · refine (s.engines_abandonJobs c ⟨e, he⟩).trans ?_
    simp [poolWithout, State.pool]
  · refine (s.jobs_abandonJobs c).trans ?_
    simp [poolWithout, State.pool]

/-- The rows sound and no channel spliced: what a watchdog release starts from and keeps (R137, R194). -/
structure State.releasable (s : State) : Prop where
  rows  : s.rowsOk
  alone : ∀ d, s.partners d = none

section Releasable

variable {s : State} (h : s.releasable) (l : Line) (c : Chan)
include h

theorem State.releasable.partner {a : Active} (hl : s.life c = .active a) : a.partner = none :=
  (State.partners_of_active hl).symm.trans (h.alone c)

/-- A row is emptied where it is the line's own and latched to the channel, or the other line's and PENDING on it; nothing
else of the Line Units changes (R24, R149). -/
theorem State.releasable.line_releaseHalf (k : Line) :
    (s.releaseHalf l c).line k = { s.line k with row :=
      if (k = l ∧ (s.line k).row.latched = some c) ∨ (k ≠ l ∧ s.pendingOn k c = true) then .empty
      else (s.line k).row } := by
  have hhalf : (s.life c).lifecycle ≠ .active → (if l = k ∧ (s.line k).row.latched = some c then
      { s.line k with row := .empty } else s.line k)
        = { s.line k with row :=
            if (k = l ∧ (s.line k).row.latched = some c) ∨ (k ≠ l ∧ s.pendingOn k c = true) then .empty
            else (s.line k).row } := by
    intro hne
    rw [h.rows.not_pendingOn hne k]
    by_cases hk : l = k ∧ (s.line k).row.latched = some c
    · rw [if_pos hk, if_pos (.inl ⟨hk.1.symm, hk.2⟩)]
    · rw [if_neg hk, if_neg (by simpa [eq_comm] using hk)]
  obtain hno | ⟨rfl, x, hx⟩ | ⟨rfl, x, hx⟩ | ⟨a, ha⟩ := s.releaseHalf_cases l c
  · rw [State.releaseHalf_of_not_holds hno, if_neg]
    rintro (⟨rfl, hlatched⟩ | ⟨-, hpending⟩)
    · rw [((h.rows k).2 c hlatched).1] at hno
      cases hno
    · obtain ⟨hp, hlatched⟩ := (s.pendingOn_iff k c).mp hpending
      rw [Life.holds_of_lifecycle (((h.rows k).2 c hlatched).2 hp)] at hno
      cases hno
  · rw [State.line_releaseHalf_halfF hx, hhalf (by rw [hx]; exact nofun)]
  · rw [State.line_releaseHalf_halfR hx, hhalf (by rw [hx]; exact nofun)]
  · exact State.line_releaseHalf_active l ha k

/-- Every other context stays. -/
theorem State.releasable.chan_releaseHalf_ne {d : Chan} (hd : c ≠ d) : (s.releaseHalf l c).chan d = s.chan d := by
  obtain hno | ⟨rfl, x, hx⟩ | ⟨rfl, x, hx⟩ | ⟨a, ha⟩ := s.releaseHalf_cases l c
  · rw [State.releaseHalf_of_not_holds hno]
  · rw [State.chan_releaseHalf_halfF hx (h.rows.not_pendingOn (by rw [hx]; exact nofun) _), if_neg hd]
  · rw [State.chan_releaseHalf_halfR hx (h.rows.not_pendingOn (by rw [hx]; exact nofun) _), if_neg hd]
  · rw [State.chan_releaseHalf_active_ne l ha hd, State.stopStreams_unspliced s c (h.partner c ha),
      State.chan_abandonJobs]

/-- The counters of every context stay (R8, R194). -/
theorem State.releasable.counters_releaseHalf (d : Chan) :
    ((s.releaseHalf l c).chan d).counters = (s.chan d).counters := by
  by_cases hd : c = d
  · subst hd
    obtain hno | ⟨rfl, x, hx⟩ | ⟨rfl, x, hx⟩ | ⟨a, ha⟩ := s.releaseHalf_cases l c
    · rw [State.releaseHalf_of_not_holds hno]
    · rw [State.chan_releaseHalf_halfF hx (h.rows.not_pendingOn (by rw [hx]; exact nofun) _), if_pos rfl]
    · rw [State.chan_releaseHalf_halfR hx (h.rows.not_pendingOn (by rw [hx]; exact nofun) _), if_pos rfl]
    · obtain ⟨-, hcount, -⟩ := State.chan_releaseHalf_active l ha
      rw [hcount, State.stopStreams_unspliced s c (h.partner c ha), State.chan_abandonJobs]
  · rw [h.chan_releaseHalf_ne l c hd]

/-- From ACTIVE the half of the other line is left, whether its row applies or not (R21, R22). -/
theorem State.releasable.life_releaseHalf_active {a : Active} (ha : s.life c = .active a) :
    (l = .F → ∃ x, (s.releaseHalf l c).life c = .halfR x) ∧ (l = .R → ∃ x, (s.releaseHalf l c).life c = .halfF x) := by
  refine ⟨fun hF => ?_, fun hR => ?_⟩
  · subst hF
    cases hp : s.pendingOn .R c with
    | false => exact ⟨_, State.life_releaseHalf_active .F ha hp⟩
    | true =>
      obtain ⟨radio, hlife, -⟩ := State.releaseHalf_active_F_pending ha h.rows hp
      exact ⟨_, hlife⟩
  · subst hR
    cases hp : s.pendingOn .F c with
    | false => exact ⟨_, State.life_releaseHalf_active .R ha hp⟩
    | true =>
      obtain ⟨fixed, hlife, -⟩ := State.releaseHalf_active_R_pending ha h.rows hp
      exact ⟨_, hlife⟩

/-- What the channel becomes: FREE from a half state, the other half from ACTIVE; the other line holds what it held, and no
ACTIVE channel remains. -/
theorem State.releasable.life_releaseHalf_self :
    ((s.releaseHalf l c).life c).lifecycle ≠ .active
      ∧ ∀ k, k ≠ l → ((s.releaseHalf l c).life c).holds k = (s.life c).holds k := by
  obtain hno | ⟨rfl, x, hx⟩ | ⟨rfl, x, hx⟩ | ⟨a, ha⟩ := s.releaseHalf_cases l c
  · rw [State.releaseHalf_of_not_holds hno]
    refine ⟨fun hactive => ?_, fun k _ => rfl⟩
    rw [Life.holds_of_lifecycle hactive] at hno
    cases hno
  · rw [State.life_def, State.chan_releaseHalf_halfF hx (h.rows.not_pendingOn (by rw [hx]; exact nofun) _), if_pos rfl, hx]
    refine ⟨nofun, fun k hk => ?_⟩
    cases k
    · exact absurd rfl hk
    · rfl
  · rw [State.life_def, State.chan_releaseHalf_halfR hx (h.rows.not_pendingOn (by rw [hx]; exact nofun) _), if_pos rfl, hx]
    refine ⟨nofun, fun k hk => ?_⟩
    cases k
    · rfl
    · exact absurd rfl hk
  · obtain ⟨hF, hR⟩ := h.life_releaseHalf_active l c ha
    rw [ha]
    cases l with
    | F =>
      obtain ⟨x, hx⟩ := hF rfl
      rw [hx]
      refine ⟨nofun, fun k hk => ?_⟩
      cases k
      · exact absurd rfl hk
      · rfl
    | R =>
      obtain ⟨x, hx⟩ := hR rfl
      rw [hx]
      refine ⟨nofun, fun k hk => ?_⟩
      cases k
      · rfl
      · exact absurd rfl hk

/-- The release keeps the rows sound and joins no splice. -/
theorem State.releasable.releaseHalf : (s.releaseHalf l c).releasable := by
  obtain ⟨hself, hholds⟩ := h.life_releaseHalf_self l c
  have hlife : ∀ {d}, c ≠ d → (s.releaseHalf l c).life d = s.life d := fun hd =>
    congrArg Channel.life (h.chan_releaseHalf_ne l c hd)
  refine ⟨fun k => ?_, fun d => ?_⟩
  · rw [h.line_releaseHalf l c k]
    by_cases hgone : (k = l ∧ (s.line k).row.latched = some c) ∨ (k ≠ l ∧ s.pendingOn k c = true)
    · simp only [if_pos hgone]
      exact ⟨Row.empty_ok k, nofun⟩
    · simp only [if_neg hgone]
      refine ⟨(h.rows k).1, fun d hd => ?_⟩
      by_cases hcd : c = d
      · subst hcd
        have hk : k ≠ l := fun hk => hgone (.inl ⟨hk, hd⟩)
        rw [hholds k hk]
        exact ⟨((h.rows k).2 c hd).1, fun hp => absurd (.inr ⟨hk, (s.pendingOn_iff k c).mpr ⟨hp, hd⟩⟩) hgone⟩
      · rw [hlife hcd]
        exact (h.rows k).2 d hd
  · by_cases hcd : c = d
    · subst hcd
      exact Life.partner?_of_lifecycle hself
    · rw [State.partners, hlife hcd]
      exact h.alone d

/-- The release leaves no more ACTIVE channels than the others. -/
theorem State.releasable.active_releaseHalf (d : Chan) :
    ((s.releaseHalf l c).life d).lifecycle = .active ↔ (s.life d).lifecycle = .active ∧ d ≠ c := by
  by_cases hcd : c = d
  · subst hcd
    exact iff_of_false (h.life_releaseHalf_self l c).1 fun hne => hne.2 rfl
  · rw [State.life_def, h.chan_releaseHalf_ne l c hcd]
    exact (and_iff_left (Ne.symm hcd)).symm

/-! ### The pool (R130, R132) -/

/-- The jobs of an ACTIVE channel are given up, and no others. -/
theorem State.releasable.pool_releaseHalf :
    (s.releaseHalf l c).pool = poolWithout (fun d => decide ((s.life c).lifecycle = .active ∧ d = c)) s.pool := by
  have hstays : (s.life c).lifecycle ≠ .active →
      poolWithout (fun d => decide ((s.life c).lifecycle = .active ∧ d = c)) s.pool = s.pool := fun hne => by
    simp only [hne, false_and, decide_false, poolWithout_none]
  obtain hno | ⟨rfl, x, hx⟩ | ⟨rfl, x, hx⟩ | ⟨a, ha⟩ := s.releaseHalf_cases l c
  · rw [State.releaseHalf_of_not_holds hno, hstays]
    intro hactive
    rw [Life.holds_of_lifecycle hactive] at hno
    cases hno
  · rw [State.pool_releaseHalf_halfF hx, hstays (by rw [hx]; exact nofun)]
  · rw [State.pool_releaseHalf_halfR hx, hstays (by rw [hx]; exact nofun)]
  · have hactive : (s.life c).lifecycle = .active := Life.lifecycle_eq_active.mpr ⟨a, ha⟩
    rw [State.pool_releaseHalf_active l ha, State.stopStreams_unspliced s c (h.partner c ha), State.pool_abandonJobs]
    simp only [hactive, true_and]

end Releasable

end Sys2Proof.Machine
end

section
/-! SUPPORT. The halves of a line released one after another (R194): each channel is released in a state that stands for the
first one as far as that channel goes, and what the releases before and after it leave. -/

namespace Sys2Proof.Machine

/-- The halves that a line holds of the channels of a list released in turn. -/
def State.releaseAll (s : State) (l : Line) (cs : List Chan) : State := cs.foldl (fun t c => t.releaseHalf l c) s

theorem State.watchdogRelease_eq (s : State) (l : Line) :
    s.watchdogRelease l
      = (s.severAll.releaseAll l (List.finRange 128)).mapLine l fun u => { u with row := .empty } := rfl

theorem State.releaseAll_append_cons (s : State) (l : Line) (before after : List Chan) (c : Chan) :
    s.releaseAll l (before ++ c :: after) = (((s.releaseAll l before).releaseHalf l c).releaseAll l after) := by
  simp only [State.releaseAll, List.foldl_append, List.foldl_cons]

/-- Each channel stands once among all. -/
theorem finRange_split (c : Chan) : ∃ before after, List.finRange 128 = before ++ c :: after ∧ c ∉ before ∧ c ∉ after := by
  obtain ⟨before, after, hsplit⟩ := List.append_of_mem (List.mem_finRange c)
  have hnodup := List.nodup_finRange 128
  rw [hsplit, List.nodup_append] at hnodup
  obtain ⟨-, hafter, hapart⟩ := hnodup
  exact ⟨before, after, hsplit, fun hc => hapart c hc c List.mem_cons_self rfl, (List.nodup_cons.mp hafter).1⟩

/-- What every release keeps, all releases keep. -/
theorem State.releaseAll_induct {P : State → Prop} {l : Line} {cs : List Chan}
    (hstep : ∀ v d, v.releasable → d ∈ cs → P v → P (v.releaseHalf l d)) {u : State} (hu : u.releasable) (h : P u) :
    P (u.releaseAll l cs) := by
  induction cs generalizing u with
  | nil => exact h
  | cons c cs ih =>
    exact ih (fun v d hv hd => hstep v d hv (List.mem_cons_of_mem c hd)) (hu.releaseHalf l c)
      (hstep u c hu List.mem_cons_self h)

theorem State.releasable.releaseAll {u : State} (hu : u.releasable) (l : Line) (cs : List Chan) :
    (u.releaseAll l cs).releasable :=
  State.releaseAll_induct (P := State.releasable) (fun _ d hv _ _ => hv.releaseHalf l d) hu hu

/-! ### A state that stands for another as far as a channel goes -/

/-- The context, the time and the Line Units of `u`, but for rows that are not the channel's and have been emptied. -/
structure State.standsFor (u v : State) (c : Chan) : Prop where
  chan   : v.chan c = u.chan c
  device : v.device = u.device
  line   : ∀ k, v.line k = { u.line k with row := (v.line k).row }
  row    : ∀ k, (v.line k).row = (u.line k).row ∨ ((u.line k).row.latched ≠ some c ∧ (v.line k).row = .empty)

theorem State.standsFor.refl (u : State) (c : Chan) : u.standsFor u c := ⟨rfl, rfl, fun _ => rfl, fun _ => .inl rfl⟩

section StandsFor

variable {u v : State} {c : Chan} (h : u.standsFor v c)
include h

theorem State.standsFor.life : v.life c = u.life c := congrArg Channel.life h.chan

theorem State.standsFor.settings (k : Line) : (v.line k).settings = (u.line k).settings :=
  (congrArg LineUnit.settings (h.line k) :)

theorem State.standsFor.pendingOn (k : Line) : v.pendingOn k c = u.pendingOn k c := by
  unfold State.pendingOn
  obtain hrow | ⟨hother, hempty⟩ := h.row k
  · rw [hrow]
  · rw [hempty]
    simp [Row.empty, hother]

/-- A row PENDING on the channel stands. -/
theorem State.standsFor.row_of_pendingOn {k : Line} (hp : u.pendingOn k c = true) : (v.line k).row = (u.line k).row :=
  (h.row k).resolve_right fun hgone => hgone.1 ((u.pendingOn_iff k c).mp hp).2

theorem State.standsFor.startedTimer (k : Line) : v.startedTimer k = u.startedTimer k := by
  rw [State.startedTimer, h.settings, State.time_of_device h.device, State.clock_of_device h.device, State.startedTimer]

/-- The release of another channel. -/
theorem State.standsFor.releaseHalf (hv : v.releasable) (l : Line) {d : Chan} (hd : d ≠ c) :
    u.standsFor (v.releaseHalf l d) c := by
  refine ⟨(hv.chan_releaseHalf_ne l d hd).trans h.chan, (v.device_releaseHalf l d).trans h.device, fun k => ?_, fun k => ?_⟩
  · rw [hv.line_releaseHalf l d k, h.line k]
  · rw [hv.line_releaseHalf l d k]
    by_cases hgone : (k = l ∧ (v.line k).row.latched = some d) ∨ (k ≠ l ∧ v.pendingOn k d = true)
    · have hlatched : (v.line k).row.latched = some d :=
        hgone.elim (fun hk => hk.2) fun hk => ((v.pendingOn_iff k d).mp hk.2).2
      simp only [if_pos hgone]
      refine .inr ⟨fun hc => ?_, trivial⟩
      obtain hrow | ⟨hother, -⟩ := h.row k
      · rw [← hrow, hlatched] at hc
        exact hd (Option.some.inj hc)
      · exact hother hc
    · simp only [if_neg hgone]
      exact h.row k

end StandsFor

theorem State.standsFor_releaseAll {u : State} (hu : u.releasable) (l : Line) {c : Chan} {cs : List Chan} (hc : c ∉ cs) :
    u.standsFor (u.releaseAll l cs) c :=
  State.releaseAll_induct (P := fun v => u.standsFor v c)
    (fun _ _ hv hd h => h.releaseHalf hv l fun hdc => hc (hdc ▸ hd)) hu (.refl u c)

/-- Each channel is released in a state that stands for the first one, and stays as that release leaves it. -/
theorem State.chan_releaseAll {u : State} (hu : u.releasable) (l : Line) (c : Chan) :
    ∃ v, v.releasable ∧ u.standsFor v c ∧ (u.releaseAll l (List.finRange 128)).chan c = (v.releaseHalf l c).chan c
      ∧ ∀ k, ((v.releaseHalf l c).line k).row = .empty → ((u.releaseAll l (List.finRange 128)).line k).row = .empty := by
  obtain ⟨before, after, hsplit, hbefore, hafter⟩ := finRange_split c
  have hv := hu.releaseAll l before
  refine ⟨u.releaseAll l before, hv, State.standsFor_releaseAll hu l hbefore, ?_, fun k hrow => ?_⟩
  · rw [hsplit, State.releaseAll_append_cons]
    exact (State.standsFor_releaseAll (hv.releaseHalf l c) l hafter).chan
  · rw [hsplit, State.releaseAll_append_cons]
    refine State.releaseAll_induct (P := fun w => (w.line k).row = .empty) (fun w d hw _ hempty => ?_)
      (hv.releaseHalf l c) hrow
    rw [hw.line_releaseHalf l d k]
    simp only [hempty, ite_self]

/-! ### What all releases keep of the whole state -/

section ReleaseAll

variable {u : State} (hu : u.releasable) (l : Line) (cs : List Chan)
include hu

/-- A line's own Unit and the other's keep all but their rows. -/
theorem State.line_releaseAll (k : Line) :
    (u.releaseAll l cs).line k = { u.line k with row := ((u.releaseAll l cs).line k).row } :=
  State.releaseAll_induct (P := fun v => v.line k = { u.line k with row := (v.line k).row })
    (fun v d hv _ h => by rw [hv.line_releaseHalf l d k, h]) hu rfl

/-- With no row PENDING for the other line, that line's row stays (R24). -/
theorem State.row_releaseAll_other (hp : ∀ c, u.pendingOn (otherLine l) c = false) :
    ((u.releaseAll l cs).line (otherLine l)).row = (u.line (otherLine l)).row :=
  State.releaseAll_induct (P := fun v => (v.line (otherLine l)).row = (u.line (otherLine l)).row)
    (fun v d hv _ h => by
      have hnot : v.pendingOn (otherLine l) d = false := by
        rw [State.pendingOn, h]
        exact hp d
      rw [hv.line_releaseHalf l d, hnot, if_neg (by simp)]
      exact h) hu rfl

theorem State.counters_releaseAll (c : Chan) : ((u.releaseAll l cs).chan c).counters = (u.chan c).counters :=
  State.releaseAll_induct (P := fun v => (v.chan c).counters = (u.chan c).counters)
    (fun _ d hv _ h => (hv.counters_releaseHalf l d c).trans h) hu rfl

/-- The jobs of every ACTIVE channel of the list are given up (R130, R132). -/
theorem State.pool_releaseAll :
    (u.releaseAll l cs).pool = poolWithout (fun d => decide (d ∈ cs ∧ (u.life d).lifecycle = .active)) u.pool := by
  induction cs generalizing u with
  | nil => simp only [List.not_mem_nil, false_and, decide_false, poolWithout_none]; rfl
  | cons c cs ih =>
    refine (ih (hu.releaseHalf l c)).trans ?_
    rw [hu.pool_releaseHalf l c, poolWithout_poolWithout]
    refine congrArg (poolWithout · _) (funext fun d => ?_)
    simp only [hu.active_releaseHalf l c d, List.mem_cons, ← Bool.decide_or, decide_eq_decide]
    by_cases hd : d = c
    · simp [hd]
    · simp [hd]

end ReleaseAll

end Sys2Proof.Machine
end

section
/-! SUPPORT. The timeslots while the halves of a line are released one after another: by F they are only freed, by R only
left IDLE, but for the one move that the F row can hold. -/

namespace Sys2Proof.Machine

theorem Timeslot.eq_freed {a b : Timeslot} (hentry : a.entry = .free) (hsource : a.source = .idle)
    (hout : a.out = b.out) : a = { b with entry := .free, source := .idle } := by
  cases a
  simp only at hentry hsource hout
  rw [hentry, hsource, hout]

/-- A timeslot that is IDLE already stays where it may be left IDLE. -/
theorem Timeslot.eq_of_idle {a b : Timeslot} (h : b.source = .idle) (hb : a = b ∨ a = { b with source := .idle }) :
    a = b := by
  obtain hb | hb := hb
  · exact hb
  · rw [hb, ← h]

/-! ### One release -/

section OneRelease

variable {s : State} (h : s.releasable) (c : Chan)
include h

/-- By F the channel's own timeslot is FREE and IDLE, and a reservation of the lost row freed (R20, R21, R149). -/
theorem State.releasable.slot_releaseHalf_F (x : Slot) :
    (s.releaseHalf .F c).slot x
      = if (s.life c).fixed?.map (·.timeslot) = some x then { s.slot x with entry := .free, source := .idle }
        else if s.pendingOn .F c = true ∧ s.lineF.row.timeslot? = some x ∧ (s.slot x).entry = .reserved c then
          { s.slot x with entry := .free }
        else s.slot x := by
  obtain hno | ⟨-, y, hy⟩ | ⟨hF, -⟩ | ⟨a, ha⟩ := s.releaseHalf_cases .F c
  · have hfixed : (s.life c).fixed? = none := Option.not_isSome_iff_eq_none.mp (Bool.eq_false_iff.mp hno)
    have hp : s.pendingOn .F c = false := h.rows.not_pendingOn (fun hactive => by
      rw [Life.holds_of_lifecycle hactive] at hno
      cases hno) _
    rw [State.releaseHalf_of_not_holds hno, hfixed, hp]
    simp
  · have hp : s.pendingOn .F c = false := h.rows.not_pendingOn (by rw [hy]; exact nofun) _
    rw [State.slot_releaseHalf_halfF hy hp, hy, hp]
    simp [Life.fixed?]
  · cases hF
  · rw [State.slot_releaseHalf_active_F ha h.rows, ha]
    simp [Life.fixed?]

/-- By R, with no F row PENDING on the channel, the timeslot of an ACTIVE channel is left IDLE (R22). -/
theorem State.releasable.slot_releaseHalf_R (hp : s.pendingOn .F c = false) (x : Slot) :
    (s.releaseHalf .R c).slot x
      = if (s.life c).lifecycle = .active ∧ (s.life c).fixed?.map (·.timeslot) = some x then
          { s.slot x with source := .idle }
        else s.slot x := by
  obtain hno | ⟨hR, -⟩ | ⟨-, y, hy⟩ | ⟨a, ha⟩ := s.releaseHalf_cases .R c
  · rw [State.releaseHalf_of_not_holds hno, if_neg]
    rintro ⟨hactive, -⟩
    rw [Life.holds_of_lifecycle hactive] at hno
    cases hno
  · cases hR
  · rw [State.slot_releaseHalf_halfR hy (h.rows.not_pendingOn (by rw [hy]; exact nofun) _), hy]
    simp [Life.lifecycle]
  · rw [State.slot_releaseHalf_active_R ha h.rows hp, ha]
    simp [Life.fixed?, Life.lifecycle]

/-- No channel gains a fixed half, and where no F row applies none is changed. -/
theorem State.releasable.fixed?_releaseHalf (l : Line) (hp : l = .R → s.pendingOn .F c = false) {d : Chan}
    {f : FixedHalf} (hf : ((s.releaseHalf l c).life d).fixed? = some f) : (s.life d).fixed? = some f := by
  by_cases hd : c = d
  · subst hd
    obtain hno | ⟨rfl, y, hy⟩ | ⟨rfl, y, hy⟩ | ⟨a, ha⟩ := s.releaseHalf_cases l c
    · rwa [State.releaseHalf_of_not_holds hno] at hf
    · rw [State.life_def, State.chan_releaseHalf_halfF hy (h.rows.not_pendingOn (by rw [hy]; exact nofun) _),
        if_pos rfl] at hf
      cases hf
    · rw [State.life_def, State.chan_releaseHalf_halfR hy (h.rows.not_pendingOn (by rw [hy]; exact nofun) _),
        if_pos rfl] at hf
      cases hf
    · cases l with
      | F =>
        obtain ⟨y, hy⟩ := (h.life_releaseHalf_active .F c ha).1 rfl
        rw [hy] at hf
        cases hf
      | R =>
        rw [State.life_releaseHalf_active .R ha (hp rfl)] at hf
        rwa [ha]
  · rwa [State.life_def, h.chan_releaseHalf_ne l c hd] at hf

end OneRelease

/-! ### All releases by F -/

section ByF

variable {u : State} (hu : u.releasable) {c : Chan} {x : Slot}
include hu

theorem State.out_releaseAll_F (cs : List Chan) : ((u.releaseAll .F cs).slot x).out = (u.slot x).out :=
  State.releaseAll_induct (P := fun v => (v.slot x).out = (u.slot x).out) (fun v d hv _ h => by
    rw [hv.slot_releaseHalf_F]
    split
    · exact h
    · split <;> exact h) hu rfl

theorem State.free_releaseAll_F (cs : List Chan) (h : (u.slot x).entry = .free) :
    ((u.releaseAll .F cs).slot x).entry = .free :=
  State.releaseAll_induct (P := fun v => (v.slot x).entry = .free) (fun v d hv _ h => by
    rw [hv.slot_releaseHalf_F]
    split
    · rfl
    · split
      · rfl
      · exact h) hu h

theorem State.idle_releaseAll_F (cs : List Chan) (h : (u.slot x).source = .idle) :
    ((u.releaseAll .F cs).slot x).source = .idle :=
  State.releaseAll_induct (P := fun v => (v.slot x).source = .idle) (fun v d hv _ h => by
    rw [hv.slot_releaseHalf_F]
    split
    · rfl
    · split <;> exact h) hu h

/-- The timeslot of every fixed half is freed. -/
theorem State.slot_releaseAll_F_own {f : FixedHalf} (hf : (u.life c).fixed? = some f) (hx : f.timeslot = x) :
    (u.releaseAll .F (List.finRange 128)).slot x = { u.slot x with entry := .free, source := .idle } := by
  obtain ⟨before, after, hsplit, hbefore, -⟩ := finRange_split c
  have hv := hu.releaseAll .F before
  have hlife := (State.standsFor_releaseAll hu .F hbefore).life
  have hreleased := hv.slot_releaseHalf_F c x
  rw [hlife, hf, Option.map_some, hx, if_pos rfl] at hreleased
  have hw := hv.releaseHalf .F c
  rw [hsplit, State.releaseAll_append_cons]
  have hfree := State.free_releaseAll_F hw (x := x) after (by rw [hreleased])
  have hidle := State.idle_releaseAll_F hw (x := x) after (by rw [hreleased])
  have hout := State.out_releaseAll_F hw (x := x) after
  rw [hreleased] at hout
  exact Timeslot.eq_freed hfree hidle (hout.trans (State.out_releaseAll_F hu before))

/-- The reservation of the lost row is freed (R149). -/
theorem State.entry_releaseAll_F_reserved (hp : u.pendingOn .F c = true) (hx : u.lineF.row.timeslot? = some x)
    (he : (u.slot x).entry = .reserved c) :
    ((u.releaseAll .F (List.finRange 128)).slot x).entry = .free := by
  obtain ⟨before, after, hsplit, hbefore, -⟩ := finRange_split c
  have hv := hu.releaseAll .F before
  have hstands := State.standsFor_releaseAll hu .F hbefore
  have hpv : (u.releaseAll .F before).pendingOn .F c = true := (hstands.pendingOn .F).trans hp
  have hxv : (u.releaseAll .F before).lineF.row.timeslot? = some x := by
    rw [show (u.releaseAll .F before).lineF.row = u.lineF.row from hstands.row_of_pendingOn hp, hx]
  have hev : ((u.releaseAll .F before).slot x).entry = .reserved c ∨ ((u.releaseAll .F before).slot x).entry = .free :=
    State.releaseAll_induct (P := fun v => (v.slot x).entry = .reserved c ∨ (v.slot x).entry = .free)
      (fun v d hv _ h => by
        rw [hv.slot_releaseHalf_F]
        split
        · exact .inr rfl
        · split
          · exact .inr rfl
          · exact h) hu (.inl he)
  rw [hsplit, State.releaseAll_append_cons]
  refine State.free_releaseAll_F (hv.releaseHalf .F c) after ?_
  rw [hv.slot_releaseHalf_F]
  split
  · rfl
  · obtain hev | hev := hev
    · rw [if_pos ⟨hpv, hxv, hev⟩]
    · split
      · rfl
      · exact hev

end ByF

/-! ### All releases by R -/

section ByR

variable {u : State} (hu : u.releasable) {c : Chan}
include hu

/-- Where no F row is PENDING on the channels released, a timeslot stays or is left IDLE, and the F row stays. -/
theorem State.slot_releaseAll_R {cs : List Chan} (hp : ∀ d ∈ cs, u.pendingOn .F d = false) (x : Slot) :
    (u.releaseAll .R cs).lineF.row = u.lineF.row
      ∧ ((u.releaseAll .R cs).slot x = u.slot x ∨ (u.releaseAll .R cs).slot x = { u.slot x with source := .idle }) :=
  State.releaseAll_induct (P := fun v => v.lineF.row = u.lineF.row
      ∧ (v.slot x = u.slot x ∨ v.slot x = { u.slot x with source := .idle }))
    (fun v d hv hd ⟨hrow, hslot⟩ => by
      have hpv : v.pendingOn .F d = false := by
        rw [State.pendingOn, show (v.line .F).row = (u.line .F).row from hrow]
        exact hp d hd
      refine ⟨?_, ?_⟩
      · rw [← hrow]
        refine (congrArg LineUnit.row (hv.line_releaseHalf .R d .F)).trans ?_
        simp [hpv]
        rfl
      · rw [hv.slot_releaseHalf_R d hpv x]
        split
        · obtain hslot | hslot := hslot
          · rw [hslot]
            exact .inr rfl
          · rw [hslot]
            exact .inr rfl
        · exact hslot) hu ⟨rfl, .inl rfl⟩

/-- Where no F row is PENDING at all, the timeslot of every ACTIVE channel is left IDLE. -/
theorem State.slot_releaseAll_R_own (hp : ∀ d, u.pendingOn .F d = false) {a : Active} (ha : u.life c = .active a) :
    (u.releaseAll .R (List.finRange 128)).slot a.fixed.timeslot = { u.slot a.fixed.timeslot with source := .idle } := by
  obtain ⟨before, after, hsplit, hbefore, -⟩ := finRange_split c
  have hv := hu.releaseAll .R before
  have hstands := State.standsFor_releaseAll hu .R hbefore
  have hpv : ∀ d, (u.releaseAll .R before).pendingOn .F d = false := fun d => by
    have hrow := (State.slot_releaseAll_R hu (cs := before) (fun d _ => hp d) a.fixed.timeslot).1
    rw [State.pendingOn, show ((u.releaseAll .R before).line .F).row = (u.line .F).row from hrow]
    exact hp d
  obtain ⟨-, hslot⟩ := State.slot_releaseAll_R hu (cs := before) (fun d _ => hp d) a.fixed.timeslot
  have hreleased := State.slot_releaseHalf_active_R (hstands.life.trans ha) hv.rows (hpv c) a.fixed.timeslot
  rw [if_pos rfl] at hreleased
  have hw := hv.releaseHalf .R c
  have hpw : ∀ d, ((u.releaseAll .R before).releaseHalf .R c).pendingOn .F d = false := fun d => by
    rw [State.pendingOn, hv.line_releaseHalf .R c .F]
    simp only [hpv c]
    simpa [State.pendingOn] using hpv d
  obtain ⟨-, hafter⟩ := State.slot_releaseAll_R hw (cs := after) (fun d _ => hpw d) a.fixed.timeslot
  rw [hsplit, State.releaseAll_append_cons, Timeslot.eq_of_idle (by rw [hreleased]) hafter, hreleased]
  obtain hslot | hslot := hslot <;> rw [hslot]

/-- Where the F row is PENDING on a channel, that channel is released in a state whose timeslots are as they were, or left
IDLE, and so are they afterwards. -/
theorem State.slot_releaseAll_R_pending (hp : u.pendingOn .F c = true) :
    ∃ v, v.releasable ∧ u.standsFor v c ∧ (u.releaseAll .R (List.finRange 128)).chan c = (v.releaseHalf .R c).chan c
      ∧ ∀ x, (v.slot x = u.slot x ∨ v.slot x = { u.slot x with source := .idle })
        ∧ ((u.releaseAll .R (List.finRange 128)).slot x = (v.releaseHalf .R c).slot x
          ∨ (u.releaseAll .R (List.finRange 128)).slot x = { (v.releaseHalf .R c).slot x with source := .idle }) := by
  obtain ⟨before, after, hsplit, hbefore, hafter⟩ := finRange_split c
  have hv := hu.releaseAll .R before
  have hstands := State.standsFor_releaseAll hu .R hbefore
  have hpv := (hstands.pendingOn .F).trans hp
  have hothers : ∀ d ∈ before, u.pendingOn .F d = false := fun d hd => by
    rw [Bool.eq_false_iff]
    intro hpd
    have hlatched := ((u.pendingOn_iff .F d).mp hpd).2
    rw [((u.pendingOn_iff .F c).mp hp).2] at hlatched
    exact hbefore (Option.some.inj hlatched ▸ hd)
  have hw := hv.releaseHalf .R c
  have hpw : ∀ d ∈ after, ((u.releaseAll .R before).releaseHalf .R c).pendingOn .F d = false := fun d _ => by
    rw [State.pendingOn, hv.line_releaseHalf .R c .F]
    simp [hpv, Row.empty]
  refine ⟨u.releaseAll .R before, hv, hstands, ?_, fun x => ⟨(State.slot_releaseAll_R hu hothers x).2, ?_⟩⟩
  all_goals rw [hsplit, State.releaseAll_append_cons]
  · exact (State.standsFor_releaseAll hw .R hafter).chan
  · exact (State.slot_releaseAll_R hw hpw x).2

end ByR

/-! ### Timeslots that no channel has -/

/-- Where no row of the other line applies, a timeslot of no channel and with no reservation stays. -/
theorem State.slot_releaseAll_unnamed {u : State} (hu : u.releasable) (l : Line)
    (hp : ∀ d, u.pendingOn (otherLine l) d = false) {x : Slot} (hown : ∀ d f, (u.life d).fixed? = some f → f.timeslot ≠ x)
    (hreserved : ∀ d, (u.slot x).entry ≠ .reserved d) (cs : List Chan) :
    (u.releaseAll l cs).slot x = u.slot x := by
  have hall : ((u.releaseAll l cs).slot x = u.slot x)
      ∧ (∀ d f, ((u.releaseAll l cs).life d).fixed? = some f → f.timeslot ≠ x)
      ∧ ((u.releaseAll l cs).line (otherLine l)).row = (u.line (otherLine l)).row :=
    State.releaseAll_induct (P := fun v => v.slot x = u.slot x
        ∧ (∀ d f, (v.life d).fixed? = some f → f.timeslot ≠ x) ∧ (v.line (otherLine l)).row = (u.line (otherLine l)).row)
      (fun v d hv _ ⟨hslot, hnamed, hrow⟩ => by
        have hpv : v.pendingOn (otherLine l) d = false := by
          rw [State.pendingOn, hrow]
          exact hp d
        have hnot : (v.life d).fixed?.map (·.timeslot) ≠ some x := fun hx => by
          obtain ⟨f, hf, hfx⟩ := Option.map_eq_some_iff.mp hx
          exact hnamed d f hf hfx
        refine ⟨?_, fun e f hf => hnamed e f (hv.fixed?_releaseHalf d l (fun hR => by rwa [hR] at hpv) hf), ?_⟩
        · cases l with
          | F =>
            rw [hv.slot_releaseHalf_F, if_neg hnot, if_neg, hslot]
            rintro ⟨-, -, he⟩
            rw [hslot] at he
            exact hreserved d he
          | R => rw [hv.slot_releaseHalf_R d hpv, if_neg fun h => hnot h.2, hslot]
        · rw [hv.line_releaseHalf l d, hpv, if_neg (by simp)]
          exact hrow) hu ⟨rfl, hown, rfl⟩
  exact hall.1

end Sys2Proof.Machine
end

section
/-! SUPPORT. The watchdog: the silent line (R193), the splices ended together (R194), and what the release of all halves leaves
of every channel. -/

namespace Sys2Proof.Machine

/-! ### All splices ended (R164, R194) -/

/-- A context with its splice ended: SPLICE_ENDED is recorded for F, and the context is not ACTIVE in a splice any more. -/
def State.severedChan (s : State) (c : Chan) : Channel :=
  if (s.life c).partner?.isSome then
    { (s.chan c).mapActive fun a => { a with partner := none } with
      eventsF := s.recordedFor .F .spliceEnded (s.chan c).eventsF }
  else s.chan c

/-- One channel's splice ended, if it has one. -/
def State.severSpliced (s : State) (c : Chan) : State := if (s.life c).partner?.isSome then s.sever c else s

theorem State.chan_severSpliced_self (s : State) (c : Chan) : (s.severSpliced c).chan c = s.severedChan c := by
  unfold State.severSpliced State.severedChan
  split
  · rw [State.chan_sever, if_pos rfl]
  · rfl

theorem State.chan_severSpliced_ne (s : State) {c d : Chan} (h : d ≠ c) : (s.severSpliced d).chan c = s.chan c := by
  unfold State.severSpliced
  split
  · rw [State.chan_sever, if_neg h]
  · rfl

theorem State.line_severSpliced (s : State) (c : Chan) (k : Line) : (s.severSpliced c).line k = s.line k := by
  unfold State.severSpliced
  split <;> simp

theorem State.chan_severAll (s : State) (c : Chan) : s.severAll.chan c = s.severedChan c := by
  obtain ⟨before, after, hsplit, hbefore, hafter⟩ := finRange_split c
  have hkeeps : ∀ (cs : List Chan) (t : State), c ∉ cs → (cs.foldl State.severSpliced t).chan c = t.chan c := fun cs t hc =>
    List.foldlRecOn (motive := fun v : State => v.chan c = t.chan c) cs _ rfl fun v hv d hd =>
      (v.chan_severSpliced_ne fun hdc : d = c => hc (hdc ▸ hd)).trans hv
  have hall : s.severAll = after.foldl State.severSpliced ((before.foldl State.severSpliced s).severSpliced c) := by
    show (List.finRange 128).foldl State.severSpliced s = _
    rw [hsplit, List.foldl_append, List.foldl_cons]
  have hline : ∀ k, (before.foldl State.severSpliced s).line k = s.line k := fun k =>
    foldl_keeps (fun t : State => t.line k) _ (fun t d => t.line_severSpliced d k) _ s
  rw [hall, hkeeps after _ hafter, State.chan_severSpliced_self, State.severedChan, State.severedChan, State.life_def,
    hkeeps before s hbefore, State.recordedFor_of_settings (s := s) (by rw [hline]), State.life_def]

theorem State.life_severAll_of_active {s : State} {c : Chan} {a : Active} (h : s.life c = .active a) :
    s.severAll.life c = .active { a with partner := none } := by
  rw [State.life_def, State.chan_severAll, State.severedChan, h]
  cases hp : a.partner with
  | none =>
    simp only [Life.partner?, hp, Option.isSome_none, Bool.false_eq_true, if_false]
    exact h.trans (congrArg Life.active (by rw [← hp]))
  | some b =>
    simp only [Life.partner?, hp, Option.isSome_some, if_true]
    rw [Channel.mapActive_of_active h]

/-- A context that is not ACTIVE is in no splice. -/
theorem State.chan_severAll_of_not_active {s : State} {c : Chan} (h : (s.life c).lifecycle ≠ .active) :
    s.severAll.chan c = s.chan c := by
  rw [State.chan_severAll, State.severedChan, Life.partner?_of_lifecycle h]
  rfl

/-- Which halves a channel has is not changed. -/
theorem State.halves_severAll (s : State) (c : Chan) :
    (s.severAll.life c).lifecycle = (s.life c).lifecycle ∧ (s.severAll.life c).fixed? = (s.life c).fixed?
      ∧ ∀ k, (s.severAll.life c).holds k = (s.life c).holds k := by
  by_cases h : (s.life c).lifecycle = .active
  · obtain ⟨a, ha⟩ := Life.lifecycle_eq_active.mp h
    rw [State.life_severAll_of_active ha, ha]
    exact ⟨rfl, rfl, fun k => by cases k <;> rfl⟩
  · rw [State.life_def, State.chan_severAll_of_not_active h]
    exact ⟨rfl, rfl, fun _ => rfl⟩

theorem State.counters_severAll (s : State) (c : Chan) : (s.severAll.chan c).counters = (s.chan c).counters := by
  rw [State.chan_severAll, State.severedChan]
  split
  · exact Channel.mapActive_counters _ _
  · rfl

/-- SPLICE_ENDED stands in the F line's record of a channel that was spliced, as far as the mask allows it. -/
theorem State.events_severAll {s : State} {c : Chan} {a : Active} (h : s.life c = .active a) (hp : a.partner ≠ none)
    (hm : s.lineF.settings.eventMask.getLsbD Kind.spliceEnded.bit = true) :
    ((s.severAll.chan c).events .F).kinds.getLsbD Kind.spliceEnded.bit = true := by
  have hsome : (s.life c).partner?.isSome = true := by
    rw [h]
    exact Option.isSome_iff_ne_none.mpr hp
  rw [State.chan_severAll, State.severedChan, if_pos hsome]
  exact State.recordedFor_bit (l := .F) hm _

theorem State.pendingOn_severAll (s : State) (k : Line) (c : Chan) : s.severAll.pendingOn k c = s.pendingOn k c :=
  State.pendingOn_of_line (s.line_severAll k) c

/-- With all splices ended the releases begin. -/
theorem State.releasable_severAll {s : State} (h : s.rowsOk) : s.severAll.releasable := by
  refine ⟨fun k => ?_, fun d => ?_⟩
  · rw [State.line_severAll]
    refine ⟨(h k).1, fun c hc => ?_⟩
    obtain ⟨hlifecycle, -, hholds⟩ := s.halves_severAll c
    rw [hlifecycle, hholds]
    exact (h k).2 c hc
  · rw [State.severAll, State.partners_severed, if_pos (List.mem_finRange d)]

/-! ### The silent line (R193) -/

/-- The line SILENT with no expiry held, and PARTNER_SILENT recorded for the other. -/
def State.silenced (s : State) (l : Line) : State :=
  (s.mapLine l fun u => { u with silent := true, expiry := none }).recordLine (otherLine l) .partnerSilent

theorem State.line_silenced_self (s : State) (l : Line) :
    (s.silenced l).line l = { s.line l with silent := true, expiry := none } := by
  rw [State.silenced, State.line_recordLine_ne _ (ne_otherLine l).symm, State.line_mapLine_self]

theorem State.line_silenced_other (s : State) (l : Line) :
    (s.silenced l).line (otherLine l)
      = { s.line (otherLine l) with
          lineEvents := s.recordedSet (otherLine l) .partnerSilent (s.line (otherLine l)).lineEvents } := by
  have hother : ∀ f, (s.mapLine l f).line (otherLine l) = s.line (otherLine l) := fun f => by
    rw [State.line_mapLine, if_neg (ne_otherLine l)]
  rw [State.silenced, State.line_recordLine_self, hother, State.recordedSet_mapLine _ _ _ fun _ => by rfl]

/-- The rows and the settings stand. -/
theorem State.row_silenced (s : State) (l k : Line) :
    ((s.silenced l).line k).row = (s.line k).row ∧ ((s.silenced l).line k).settings = (s.line k).settings := by
  by_cases hk : k = l
  · rw [hk, State.line_silenced_self]
    exact ⟨rfl, rfl⟩
  · rw [← otherLine_eq_of_ne hk, State.line_silenced_other]
    exact ⟨rfl, rfl⟩

@[simp] theorem State.chan_silenced (s : State) (l : Line) (c : Chan) : (s.silenced l).chan c = s.chan c := by
  simp [State.silenced]
@[simp] theorem State.life_silenced (s : State) (l : Line) (c : Chan) : (s.silenced l).life c = s.life c := by
  simp [State.silenced]
@[simp] theorem State.slot_silenced (s : State) (l : Line) (x : Slot) : (s.silenced l).slot x = s.slot x := by
  simp [State.silenced]
@[simp] theorem State.device_silenced (s : State) (l : Line) : (s.silenced l).device = s.device := by
  simp [State.silenced]
@[simp] theorem State.pool_silenced (s : State) (l : Line) : (s.silenced l).pool = s.pool := by
  simp [State.silenced]
@[simp] theorem State.link_silenced (s : State) (l : Line) : (s.silenced l).link = s.link := by
  simp [State.silenced]

theorem State.rowsOk_silenced {s : State} (h : s.rowsOk) (l : Line) : (s.silenced l).rowsOk := by
  intro k
  rw [(s.row_silenced l k).1]
  simpa only [State.life_silenced] using h k

theorem State.pendingOn_silenced (s : State) (l k : Line) (c : Chan) : (s.silenced l).pendingOn k c = s.pendingOn k c := by
  rw [State.pendingOn, (s.row_silenced l k).1, State.pendingOn]

/-- An expiry that has come makes the line SILENT; with the RELEASE action its halves are released. -/
theorem exec_watchdogExpiry {s : State} {l : Line} {tm : Timer} (hsilent : (s.line l).silent = false)
    (hexpiry : (s.line l).expiry = some tm) (hcome : tm.expiry ≤ s.time) :
    exec (.watchdogExpiry l) s
      = .next (if (s.line l).settings.releaseAction then (s.silenced l).watchdogRelease l else s.silenced l).settle := by
  have hdue : (!(s.line l).silent && s.expired (s.line l).expiry) = true := by
    simp only [hsilent, hexpiry, State.expired, State.reached, Option.any_some, Bool.not_false, Bool.true_and]
    exact decide_eq_true hcome
  exact congrArg Host.Outcome.next (if_pos hdue)

end Sys2Proof.Machine
end

section
/-! SUPPORT. The expiry of a watchdog: what a silent line's release leaves of each channel, and the statement about it. -/

namespace Sys2Proof.Machine

/-! ### The records of a channel released from ACTIVE -/

section Records

variable {s : State} (h : s.releasable) (l : Line) {c : Chan} {a : Active} (ha : s.life c = .active a)
include h ha

/-- COMMIT_LOST for the releasing line; PEER_RELEASED for the other, and COMMIT_APPLIED where its row was PENDING. -/
theorem State.releasable.events_releaseHalf :
    ((s.releaseHalf l c).chan c).events l
        = (if s.pendingOn l c = true then s.recordedFor l .commitLost ((s.chan c).events l) else (s.chan c).events l)
      ∧ ((s.releaseHalf l c).chan c).events (otherLine l)
        = (if s.pendingOn (otherLine l) c = true then
            s.recordedFor (otherLine l) .commitApplied
              (s.recordedFor (otherLine l) .peerReleased ((s.chan c).events (otherLine l)))
          else s.recordedFor (otherLine l) .peerReleased ((s.chan c).events (otherLine l))) := by
  obtain ⟨-, -, hown, hother⟩ := State.chan_releaseHalf_active l ha
  rw [State.stopStreams_unspliced s c (h.partner c ha), State.chan_abandonJobs] at hown hother
  exact ⟨hown, hother⟩

/-- No recorded kind is lost in the release. -/
theorem State.releasable.events_releaseHalf_keeps {k : Line} {n : Nat}
    (hbit : ((s.chan c).events k).kinds.getLsbD n = true) :
    (((s.releaseHalf l c).chan c).events k).kinds.getLsbD n = true := by
  obtain ⟨hown, hother⟩ := h.events_releaseHalf l ha
  by_cases hk : k = l
  · rw [hk] at hbit ⊢
    rw [hown]
    split
    · exact State.recordedFor_keeps _ _ _ hbit
    · exact hbit
  · rw [← otherLine_eq_of_ne hk] at hbit ⊢
    rw [hother]
    split
    · exact State.recordedFor_keeps _ _ _ (State.recordedFor_keeps _ _ _ hbit)
    · exact State.recordedFor_keeps _ _ _ hbit

end Records

/-! ### The state in which a channel is released -/

/-- The start of the releases: the line silent and every splice ended. -/
def State.watchdogStart (s : State) (l : Line) : State := (s.silenced l).severAll

/-- All halves of the line released. -/
def State.watchdogLeft (s : State) (l : Line) : State := (s.watchdogStart l).releaseAll l (List.finRange 128)

/-- A state in which a watchdog's release of `s` comes to a channel: its context severed, the rows that are PENDING on it, the
settings and the time as they were. -/
structure State.stage (s v : State) (l : Line) (c : Chan) : Prop where
  releasable : v.releasable
  chan       : v.chan c = (s.watchdogStart l).chan c
  settings   : ∀ k, (v.line k).settings = (s.line k).settings
  pendingOn  : ∀ k, v.pendingOn k c = s.pendingOn k c
  row        : ∀ k, s.pendingOn k c = true → (v.line k).row = (s.line k).row
  timer      : ∀ k, v.startedTimer k = s.startedTimer k

section Start

variable {s : State} (l : Line)

theorem State.row_watchdogStart (k : Line) :
    ((s.watchdogStart l).line k).row = (s.line k).row
      ∧ ((s.watchdogStart l).line k).settings = (s.line k).settings := by
  rw [State.watchdogStart, State.line_severAll]
  exact s.row_silenced l k

theorem State.pendingOn_watchdogStart (k : Line) (c : Chan) : (s.watchdogStart l).pendingOn k c = s.pendingOn k c := by
  rw [State.watchdogStart, State.pendingOn_severAll, State.pendingOn_silenced]

theorem State.device_watchdogStart : (s.watchdogStart l).device = s.device := by simp [State.watchdogStart]

theorem State.slot_watchdogStart (x : Slot) : (s.watchdogStart l).slot x = s.slot x := by simp [State.watchdogStart]

theorem State.releasable_watchdogStart (h : s.rowsOk) : (s.watchdogStart l).releasable :=
  State.releasable_severAll (State.rowsOk_silenced h l)

theorem State.halves_watchdogStart (c : Chan) :
    ((s.watchdogStart l).life c).lifecycle = (s.life c).lifecycle ∧ ((s.watchdogStart l).life c).fixed? = (s.life c).fixed?
      ∧ ∀ k, ((s.watchdogStart l).life c).holds k = (s.life c).holds k := by
  have hhalves := (s.silenced l).halves_severAll c
  rwa [State.life_silenced] at hhalves

theorem State.chan_watchdogStart {c : Chan} (h : (s.life c).lifecycle ≠ .active) :
    (s.watchdogStart l).chan c = s.chan c := by
  rw [State.watchdogStart, State.chan_severAll_of_not_active (by rwa [State.life_silenced]), State.chan_silenced]

theorem State.stage_of_standsFor {v : State} {c : Chan} (hv : v.releasable) (h : (s.watchdogStart l).standsFor v c) :
    s.stage v l c := by
  have hsettings : ∀ k, (v.line k).settings = (s.line k).settings := fun k =>
    (h.settings k).trans (s.row_watchdogStart l k).2
  have hdevice := h.device.trans (s.device_watchdogStart l)
  refine ⟨hv, h.chan, hsettings, fun k => (h.pendingOn k).trans (State.pendingOn_watchdogStart l k c), fun k hp => ?_,
    fun k => ?_⟩
  · rw [← State.pendingOn_watchdogStart l] at hp
    exact (h.row_of_pendingOn hp).trans (s.row_watchdogStart l k).1
  · rw [State.startedTimer, hsettings, State.time_of_device hdevice, State.clock_of_device hdevice, State.startedTimer]

theorem State.stage.life_active {v : State} {c : Chan} {a : Active} (h : s.stage v l c) (ha : s.life c = .active a) :
    v.life c = .active { a with partner := none } :=
  (congrArg Channel.life h.chan).trans (State.life_severAll_of_active (by rwa [State.life_silenced]))

theorem State.stage.chan_of_not_active {v : State} {c : Chan} (h : s.stage v l c) (hne : (s.life c).lifecycle ≠ .active) :
    v.chan c = s.chan c := h.chan.trans (State.chan_watchdogStart l hne)

end Start

/-! ### Each channel afterwards (R194) -/

section Left

variable {s : State} (hr : s.rowsOk) (l : Line) (c : Chan)
include hr

theorem State.exists_stage :
    ∃ v, s.stage v l c ∧ (s.watchdogLeft l).chan c = (v.releaseHalf l c).chan c
      ∧ ∀ k, ((v.releaseHalf l c).line k).row = .empty → ((s.watchdogLeft l).line k).row = .empty := by
  obtain ⟨v, hv, hstands, hchan, hrow⟩ := State.chan_releaseAll (State.releasable_watchdogStart l hr) l c
  exact ⟨v, State.stage_of_standsFor l hv hstands, hchan, hrow⟩

theorem State.chan_watchdogLeft_of_not_holds (h : (s.life c).holds l = false) :
    (s.watchdogLeft l).chan c = s.chan c := by
  obtain ⟨v, hstage, hchan, -⟩ := State.exists_stage hr l c
  have hne : (s.life c).lifecycle ≠ .active := fun hactive => by
    rw [Life.holds_of_lifecycle hactive] at h
    cases h
  have hv := hstage.chan_of_not_active l hne
  rw [hchan, State.releaseHalf_of_not_holds (by rw [State.life_def, hv]; exact h), hv]

theorem State.counters_watchdogLeft : ((s.watchdogLeft l).chan c).counters = (s.chan c).counters := by
  rw [State.watchdogLeft, State.counters_releaseAll (State.releasable_watchdogStart l hr), State.watchdogStart,
    State.counters_severAll, State.chan_silenced]

/-- A half state of the line is FREE afterwards (R20, R21). -/
theorem State.life_watchdogLeft_free (h : (s.life c).holdingLine? = some l) : (s.watchdogLeft l).life c = .free := by
  obtain ⟨v, hstage, hchan, -⟩ := State.exists_stage hr l c
  rw [State.life_def, hchan]
  cases hl : s.life c with
  | halfF x =>
    rw [hl] at h
    cases h
    have hv : v.life c = .halfF x :=
      (congrArg Channel.life (hstage.chan_of_not_active .F (by rw [hl]; exact nofun))).trans hl
    rw [State.chan_releaseHalf_halfF hv (hstage.releasable.rows.not_pendingOn (by rw [hv]; exact nofun) _), if_pos rfl]
  | halfR x =>
    rw [hl] at h
    cases h
    have hv : v.life c = .halfR x :=
      (congrArg Channel.life (hstage.chan_of_not_active .R (by rw [hl]; exact nofun))).trans hl
    rw [State.chan_releaseHalf_halfR hv (hstage.releasable.rows.not_pendingOn (by rw [hv]; exact nofun) _), if_pos rfl]
  | free | active a =>
    rw [hl] at h
    cases h

/-- A HALF_F channel's check ends ABORTED (R172). -/
theorem State.chan_watchdogLeft_halfF {x : HalfF} (h : s.life c = .halfF x) :
    ((s.watchdogLeft .F).chan c).continuity
        = (if x.check = none then (s.chan c).continuity else { result := .aborted, delay := 0 })
      ∧ (x.check ≠ none → s.lineF.settings.eventMask.getLsbD Kind.continuityDone.bit = true →
        ((s.watchdogLeft .F).chan c).eventsF.kinds.getLsbD Kind.continuityDone.bit = true) := by
  obtain ⟨v, hstage, hchan, -⟩ := State.exists_stage hr .F c
  have hv := hstage.chan_of_not_active .F (c := c) (by rw [h]; exact nofun)
  have hlife : v.life c = .halfF x := (congrArg Channel.life hv).trans h
  rw [hchan, State.chan_releaseHalf_halfF hlife (hstage.releasable.rows.not_pendingOn (by rw [hlife]; exact nofun) _),
    if_pos rfl, hv]
  refine ⟨rfl, fun hcheck hm => ?_⟩
  simp only [State.eventsAborted, if_neg hcheck]
  exact State.recordedFor_bit (by rw [hstage.settings]; exact hm) _

/-- A PENDING row of the silent line is lost (R149, log 14). -/
theorem State.events_watchdogLeft_lost (hp : s.pendingOn l c = true)
    (hm : (s.line l).settings.eventMask.getLsbD Kind.commitLost.bit = true) :
    (((s.watchdogLeft l).chan c).events l).kinds.getLsbD Kind.commitLost.bit = true := by
  obtain ⟨v, hstage, hchan, -⟩ := State.exists_stage hr l c
  obtain ⟨hpending, hlatched⟩ := (s.pendingOn_iff l c).mp hp
  obtain ⟨a, ha⟩ := Life.lifecycle_eq_active.mp (((hr l).2 c hlatched).2 hpending)
  rw [hchan, (hstage.releasable.events_releaseHalf l (hstage.life_active l ha)).1, hstage.pendingOn, if_pos hp]
  exact State.recordedFor_bit (by rw [hstage.settings]; exact hm) _

/-- A row of the other line PENDING on the channel is EMPTY once it has applied (R24). -/
theorem State.row_watchdogLeft_applied (hp : s.pendingOn (otherLine l) c = true) :
    ((s.watchdogLeft l).line (otherLine l)).row = .empty := by
  obtain ⟨v, hstage, -, hrow⟩ := State.exists_stage hr l c
  refine hrow _ ?_
  rw [hstage.releasable.line_releaseHalf l c, hstage.pendingOn, if_pos (.inr ⟨(ne_otherLine l).symm, hp⟩)]

section FromActive

variable {a : Active} (ha : s.life c = .active a)
include ha

/-- PEER_RELEASED, SPLICE_ENDED and COMMIT_APPLIED as far as the masks allow them (R21, R22, R24, R164). -/
theorem State.events_watchdogLeft_active :
    ((s.line (otherLine l)).settings.eventMask.getLsbD Kind.peerReleased.bit = true →
      (((s.watchdogLeft l).chan c).events (otherLine l)).kinds.getLsbD Kind.peerReleased.bit = true)
    ∧ (a.partner ≠ none → s.lineF.settings.eventMask.getLsbD Kind.spliceEnded.bit = true →
      ((s.watchdogLeft l).chan c).eventsF.kinds.getLsbD Kind.spliceEnded.bit = true)
    ∧ (s.pendingOn (otherLine l) c = true →
      (s.line (otherLine l)).settings.eventMask.getLsbD Kind.commitApplied.bit = true →
      (((s.watchdogLeft l).chan c).events (otherLine l)).kinds.getLsbD Kind.commitApplied.bit = true) := by
  obtain ⟨v, hstage, hchan, -⟩ := State.exists_stage hr l c
  have hv := hstage.life_active l ha
  have hother := (hstage.releasable.events_releaseHalf l hv).2
  rw [hstage.pendingOn] at hother
  rw [hchan]
  refine ⟨fun hm => ?_, fun hsplice hm => ?_, fun hp hm => ?_⟩
  · have hbit := State.recordedFor_bit (s := v) (l := otherLine l) (k := .peerReleased) (by rw [hstage.settings]; exact hm)
    rw [hother]
    split
    · exact State.recordedFor_keeps _ _ _ (hbit _)
    · exact hbit _
  · refine hstage.releasable.events_releaseHalf_keeps l hv (k := .F) ?_
    rw [hstage.chan]
    refine State.events_severAll (s := s.silenced l) (a := a) ((s.life_silenced l c).trans ha) hsplice ?_
    rw [show (s.silenced l).lineF.settings = s.lineF.settings from (s.row_silenced l .F).2]
    exact hm
  · rw [hother, if_pos hp]
    exact State.recordedFor_bit (by rw [hstage.settings]; exact hm) _

/-- With no row of the other line PENDING its half is left as it was (R21, R22). -/
theorem State.life_watchdogLeft_active (hp : s.pendingOn (otherLine l) c = false) :
    (s.watchdogLeft l).life c = s.leftLife l a := by
  obtain ⟨v, hstage, hchan, -⟩ := State.exists_stage hr l c
  rw [State.life_def, hchan, ← State.life_def,
    State.life_releaseHalf_active l (hstage.life_active l ha) ((hstage.pendingOn _).trans hp)]
  cases l
  · simp only [State.leftLife, hstage.timer]
  · simp only [State.leftLife, hstage.timer]

end FromActive

end Left

end Sys2Proof.Machine
end

section
/-! SUPPORT. The statement about a watchdog's expiry, from what the releases leave of each channel, timeslot and Line Unit. -/

namespace Sys2Proof.Machine

theorem State.lineF_eq (s : State) : s.lineF = s.line .F := rfl

section Left

variable {s : State} (hr : s.rowsOk) (l : Line)
include hr

/-! ### Line Units, pool and the rest (R193, R194) -/

theorem State.line_watchdogLeft (k : Line) :
    (s.watchdogLeft l).line k = { (s.silenced l).line k with row := ((s.watchdogLeft l).line k).row } := by
  have hline := State.line_releaseAll (State.releasable_watchdogStart l hr) l (List.finRange 128) k
  rwa [State.watchdogStart, State.line_severAll] at hline

/-- The jobs of all ACTIVE channels are given up (R130, R132). -/
theorem State.pool_watchdogLeft :
    (s.watchdogLeft l).pool = poolWithout (fun d => decide ((s.life d).lifecycle = .active)) s.pool := by
  refine (State.pool_releaseAll (State.releasable_watchdogStart l hr) l _).trans ?_
  simp only [List.mem_finRange, true_and, (s.halves_watchdogStart l _).1]
  simp [State.watchdogStart]

/-- With no row of the other line PENDING, its row stays. -/
theorem State.row_watchdogLeft_other (hp : ∀ c, s.pendingOn (otherLine l) c = false) :
    ((s.watchdogLeft l).line (otherLine l)).row = (s.line (otherLine l)).row :=
  (State.row_releaseAll_other (State.releasable_watchdogStart l hr) l _ fun c =>
    (State.pendingOn_watchdogStart l _ c).trans (hp c)).trans (s.row_watchdogStart l _).1

/-! ### The timeslots -/

/-- By F the timeslot of every fixed half is FREE and IDLE. -/
theorem State.slot_watchdogLeft_F {c : Chan} {f : FixedHalf} (hf : (s.life c).fixed? = some f) :
    (s.watchdogLeft .F).slot f.timeslot = { s.slot f.timeslot with entry := .free, source := .idle } := by
  have hstart : ((s.watchdogStart .F).life c).fixed? = some f := by rw [(s.halves_watchdogStart .F c).2.1, hf]
  rw [State.watchdogLeft, State.slot_releaseAll_F_own (State.releasable_watchdogStart .F hr) hstart rfl,
    State.slot_watchdogStart]

/-- The reservation of F's lost row is freed. -/
theorem State.entry_watchdogLeft_F {c : Chan} {x : Slot} (hp : s.pendingOn .F c = true)
    (hx : s.lineF.row.timeslot? = some x) (he : (s.slot x).entry = .reserved c) :
    ((s.watchdogLeft .F).slot x).entry = .free := by
  have hrow : (s.watchdogStart .F).lineF.row = s.lineF.row := by
    rw [State.lineF_eq, (s.row_watchdogStart .F .F).1, State.lineF_eq]
  have hentry : ((s.watchdogStart .F).slot x).entry = .reserved c := by
    rw [State.slot_watchdogStart]
    exact he
  exact State.entry_releaseAll_F_reserved (State.releasable_watchdogStart .F hr)
    ((State.pendingOn_watchdogStart .F .F c).trans hp) ((congrArg Row.timeslot? hrow).trans hx) hentry

/-- By R, with no row of F PENDING, the timeslot of every ACTIVE channel is left IDLE. -/
theorem State.slot_watchdogLeft_R (hp : ∀ c, s.pendingOn .F c = false) {c : Chan} {a : Active}
    (ha : s.life c = .active a) :
    (s.watchdogLeft .R).slot a.fixed.timeslot = { s.slot a.fixed.timeslot with source := .idle } := by
  have hstart : (s.watchdogStart .R).life c = .active { a with partner := none } :=
    State.life_severAll_of_active (s := s.silenced .R) ((s.life_silenced .R c).trans ha)
  refine (State.slot_releaseAll_R_own (State.releasable_watchdogStart .R hr)
    (fun d => (State.pendingOn_watchdogStart .R .F d).trans (hp d)) hstart).trans ?_
  rw [State.slot_watchdogStart]

theorem State.slot_watchdogLeft_unnamed (hp : ∀ c, s.pendingOn (otherLine l) c = false) {x : Slot}
    (hown : ∀ c f, (s.life c).fixed? = some f → f.timeslot ≠ x) (hreserved : ∀ c, (s.slot x).entry ≠ .reserved c) :
    (s.watchdogLeft l).slot x = s.slot x := by
  refine (State.slot_releaseAll_unnamed (State.releasable_watchdogStart l hr) l
    (fun d => (State.pendingOn_watchdogStart l _ d).trans (hp d)) (fun d f hf => ?_) (fun d => ?_) _).trans
    (s.slot_watchdogStart l x)
  · exact hown d f (by rwa [← (s.halves_watchdogStart l d).2.1])
  · rw [State.slot_watchdogStart]
    exact hreserved d

/-! ### A row of the other line applied to the half that is left (R24) -/

theorem State.radio_watchdogLeft {c : Chan} {a : Active} (ha : s.life c = .active a) (hp : s.pendingOn .R c = true) :
    ∃ radio, (s.watchdogLeft .F).life c = .halfR { tag := a.tag, timer := s.startedTimer .R, radio }
      ∧ s.lineR.row.setsRadio .m32
        { a.radio with active := Mode.derive a.radio.modeSet a.radio.requested .m32 } radio
      ∧ radio.active = Mode.derive radio.modeSet radio.requested .m32 := by
  obtain ⟨v, hstage, hchan, -⟩ := State.exists_stage hr .F c
  obtain ⟨radio, hlife, hsets, hactive⟩ := State.releaseHalf_active_F_pending (hstage.life_active .F ha)
    hstage.releasable.rows ((hstage.pendingOn .R).trans hp)
  rw [show v.lineR.row = s.lineR.row from hstage.row .R hp] at hsets
  rw [hstage.timer] at hlife
  exact ⟨radio, (congrArg Channel.life hchan).trans hlife, hsets, hactive⟩

/-- The half and the timeslots by R: the row is applied in a state whose timeslots are as they were or IDLE already. -/
theorem State.fixed_watchdogLeft {c : Chan} {a : Active} (ha : s.life c = .active a) (hp : s.pendingOn .F c = true) :
    ∃ fixed, (s.watchdogLeft .R).life c = .halfF { tag := a.tag, fixed, timer := s.startedTimer .F, check := none }
      ∧ s.lineF.row.setsFixed a.fixed fixed ∧ fixed.feed = a.fixed.feed
      ∧ fixed.timeslot = s.lineF.row.timeslot?.getD a.fixed.timeslot
      ∧ (fixed.timeslot = a.fixed.timeslot →
        (s.watchdogLeft .R).slot a.fixed.timeslot = { s.slot a.fixed.timeslot with source := .idle })
      ∧ (fixed.timeslot ≠ a.fixed.timeslot →
        (s.watchdogLeft .R).slot fixed.timeslot = { s.slot fixed.timeslot with entry := .bound c, source := .idle }
        ∧ (s.watchdogLeft .R).slot a.fixed.timeslot
          = { s.slot a.fixed.timeslot with entry := .free, source := .idle }) := by
  have hstart := State.releasable_watchdogStart .R hr
  obtain ⟨v, hv, hstands, hchan, hslots⟩ := State.slot_releaseAll_R_pending hstart
    ((State.pendingOn_watchdogStart .R .F c).trans hp)
  have hstage : s.stage v .R c := State.stage_of_standsFor .R hv hstands
  obtain ⟨fixed, hlife, hsets, hfeed, htime, hslot⟩ := State.releaseHalf_active_R_pending (hstage.life_active .R ha)
    hstage.releasable.rows ((hstage.pendingOn .F).trans hp)
  have hrow : v.lineF.row = s.lineF.row := hstage.row .F hp
  rw [hrow] at hsets htime
  rw [hstage.timer] at hlife
  have hfinal : ∀ x ts, (v.releaseHalf .R c).slot x = ts → ts.source = .idle → (s.watchdogLeft .R).slot x = ts :=
    fun x ts hts hidle => by
      subst hts
      exact Timeslot.eq_of_idle hidle (hslots x).2
  have hentry : ∀ x e, { v.slot x with entry := e, source := .idle } = { s.slot x with entry := e, source := .idle } :=
    fun x e => by
      obtain hx | hx := (hslots x).1 <;> rw [hx, State.slot_watchdogStart]
  have hidle : ∀ x, { v.slot x with source := .idle } = { s.slot x with source := .idle } := fun x => by
    obtain hx | hx := (hslots x).1 <;> rw [hx, State.slot_watchdogStart]
  refine ⟨fixed, (congrArg Channel.life hchan).trans hlife, hsets, hfeed, htime, fun hsame => hfinal _ _ ?_ rfl,
    fun hmoved => ⟨hfinal _ _ ?_ rfl, hfinal _ _ ?_ rfl⟩⟩
  · rw [hslot, if_pos hsame, if_pos rfl, hidle]
  · rw [hslot, if_neg hmoved, if_pos rfl, hentry]
  · rw [hslot, if_neg hmoved, if_neg (Ne.symm hmoved), if_pos rfl, hentry]

theorem State.leftWithRow_watchdogLeft {c : Chan} {a : Active} (ha : s.life c = .active a)
    (hp : s.pendingOn (otherLine l) c = true) : s.leftWithRow (s.watchdogLeft l) l c a := by
  refine ⟨fun hF => ?_, fun hR => ?_⟩
  · subst hF
    exact State.radio_watchdogLeft hr ha hp
  · subst hR
    obtain ⟨fixed, hlife, hsets, hfeed, htime, hsame, hmoved⟩ := State.fixed_watchdogLeft hr ha hp
    refine ⟨fixed, hlife, hsets, hfeed, fun hno => ?_, hsame, fun v x hv hx => ?_⟩
    · rw [htime, Row.timeslot?_eq_none.mpr hno, Option.getD_none]
    · have hnodup := ((hr .F).1.items ((s.pendingOn_iff .F c).mp hp).2).1
      have hvx : (Fin.ofNat 128 v.toNat : Slot) = x := Fin.ext (by
        simp [Fin.ofNat, ← hx, Nat.mod_eq_of_lt x.isLt])
      have hfx : fixed.timeslot = x := by
        rw [htime, show s.lineF.row.timeslot? = _ from Row.timeslot?_of_mem hnodup hv, Option.getD_some, hvx]
      subst hfx
      exact ⟨rfl, hmoved⟩

end Left

/-- The part after an expiry with the RELEASE action. -/
def State.watchdogDone (s : State) (l : Line) : State := ((s.silenced l).watchdogRelease l).settle

section Done

variable {s : State} (l : Line)

@[simp] theorem State.chan_watchdogDone (c : Chan) : (s.watchdogDone l).chan c = (s.watchdogLeft l).chan c := by
  rw [State.watchdogDone, State.chan_settle, State.watchdogRelease_eq, State.chan_mapLine]
  rfl

@[simp] theorem State.life_watchdogDone (c : Chan) : (s.watchdogDone l).life c = (s.watchdogLeft l).life c :=
  congrArg Channel.life (State.chan_watchdogDone l c)

@[simp] theorem State.slot_watchdogDone (x : Slot) : (s.watchdogDone l).slot x = (s.watchdogLeft l).slot x := by
  rw [State.watchdogDone, State.slot_settle, State.watchdogRelease_eq, State.slot_mapLine]
  rfl

theorem State.pool_watchdogDone : (s.watchdogDone l).pool = (s.watchdogLeft l).pool := by
  refine Eq.trans (b := ((s.silenced l).watchdogRelease l).pool) rfl ?_
  rw [State.watchdogRelease_eq, State.pool_mapLine]
  rfl

/-- The line's own row is EMPTY, whatever it was. -/
theorem State.line_watchdogDone_self :
    (s.watchdogDone l).line l
      = { (s.watchdogLeft l).line l with row := .empty, events := ((s.watchdogDone l).line l).events } := by
  rw [State.watchdogDone, State.line_settle, State.watchdogRelease_eq, State.line_mapLine_self]
  rfl

theorem State.line_watchdogDone_other :
    (s.watchdogDone l).line (otherLine l)
      = { (s.watchdogLeft l).line (otherLine l) with
          events := ((s.watchdogDone l).line (otherLine l)).events } := by
  rw [State.watchdogDone, State.line_settle, State.watchdogRelease_eq, State.line_mapLine, if_neg (ne_otherLine l)]
  rfl

theorem State.line_watchdogDone (hr : s.rowsOk) (k : Line) :
    (s.watchdogDone l).line k = { (s.silenced l).line k with
      row := ((s.watchdogDone l).line k).row, events := ((s.watchdogDone l).line k).events } := by
  by_cases hk : k = l
  · rw [hk, State.line_watchdogDone_self, State.line_watchdogLeft hr]
  · rw [← otherLine_eq_of_ne hk, State.line_watchdogDone_other, State.line_watchdogLeft hr]

end Done

/-- Both actions: the line SILENT, PARTNER_SILENT for the other, and no more of the Line Units but the rows and the event
lists. -/
theorem LineUnit.sameButList_silenced {s t : State} {l : Line}
    (h : ∀ k, t.line k = { (s.silenced l).line k with row := (t.line k).row, events := (t.line k).events }) :
    { s.line (otherLine l) with
        lineEvents := s.recordedSet (otherLine l) .partnerSilent (s.line (otherLine l)).lineEvents
        row := (t.line (otherLine l)).row }.sameButList (t.line (otherLine l))
      ∧ { s.line l with silent := true, expiry := none, row := (t.line l).row }.sameButList (t.line l) := by
  constructor
  · rw [h (otherLine l), State.line_silenced_other]
    rfl
  · rw [h l, State.line_silenced_self]
    rfl

/-- Settles O25: INFORM leaves the silent line alone; RELEASE, the releases of all channels in turn, each in a state that stands
for the first. -/
theorem watchdogExpirySilencesTheLine : Obligations.WatchdogExpirySilencesTheLine := by
  intro l s tm hr hsilent hexpiry hcome
  have hexec := exec_watchdogExpiry hsilent hexpiry hcome
  cases haction : (s.line l).settings.releaseAction with
  | false =>
    rw [haction, if_neg Bool.false_ne_true] at hexec
    obtain ⟨hother, hown⟩ := LineUnit.sameButList_silenced (s := s) (t := (s.silenced l).settle) (l := l) fun k => by
      rw [State.line_settle]
    refine ⟨_, hexec, s.device_silenced l, s.link_silenced l, hother, hown, fun _ => ⟨⟨s.device_silenced l, ?_, ?_⟩,
      s.pool_silenced l, fun k => ?_⟩, nofun⟩
    · exact fun c _ => s.chan_silenced l c
    · exact fun x _ => s.slot_silenced l x
    · rw [State.line_settle]
      exact (s.row_silenced l k).1
  | true =>
    rw [haction, if_pos rfl] at hexec
    obtain ⟨hother, hown⟩ := LineUnit.sameButList_silenced (s := s) (t := s.watchdogDone l) (l := l)
      (State.line_watchdogDone l hr)
    obtain ⟨hengines, hjobs⟩ := Prod.mk.inj ((State.pool_watchdogDone l).trans (State.pool_watchdogLeft hr l))
    refine ⟨s.watchdogDone l, hexec, by simp [State.watchdogDone], by simp [State.watchdogDone], hother, hown, nofun,
      fun _ => ⟨?_, ?_, fun e => ?_, fun c => ⟨fun hno => ?_, fun k => ?_, fun hhalf => ?_, fun x hF hx => ?_,
        fun hp _ => ⟨fun hm => ?_, fun x hF hx he => ?_⟩, fun a ha => ?_⟩, fun hp => ⟨?_, fun x hown hres => ?_,
        fun c a hR ha => ?_⟩⟩⟩
    · rw [State.line_watchdogDone_self]
      rfl
    · rw [hjobs]
      simp only [State.pool, decide_not]
    · rw [hengines]
      simp [State.pool]
    · rw [State.chan_watchdogDone, State.chan_watchdogLeft_of_not_holds hr l c hno]
    · rw [State.chan_watchdogDone, Channel.counter, Channel.counter]
      simp only [State.counters_watchdogLeft hr l c]
    · rw [State.life_watchdogDone, State.life_watchdogLeft_free hr l c hhalf]
    · subst hF
      obtain ⟨hcontinuity, hdone⟩ := State.chan_watchdogLeft_halfF hr c hx
      rw [State.chan_watchdogDone, State.slot_watchdogDone]
      exact ⟨State.slot_watchdogLeft_F hr (by rw [hx]; rfl), hcontinuity, hdone⟩
    · rw [State.chan_watchdogDone]
      exact State.events_watchdogLeft_lost hr l c hp hm
    · subst hF
      rw [State.slot_watchdogDone]
      exact State.entry_watchdogLeft_F hr hp hx he
    · obtain ⟨hpeer, hsplice, happlied⟩ := State.events_watchdogLeft_active hr l c ha
      rw [State.chan_watchdogDone]
      refine ⟨hpeer, hsplice, fun hF => ?_, fun hp => ⟨?_, happlied hp, ?_⟩, fun hp => ⟨fun hF => ?_, fun hR => ?_⟩⟩
      · subst hF
        rw [State.slot_watchdogDone, State.slot_watchdogLeft_F hr (by rw [ha]; rfl)]
      · rw [State.line_watchdogDone_other]
        exact State.row_watchdogLeft_applied hr l c hp
      · unfold State.leftWithRow
        simp only [State.life_watchdogDone, State.slot_watchdogDone]
        exact State.leftWithRow_watchdogLeft hr l ha hp
      · subst hF
        rw [State.life_watchdogDone, State.life_watchdogLeft_active hr _ c ha hp]
        rfl
      · subst hR
        rw [State.life_watchdogDone, State.life_watchdogLeft_active hr _ c ha hp]
        rfl
    · rw [State.line_watchdogDone_other]
      exact State.row_watchdogLeft_other hr l hp
    · rw [State.slot_watchdogDone, State.slot_watchdogLeft_unnamed hr l hp hown hres]
    · subst hR
      rw [State.slot_watchdogDone, State.slot_watchdogLeft_R hr hp ha]

end Sys2Proof.Machine
end
